-- ==== Sys2Proof/Word.lean ====
section
/-! DEFINITION. The plain words of the model: bytes, line counts, lane sets and station sets. -/

namespace Sys2Proof

/-- One byte of a frame or of an SPI transaction. -/
abbrev Byte := BitVec 8

/-- A line count: 32 bits that wrap (R1). Two counts are ordered only by their signed difference (R3). -/
abbrev Count := BitVec 32

/-- A set of lanes: bit k-1 stands for lane k (R193). -/
abbrev Lanes := BitVec 4

/-- A set of stations: bit n-1 stands for station n (R193). -/
abbrev Stations := BitVec 16

/-- Four like things: the lanes, the clamp positions or the stack streams 1 to 4. -/
structure Quad (α : Type) where
  one : α
  two : α
  three : α
  four : α
  deriving DecidableEq, Repr

end Sys2Proof
end

