-- ==== Sys2Proof/Syntax.lean ====
section
/-! DEFINITION. The commands of the block: one constructor of `Instr` for each row of spec/opcode_table.json,
with the operands the model gives it, the operand types, and the fields that the bytes of an operand are read into. -/

namespace Sys2Proof

/-- A tag on the wire: the owner station number, then the sequence (R193). -/
structure Tag where
  owner : Byte
  seq : Byte
  deriving DecidableEq, Repr

/-- The ten message kinds of the line link (R147). -/
inductive MsgKind where
  | recall | void | jam | jamRelease | purge | bid | sightingSeen | sightingMissed | sightingStray | hail
  deriving DecidableEq, Repr

/-- The 13 bytes of a piece description as a frame carries them, field by field, before any check (R193, section
11.2). -/
structure WireDesc where
  tag : Tag
  kind : BitVec 4
  lanes : Lanes
  article : Byte
  lot : BitVec 16
  length : BitVec 16
  lead : BitVec 16
  trail : BitVec 16
  reject : BitVec 4
  rank : BitVec 4
  deriving DecidableEq, Repr

/-- A description and the throat distance behind it: the payload of BID, SIGHTING MISSED and SIGHTING STRAY. -/
structure Placed where
  desc : WireDesc
  distance : BitVec 24
  deriving DecidableEq, Repr

/-- The HAIL payload as a frame carries it, field by field (section 11.2). -/
structure HailPayload where
  role : Byte
  lanes : Lanes
  eye : BitVec 24
  cpm : BitVec 16
  lineLanes : Byte
  lotBreak : BitVec 16
  strayGap : BitVec 16
  settle : Byte
  deriving DecidableEq, Repr

/-- What every accepted frame brings: its acceptance time on this station's time base (R150) and the
sender in the low four bits of its header (R145). -/
structure Heard where
  time : Nat
  sender : BitVec 4
  deriving DecidableEq, Repr

/-- A run of bytes seen on the line: the time of its first start bit, and each byte with whether its stop bit
was at the high level (R145, R149). -/
structure Run where
  start : Nat
  bytes : List (Byte × Bool)
  deriving DecidableEq, Repr

/-- The two moments of an SPI transaction at which the part acts: CS falls, and the command is taken, or the
transaction is cut short (R176 to R178). -/
inductive Cs where
  | falls | taken
  deriving DecidableEq, Repr

/-- The 26 data bytes of the STATION section (section 11.4), field by field. -/
structure StationWrite where
  number : Byte
  role : Byte
  lanes : Byte
  eye : BitVec 24
  landing : BitVec 16
  actuator : BitVec 16
  dead : Byte
  pulse : BitVec 16
  filter : Byte
  tolerance : BitVec 16
  reverse : BitVec 16
  sample : BitVec 16
  curtain : BitVec 16
  streams : Quad Lanes
  mode : Byte
  watermark : Byte
  deriving DecidableEq, Repr

/-- The 17 data bytes of the LINE section (section 11.4), field by field. -/
structure LineWrite where
  cpm : BitVec 16
  lanes : Byte
  lotBreak : BitVec 16
  strayGap : BitVec 16
  settle : Byte
  horizon : BitVec 16
  join : BitVec 16
  jam : BitVec 16
  stack : BitVec 16
  limit : Byte
  deriving DecidableEq, Repr

/-- The 14 data bytes of an ARTICLE section (section 11.4), field by field. -/
structure ArticleWrite where
  flags : Byte
  length : BitVec 16
  width : BitVec 16
  tolerance : BitVec 16
  feedGap : BitVec 16
  foldGap : BitVec 16
  shrink : Byte
  stack : Byte
  program : Byte
  deriving DecidableEq, Repr

/-- The commands. Each constructor is one row of spec/opcode_table.json, in the table's order. A frame carries its
payload and a host command its data as the bytes that stand on the line and on MOSI. An operand with a default may be
left out where it is the plain case: CS rises and the command is taken. -/
inductive Instr where
  /-- A change of the encoder pair to `a`, `b`, with the levels of the eye inputs at that moment (R1, R57). -/
  | encoderStep (a b : Bool) (eyes : Lanes)
  /-- The backward step that enters EXCURSION (R6). -/
  | excursion
  | speedUpdate
  | leadingEdge
  | trailingEdge
  /-- The record with this tag is missed at the own eye (R69). -/
  | miss (tag : Tag)
  /-- The record with this tag retires (R50). -/
  | retirement (tag : Tag)
  | fire
  | fireDropOn
  | fireDropOff
  | fireGripOn
  /-- The conversion begins with `code`, the first code of the width input (R115, R116). -/
  | widthStart (code : BitVec 12)
  | widthSample (code : BitVec 12)
  /-- The rest ends; `code` is the first code of a conversion that then begins at once (R118). -/
  | restTimerExpiry (code : BitVec 12)
  | readyRise
  | readyFall
  | retryTimerExpiry
  | settleTimerExpiry
  | spacerPassage (stream : Fin 4)
  | strobeEnd
  | divertPulseEnd
  | stackChangePulseEnd (stream : Fin 4)
  | jamCondition
  | joinTravelComplete
  /-- `heard`: a start bit of another station has been seen since quiet began (R151). -/
  | slotStart (slot : Fin 128) (heard : Bool := false)
  | frameError (run : Run)
  /-- The mismatch is seen at `time` (R152). -/
  | readbackMismatch (time : Nat)
  /-- The spoil window that spoiled the attempt ends at `time` (R152). -/
  | attemptSpoiled (time : Nat)
  | bid (heard : Heard) (payload : List Byte)
  /-- `measured`: the last two bytes of the payload, the measured length (section 11.2). -/
  | sightingSeen (heard : Heard) (payload measured : List Byte)
  | sightingMissed (heard : Heard) (payload : List Byte)
  | sightingStray (heard : Heard) (payload : List Byte)
  | recall (heard : Heard) (payload : List Byte)
  | void (heard : Heard) (payload : List Byte)
  | jam (heard : Heard)
  | jamReleaseAccepted (heard : Heard)
  | purge (heard : Heard)
  | hail (heard : Heard) (payload : List Byte)
  /-- A clean frame of `kind` with the own number, which this station did not send, ends its spoil window at
  `time` (R159). -/
  | duplicateNumber (time : Nat) (kind : MsgKind)
  | lineHealthTimeout
  | peerTtlExpiry (station : BitVec 4)
  | hailTimerExpiry
  | bidEntersOutbox
  /-- The attempt of the cancelling BID ends at `time`: accepted (`clean`) or spoiled (R95). -/
  | withdrawalCompletion (time : Nat) (clean : Bool)
  /-- The attempt in flight at LEAVE ends at `time`: accepted (`clean`) or spoiled (R160). -/
  | leaveCompletion (time : Nat) (clean : Bool)
  | configureStation (data : List Byte) (cs : Cs := .taken)
  | configureLine (data : List Byte) (cs : Cs := .taken)
  /-- CONFIGURE with an argument below 0x80: ARTICLE `n` (section 11.3). -/
  | configureArticle (n : BitVec 7) (data : List Byte) (cs : Cs := .taken)
  /-- START, with the levels of the eye inputs when it is taken (R57), and the time since which the line lies undriven
  (R160). -/
  | start (eyes : Lanes) (lineFree : Nat := 0) (cs : Cs := .taken)
  | leave (cs : Cs := .taken)
  | reset (cs : Cs := .taken)
  /-- Power-up, or a change of the RESET pin: `asserted` is its level (R177, R185). -/
  | fullReset (asserted : Bool := false)
  /-- The first data byte, and the bytes after it: the article and the lot (section 11.3). -/
  | load (article lot : List Byte) (cs : Cs := .taken)
  | unload (position : Byte) (cs : Cs := .taken)
  | holdRequested (cs : Cs := .taken)
  | holdReleased (cs : Cs := .taken)
  | jamRelease (cs : Cs := .taken)
  | purgeCommand (cs : Cs := .taken)
  | ackEvents (data : List Byte) (cs : Cs := .taken)
  | readEvent (k : Byte) (cs : Cs := .taken)
  | readTrack (ordinal : Byte) (cs : Cs := .taken)
  | readPeer (number : Byte) (cs : Cs := .taken)
  | readStation (cs : Cs := .taken)
  /-- A header with a command byte, or an argument byte, that names nothing (R176, R180, R186). -/
  | unknownCommand (command argument : Byte) (cs : Cs := .taken)
  /-- A transaction that carried these bytes, header and all, before CS rose (R177). -/
  | transactionCut (bytes : List Byte := []) (cs : Cs := .taken)
  /-- The spoil window that another station drove ends at `time` (R150). -/
  | spoiledFrameDiscarded (time : Nat)
  deriving DecidableEq, Repr

end Sys2Proof
end

