-- ==== Sys2Proof/Decode.lean ====
section
/-! DEFINITION. The command that the bytes of an SPI transaction spell (R176, section 11.3), and the command that a word
spells as such bytes. -/

namespace Sys2Proof.Machine

/-- The data bytes that a header's command needs where it is taken (R176, section 11.4). -/
def dataBytes (command argument : Byte) : Nat :=
  match command.toNat with
  | 0x01 =>
    if argument.toNat = 0x80 then 26 else if argument.toNat = 0x81 then 17
    else if 1 ≤ argument.toNat ∧ argument.toNat ≤ 63 then 14 else 0
  | 0x05 => 3
  | 0x0A => 2
  | _ => 0

/-- The command that a header and the bytes after it give, by section 11.3, with the levels that a START takes from
outside the port. -/
def commandOf (eyes : Lanes) (lineFree : Nat) (command argument : Byte) (data : List Byte) : Instr :=
  match command.toNat with
  | 0x01 =>
    if argument.toNat < 0x80 then .configureArticle (argument.setWidth 7) data
    else if argument.toNat = 0x80 then .configureStation data
    else if argument.toNat = 0x81 then .configureLine data
    else .unknownCommand command argument
  | 0x02 => .start eyes lineFree
  | 0x03 => .leave
  | 0x04 => .reset
  | 0x05 => .load (data.take 1) (data.drop 1)
  | 0x06 => .unload argument
  | 0x07 =>
    if argument.toNat = 1 then .holdRequested
    else if argument.toNat = 0 then .holdReleased
    else .unknownCommand command argument
  | 0x08 => .jamRelease
  | 0x09 => .purgeCommand
  | 0x0A => .ackEvents data
  | 0x11 => .readEvent argument
  | 0x12 => .readTrack argument
  | 0x13 => .readPeer argument
  | 0x14 => .readStation
  | _ => .unknownCommand command argument

end Sys2Proof.Machine

namespace Sys2Proof

/-- The byte at place `i` of a word: place 0 is the least significant. -/
def wordByte (w i : Nat) : Byte := BitVec.ofNat 8 (w / 256 ^ i)

/-- The command that a word spells, read as the bytes of an SPI transaction, the command byte lowest: the header of
section 11.3, with the data bytes its command needs (R193). A word too short for a header spells none. Every bit above the
word is 0: a word narrower than the data its command needs spells the whole command with 0 in the missing data bytes, and
not the transaction cut short of R177. Commands that no host sends have no bits, and a START so spelled finds every eye
clear (DESIGN CHOICE, log 28). -/
def decodeTableWord (nbits w : Nat) : Option Instr :=
  if nbits < 16 then none
  else
    let command := wordByte w 0
    let argument := wordByte w 1
    some (Machine.commandOf 0 0 command argument
      ((List.range (Machine.dataBytes command argument)).map (fun i => wordByte w (2 + i))))

end Sys2Proof
end

