-- ==== Sys2Proof/Config.lean ====
section
/-! DEFINITION. What the part fixes: its capacities and its times in microseconds, and the free values the
manual leaves open. -/

namespace Sys2Proof

/-- Why an object must not be stacked (R25). -/
inductive Reject where
  | none | narrow | wide | double | stray
  deriving DecidableEq, Repr, Inhabited

namespace Config

/-- The track list holds at most 64 records (R32). -/
def trackCapacity : Nat := 64
/-- A removal that leaves this many records or fewer clears TRACK_FULL (R52). -/
def trackRelief : Nat := 56
/-- The outbox has eight entries (R154). -/
def outboxCapacity : Nat := 8
/-- Messages of classes 1 to 3 hold at most six entries (R154). -/
def outboxShared : Nat := 6
/-- An entry is dropped at its eighth spoiled attempt (R152). -/
def maxAttempts : Nat := 8
/-- The event FIFO holds up to 32 events (R184). -/
def fifoCapacity : Nat := 32
/-- The fold queue holds up to four programs (R134). -/
def foldCapacity : Nat := 4
/-- The window search runs at most 64 scans (R83). -/
def maxScans : Nat := 64
/-- The greatest length a piece description carries, in counts (section 2.4). -/
def maxLength : Nat := 18000
/-- The greatest gap a piece description carries, in counts (section 2.4). -/
def maxGap : Nat := 12000
/-- The limit of a throat distance in either direction (R153). -/
def maxDistance : Int := 8388607
/-- The unbound jam length in millimetres (R13). -/
def unboundJamMm : Int := 4500

/-- One millisecond in microseconds. -/
def ms : Nat := 1000
/-- The speed update comes every 20 ms (R8). -/
def speedPeriod : Nat := 20 * ms
/-- The retry timer after a failed search (R84). -/
def retryTime : Nat := 100 * ms
/-- The band of the second condition of a beat (R90). -/
def beatBand : Nat := 2 * ms
/-- One code of the width input each millisecond (R116). -/
def sampleTime : Nat := ms
/-- The rest of the width sampler (R118). -/
def restTime : Nat := 2 * ms
/-- The strobe pulse (R134). -/
def strobeTime : Nat := 10 * ms
/-- The divert and stack-change pulses (R134). -/
def pulseTime : Nat := 100 * ms
/-- The line-health timer (R158). -/
def healthTime : Nat := 1000 * ms
/-- The time to live of a peer entry (R165). -/
def ttlTime : Nat := 1000 * ms
/-- The HAIL timer (R163). -/
def hailTime : Nat := 250 * ms
/-- One byte on the line (R145). -/
def byteTime : Nat := 20
/-- A frame breaks off when no start bit follows within this time (R145). -/
def breakTime : Nat := 4
/-- The spoil window, and the time from its end to quiet (R150, R151). -/
def windowTime : Nat := 20
/-- A spoil pulse starts this long after the error is found (R149). -/
def spoilDelay : Nat := 4
/-- A spoil pulse drives the line low for this long (R149). -/
def spoilTime : Nat := 12
/-- The width of one slot (R151). -/
def slotTime : Nat := 8
/-- The number of slots of the grid (R151). -/
def slots : Nat := 128
/-- At START quiet begins once the line has lain undriven for 40 microseconds (R160). -/
def startQuiet : Nat := 40

/-- DESIGN CHOICE (log 16): the reject that a STRAY reject carried for a record of another kind leaves behind.
R25 gives no column for it, so the value is free: the `n`-th such value taken. `combine` takes it only where the field
rises. -/
opaque freeReject : Nat → Reject

/-- DESIGN CHOICE (log 45): the byte on MISO at a place after the header of a command that has no reply, in a transaction
that ends at a time. The manual gives no value for it, and no command reads it. -/
opaque freeMiso : Nat → Nat → Byte

end Config
end Sys2Proof
end

