-- ==== Sys2Proof/Machine/State.lean ====
section
/-! DEFINITION. The state of one LT-16, block by block, as plain data, and its value after full reset. -/

namespace Sys2Proof.Machine

/-- The station state (R173). -/
inductive StationState where
  | setup | joining | active | fault
  deriving DecidableEq, Repr

/-- The role of a station (section "What the part is for"). -/
inductive Role where
  | feed | throat | outfeed
  deriving DecidableEq, Repr

/-- What a described object is (section 2.4). -/
inductive Kind where
  | piece | spacer | stray
  deriving DecidableEq, Repr

/-- The precedence class of a bid (R87). -/
inductive Rank where
  | overdue | normal | deferred
  deriving DecidableEq, Repr

/-- The record states of the track list (R35). -/
inductive RecState where
  | bid | seen | spacer | stray
  deriving DecidableEq, Repr

/-- The event FIFO mode (R184). -/
inductive FifoMode where
  | blocking | overwrite
  deriving DecidableEq, Repr

/-- The results of a command (R178). -/
inductive Result where
  | ok | clamped | wrongState | full | badArticle | notFound | tooLate | unknown
  deriving DecidableEq, Repr

/-! ## The configuration store (R180) -/

/-- The STATION section, every figure as written after clamping (R180). -/
structure StationSection where
  number : Nat
  role : Role
  lanes : Lanes
  eye : Int
  landing : Nat
  actuator : Nat
  dead : Nat
  pulse : Nat
  filter : Nat
  tolerance : Nat
  reverse : Nat
  sample : Nat
  curtain : Nat
  streams : Quad Lanes
  mode : FifoMode
  watermark : Nat
  deriving DecidableEq, Repr

/-- The LINE section, every figure as written after clamping (R180). -/
structure LineSection where
  cpm : Nat
  lanes : Nat
  lotBreak : Nat
  strayGap : Nat
  settle : Nat
  horizon : Nat
  join : Nat
  jam : Nat
  stack : Nat
  limit : Nat
  deriving DecidableEq, Repr

/-- One entry of the article table (section 2.1), in millimetres as written. -/
structure Article where
  enabled : Bool
  fullWidth : Bool
  length : Nat
  width : Nat
  tolerance : Nat
  feedGap : Nat
  foldGap : Nat
  shrink : Nat
  stack : Nat
  program : Nat
  deriving DecidableEq, Repr

/-- The configuration store: the two sections, articles 1 to 63 in order, and the STATION-written mark. -/
structure Store where
  station : StationSection
  line : LineSection
  articles : List Article
  written : Bool
  deriving DecidableEq, Repr

/-- The figures START takes from the store (R13, R21, R181): the two sections as they then stood, the station
lane set, and every configured distance in counts. -/
structure Figures where
  station : StationSection
  line : LineSection
  lanes : Lanes
  eye : Int
  landing : Int
  filter : Int
  tolerance : Int
  reverse : Int
  sample : Int
  lotBreak : Nat
  strayGap : Nat
  horizon : Int
  join : Int
  jam : Int
  unbound : Int
  stack : Nat
  deriving DecidableEq, Repr

/-! ## Line counter (R14) -/

/-- The line counter. `speedDue` is the time of the next 20 ms update; `atAdvance` is the model's mark that the
instant of the last advance still stands (log 4). -/
structure LineCounter where
  count : Count
  pair : Option (Bool × Bool)
  slips : Nat
  highWater : Count
  excursion : Bool
  speed : Int
  speedRef : Count
  lead : Nat
  margin : Nat
  speedDue : Nat
  atAdvance : Bool
  deriving DecidableEq, Repr

/-! ## Track list (R32, R55) -/

/-- A piece description (section 2.4). -/
structure Desc where
  tag : Tag
  kind : Kind
  lanes : Lanes
  article : Nat
  lot : Nat
  length : Nat
  lead : Nat
  trail : Nat
  reject : Reject
  rank : Rank
  deriving DecidableEq, Repr

/-- A track record (section 3.1). `missed` is the missed count, 0 or 1. `openFrom` is the first leading count of
an open stray (R34) and absent for every other record. -/
structure Record where
  desc : Desc
  tl : Count
  state : RecState
  missed : Bool
  passed : Bool
  own : Bool
  reporter : Nat
  measured : Option Nat
  openFrom : Option Count
  deriving DecidableEq, Repr

/-- The track list block: the records in list order and the tag counter (R27). `free` numbers the free values
the model has taken (log 16). -/
structure TrackList where
  records : List Record
  counter : Byte
  free : Nat
  deriving DecidableEq, Repr

/-! ## Eye unit (R76) -/

/-- The state of a lane's eye (R57). -/
inductive EyeState where
  | idle | clear | blocked
  deriving DecidableEq, Repr

/-- One eye: its state and the start count of its pending edge (R58). -/
structure Eye where
  state : EyeState
  edge : Option Count
  deriving DecidableEq, Repr

/-- The width sampler's verdict on a piece (R117). -/
inductive Verdict where
  | ok | narrow | wide | unmeasured
  deriving DecidableEq, Repr

/-- A sighting in progress (section 4.2). `stray` tells the opening; `width` is the width verdict delivered for
the piece and held until the closure (R117). -/
structure Sighting where
  tag : Tag
  stray : Bool
  first : Count
  limit : Count
  bound : Lanes
  lastTrail : Option Count
  width : Option Verdict
  deriving DecidableEq, Repr

/-- The eye unit. -/
structure EyeUnit where
  eyes : Quad Eye
  sightings : List Sighting
  deriving DecidableEq, Repr

/-! ## Bid engine (R103) -/

/-- The states of an own bid; NONE is the absence of the own bid (R77). -/
inductive BidState where
  | queued | settling | granted | fired
  deriving DecidableEq, Repr

/-- The own bid (section 5.1). `serves` is the clamp position or the stack stream served. `accepted` is 0 until
the BID is accepted. -/
structure OwnBid where
  state : BidState
  cancelling : Bool
  desc : Desc
  window : Count
  landing : Count
  accepted : Nat
  serves : Fin 4
  deriving DecidableEq, Repr

/-- An entry of the rival list (R89). -/
structure Rival where
  tag : Tag
  rank : Rank
  accepted : Nat
  deriving DecidableEq, Repr

/-- The five hold causes (R79). -/
inductive HoldCause where
  | operator | jam | lineDown | mismatch | trackFull
  deriving DecidableEq, Repr

/-- The hold set: each cause at most once (R79). -/
structure HoldSet where
  operator : Bool
  jam : Bool
  lineDown : Bool
  mismatch : Bool
  trackFull : Bool
  deriving DecidableEq, Repr

/-- A spacer request held by the bid engine (R101). -/
structure SpacerRequest where
  stream : Fin 4
  lanes : Lanes
  length : Nat
  endPiece : Option Tag
  deriving DecidableEq, Repr

/-- The bid engine. `retry` is the expiry of the retry timer and present exactly while the engine waits for a
window (R84). `changed` is the model's mark that the track list handed on a change in this step (log 9). -/
structure BidEngine where
  own : Option OwnBid
  rivals : List Rival
  hold : HoldSet
  jamming : Stations
  deferral : Stations
  passedOver : Nat
  request : Option SpacerRequest
  retry : Option Nat
  changed : Bool
  deriving DecidableEq, Repr

/-! ## Feed sequencer and width sampler (R123) -/

/-- The states of a clamp position (R105). -/
inductive PosState where
  | empty | loaded | bidding | firing
  deriving DecidableEq, Repr

/-- A clamp position (section 6.1); article and lot are 0 when it is EMPTY. -/
structure Position where
  state : PosState
  article : Nat
  lot : Nat
  unloading : Bool
  deriving DecidableEq, Repr

/-- Where a running fire sequence stands: before step 3, before step 4, before step 6 (R112). -/
inductive FireStage where
  | beforeDrop | dropping | beforeGrip
  deriving DecidableEq, Repr

/-- A running fire sequence: the time of its next switching, the dead time and the pulse in milliseconds, and
the position it empties (absent after LEAVE, R122). -/
structure FireSequence where
  stage : FireStage
  due : Nat
  dead : Nat
  pulse : Nat
  position : Option (Fin 4)
  deriving DecidableEq, Repr

/-- The feed sequencer. `returned` is the model's mark of the position that last returned from BIDDING to LOADED and of the
time it did so: an UNLOAD of that same instant meets it LOADED (R110; DESIGN CHOICE, log 46). -/
structure FeedSequencer where
  positions : Quad Position
  lastFilled : Fin 4
  ready : Bool
  grip : Bool
  drop : Bool
  fire : Option FireSequence
  returned : Option (Fin 4 × Nat)
  deriving DecidableEq, Repr

/-- The phases of the width sampler (section 6.5). -/
inductive WidthPhase where
  | idle | armed | converting | resting
  deriving DecidableEq, Repr

/-- A piece the sampler has in hand or pending: `edgeTaken` notes the trailing edge of its opening eye (R118). -/
structure WidthPiece where
  tag : Tag
  article : Nat
  lot : Nat
  lane : Fin 4
  start : Count
  edgeTaken : Bool
  deriving DecidableEq, Repr

/-- The width sampler. `due` is the time of the next code while CONVERTING and the end of the rest while RESTING. -/
structure WidthSampler where
  phase : WidthPhase
  piece : Option WidthPiece
  sum : Nat
  samples : Nat
  pending : Option WidthPiece
  due : Nat
  last : Nat
  deriving DecidableEq, Repr

/-! ## Throat monitor and outfeed director (R132, R143) -/

/-- The throat monitor. -/
structure ThroatMonitor where
  jammed : Bool
  announced : Bool
  relay : Bool
  bases : Quad (Option Count)
  deriving DecidableEq, Repr

/-- The spacer state of a stack stream (section 7.5). -/
inductive SpacerState where
  | none
  | requested (endPiece : Option Tag)
  | placed (tag : Tag)
  deriving DecidableEq, Repr

/-- How the last stack of a stream closed (section 7.5). -/
inductive LastStack where
  | none | full | odd | change
  deriving DecidableEq, Repr

/-- A stack stream (section 7.5). `current` is the article and lot of the stack being built. -/
structure Stream where
  lanes : Lanes
  current : Option (Nat × Nat)
  passed : Nat
  serial : Byte
  spacer : SpacerState
  closure : Option (Tag × Count)
  lastStack : LastStack
  deriving DecidableEq, Repr

/-- An entry of the table of pieces under the eye (section 7.6). -/
structure UnderEye where
  tag : Tag
  stream : Option (Fin 4)
  serial : Byte
  counted : Bool
  deriving DecidableEq, Repr

/-- The outfeed director. A running pulse is held as the time it ends. `planDue` is the model's set of streams to
be planned again at the end of this step (log 9). -/
structure OutfeedDirector where
  streams : Quad Stream
  queue : List (Fin 4)
  underEye : List UnderEye
  foldCode : Nat
  strobe : Option Nat
  foldQueue : List Nat
  divert : Option Nat
  stackChange : Quad (Option Nat)
  planDue : BitVec 4
  deriving DecidableEq, Repr

/-! ## Link controller (R162) and peer table (R174) -/

/-- A message of the outbox, with the throat count its source gave (R147, R153). A HAIL carries the figures of
START and needs no more (R164). -/
inductive Msg where
  | recall (tag : Tag)
  | void (tag : Tag)
  | jam
  | jamRelease
  | purge
  | bid (desc : Desc) (tl : Count)
  | seen (desc : Desc) (tl : Count) (measured : Nat)
  | missed (desc : Desc) (tl : Count)
  | stray (desc : Desc) (tl : Count)
  | hail
  deriving DecidableEq, Repr

/-- An outbox entry: WAITING or SENDING, cancelling or not, and its spoiled attempts (R152, R154, R156). -/
structure Entry where
  msg : Msg
  sending : Bool
  cancelling : Bool
  attempts : Nat
  deriving DecidableEq, Repr

/-- A time during which the part drives the line low: from `start`, up to but not including `stop` (R149). -/
structure Pulse where
  start : Nat
  stop : Nat
  deriving DecidableEq, Repr

/-- The link controller. `outbox` is in age order, oldest first. `quiet` is the time quiet began, absent while no
slot grid runs (R151). `frame` holds the bytes of the frame being sent and `began` the time its attempt began, `spoil`
the last spoil pulse driven, `listenFrom` the time from which a start bit begins a frame (R149), `health` the expiry of
the line-health timer (R158). -/
structure LinkController where
  outbox : List Entry
  waitingBid : Option Msg
  lastSender : Option Nat
  quiet : Option Nat
  frame : List Byte
  began : Nat
  spoil : Option Pulse
  listenFrom : Nat
  health : Option Nat
  deriving DecidableEq, Repr

/-- The states of a peer entry (section 9.2). -/
inductive PeerState where
  | present | silent | mismatch
  deriving DecidableEq, Repr

/-- What the last HAIL of a peer carried (section 9.2); a role byte that names no role leaves `role` absent (R168). -/
structure Hailed where
  role : Option Role
  lanes : Lanes
  eye : Int
  cpm : Nat
  lineLanes : Nat
  lotBreak : Nat
  strayGap : Nat
  settle : Nat
  deriving DecidableEq, Repr

/-- A peer entry; it is hailed when `hailed` is present. `ttlEnds` is the time its TTL reaches 0. -/
structure Peer where
  number : Nat
  state : PeerState
  hailed : Option Hailed
  differs : Bool
  ttlEnds : Nat
  deriving DecidableEq, Repr

/-- The peer table, with the HAIL timer and the join travel counter. -/
structure PeerTable where
  entries : List Peer
  hailTimer : Option Nat
  joined : Nat
  deriving DecidableEq, Repr

/-! ## Local port and event FIFO (R192) -/

/-- The local port: CUT, the last result, what MISO last showed (the status word and the reply), the status word
captured at a fall of CS whose command is not yet taken (R178), and whether the RESET pin is asserted (R177). -/
structure LocalPort where
  cut : Bool
  last : Result
  status : BitVec 16
  reply : List Byte
  captured : Option (BitVec 16)
  held : Bool
  deriving DecidableEq, Repr

/-- The event kinds (R191, section 11.5). -/
inductive EventKind where
  | reversed | trackFull | lost | beaten | recalled | fired | confirmed | voided | unconfirmed | unloaded
  | widthUnmeasured | jam | jamHeld | jamReleased | stackClosed | diverted | shortGap | foldOverrun | msgDropped
  | lineDown | lineUp | fault | purged | peerJoined | peerSilent | peerMismatch | active | left
  deriving DecidableEq, Repr

/-- An event; a field the raising rule does not give is absent (R184). -/
structure Event where
  kind : EventKind
  tag : Option Tag := none
  article : Option Nat := none
  lot : Option Nat := none
  a : Option Int := none
  b : Option Int := none
  code : Option Nat := none
  deriving DecidableEq, Repr

/-- A held event with the sequence it took (R184). -/
structure HeldEvent where
  seq : BitVec 16
  event : Event
  deriving DecidableEq, Repr

/-- The event FIFO: held events, oldest first, the sequence counter and the lost flag. The mode and the watermark
stand in the STATION section. -/
structure EventFifo where
  held : List HeldEvent
  next : BitVec 16
  lost : Bool
  deriving DecidableEq, Repr

/-! ## The state -/

/-- The whole state of a station. `pending` is the queue of waiting commands, `now` the time base in
microseconds (R77), `leaving` a LEAVE that waits for the attempt in flight (R160). -/
structure State where
  station : StationState
  leaving : Bool
  now : Nat
  store : Store
  run : Figures
  line : LineCounter
  track : TrackList
  eye : EyeUnit
  bid : BidEngine
  feed : FeedSequencer
  width : WidthSampler
  throat : ThroatMonitor
  outfeed : OutfeedDirector
  link : LinkController
  peers : PeerTable
  port : LocalPort
  fifo : EventFifo
  pending : List Instr
  deriving DecidableEq, Repr

/-- No command stops the part: R176 to R180 answer every host command with a result, and every event of the
table has its effect. There is no fault. -/
inductive Fault where
  deriving DecidableEq, Repr

/-- Why a command is refused a meaning. -/
inductive Refusal where
  /-- Raised by `exec` alone, for a command that has no meaning in the model yet. Safe: nothing is claimed. -/
  | notModelled (mnemonic : String)
  deriving DecidableEq, Repr

/-! ## The values after full reset -/

/-- Every member of a four the same. -/
def Quad.fill {α : Type} (x : α) : Quad α := { one := x, two := x, three := x, four := x }

/-- The defaults of the STATION section (R180). -/
def StationSection.default : StationSection :=
  { number := 1, role := .feed, lanes := 1, eye := 0, landing := 0, actuator := 0, dead := 10, pulse := 100
    filter := 10, tolerance := 60, reverse := 200, sample := 100, curtain := 1200, streams := Quad.fill 0
    mode := .blocking, watermark := 1 }

/-- The defaults of the LINE section (R180). -/
def LineSection.default : LineSection :=
  { cpm := 2000, lanes := 4, lotBreak := 1000, strayGap := 300, settle := 12, horizon := 20000, join := 20000
    jam := 500, stack := 400, limit := 3 }

/-- An unwritten article entry (R17). -/
def Article.unwritten : Article :=
  { enabled := false, fullWidth := false, length := 150, width := 100, tolerance := 0, feedGap := 0, foldGap := 0
    shrink := 0, stack := 1, program := 0 }

/-- The store after full reset (R17, R181). -/
def Store.reset : Store :=
  { station := .default, line := .default, articles := List.replicate 63 .unwritten, written := false }

/-- No converted distance is held after full reset (R14); DESIGN CHOICE (log 7): they read 0, beside the default
sections. -/
def Figures.reset : Figures :=
  { station := .default, line := .default, lanes := 0, eye := 0, landing := 0, filter := 0, tolerance := 0
    reverse := 0, sample := 0, lotBreak := 0, strayGap := 0, horizon := 0, join := 0, jam := 0, unbound := 0
    stack := 0 }

/-- The line counter after full reset (R14); the first 20 ms end 20 ms after it (R8). -/
def LineCounter.reset : LineCounter :=
  { count := 0, pair := none, slips := 0, highWater := 0, excursion := false, speed := 0, speedRef := 0, lead := 0
    margin := 0, speedDue := Config.speedPeriod, atAdvance := false }

/-- An idle eye (R76). -/
def Eye.idle : Eye := { state := .idle, edge := none }

/-- The eye unit in SETUP (R76). -/
def EyeUnit.reset : EyeUnit := { eyes := Quad.fill .idle, sightings := [] }

/-- The empty hold set. -/
def HoldSet.empty : HoldSet :=
  { operator := false, jam := false, lineDown := false, mismatch := false, trackFull := false }

/-- The bid engine after full reset (R103). -/
def BidEngine.reset : BidEngine :=
  { own := none, rivals := [], hold := .empty, jamming := 0, deferral := 0, passedOver := 0, request := none
    retry := none, changed := false }

/-- An EMPTY clamp position (R105). -/
def Position.none : Position := { state := .empty, article := 0, lot := 0, unloading := false }

/-- The feed sequencer after full reset (R123); READY reads low until a rise is seen (log 6). -/
def FeedSequencer.reset : FeedSequencer :=
  { positions := Quad.fill .none, lastFilled := 3, ready := false, grip := true, drop := false, fire := Option.none
    returned := Option.none }

/-- The width sampler after full reset (R123). -/
def WidthSampler.reset : WidthSampler :=
  { phase := .idle, piece := none, sum := 0, samples := 0, pending := none, due := 0, last := 0 }

/-- The throat monitor after full reset (R132). -/
def ThroatMonitor.reset : ThroatMonitor :=
  { jammed := false, announced := false, relay := false, bases := Quad.fill none }

/-- An unused stream (R143). -/
def Stream.unused : Stream :=
  { lanes := 0, current := none, passed := 0, serial := 0, spacer := .none, closure := none, lastStack := .none }

/-- The outfeed director after full reset (R143). -/
def OutfeedDirector.reset : OutfeedDirector :=
  { streams := Quad.fill .unused, queue := [], underEye := [], foldCode := 0, strobe := none, foldQueue := []
    divert := none, stackChange := Quad.fill none, planDue := 0 }

/-- The link controller after full reset (R162); no start bit is taken before START sets `listenFrom`, and no attempt has
begun (log 6). -/
def LinkController.reset : LinkController :=
  { outbox := [], waitingBid := none, lastSender := none, quiet := none, frame := [], began := 0, spoil := none
    listenFrom := 0, health := none }

/-- The peer table after full reset (R174). -/
def PeerTable.reset : PeerTable := { entries := [], hailTimer := none, joined := 0 }

/-- The local port after full reset (R192); what R192 does not give is DESIGN CHOICE (log 6). -/
def LocalPort.reset : LocalPort :=
  { cut := false, last := .ok, status := 0, reply := [], captured := none, held := false }

/-- The event FIFO after full reset (R185). -/
def EventFifo.reset : EventFifo := { held := [], next := 0, lost := false }

/-- The part right after full reset (R185): every block in the state its chapter gives, and no command waiting. -/
def State.reset : State :=
  { station := .setup, leaving := false, now := 0, store := .reset, run := .reset, line := .reset
    track := { records := [], counter := 0, free := 0 }, eye := .reset, bid := .reset, feed := .reset
    width := .reset, throat := .reset, outfeed := .reset, link := .reset, peers := .reset, port := .reset
    fifo := .reset, pending := [] }

end Sys2Proof.Machine
end

