-- ==== Sys2Proof/Machine/Ops.lean ====
section
/-! DEFINITION. The operations every block shares: the updates of State, counts and their signed order, lanes and
sets, the time base, and entering an event in the event FIFO. -/

namespace Sys2Proof

/-- The member of a four at `i` (0 stands for number 1). -/
def Quad.get {α : Type} (q : Quad α) (i : Fin 4) : α :=
  match i with
  | 0 => q.one
  | 1 => q.two
  | 2 => q.three
  | 3 => q.four

/-- A four with its member at `i` replaced. -/
def Quad.set {α : Type} (q : Quad α) (i : Fin 4) (x : α) : Quad α :=
  match i with
  | 0 => { q with one := x }
  | 1 => { q with two := x }
  | 2 => { q with three := x }
  | 3 => { q with four := x }

/-- A four with every member changed by its number. -/
def Quad.mapAt {α β : Type} (q : Quad α) (f : Fin 4 → α → β) : Quad β :=
  { one := f 0 q.one, two := f 1 q.two, three := f 2 q.three, four := f 3 q.four }

namespace Machine

/-! ## Updates of the state, one per field -/

/-- The state with another `station`. -/
def State.setStation (s : State) (x : StationState) : State := { s with station := x }

/-- The state with another `leaving`. -/
def State.setLeaving (s : State) (x : Bool) : State := { s with leaving := x }

/-- The state with another `now`. -/
def State.setNow (s : State) (x : Nat) : State := { s with now := x }

/-- The state with another `store`. -/
def State.setStore (s : State) (x : Store) : State := { s with store := x }

/-- The state with another `run`. -/
def State.setRun (s : State) (x : Figures) : State := { s with run := x }

/-- The state with another `line`. -/
def State.setLine (s : State) (x : LineCounter) : State := { s with line := x }

/-- The state with another `track`. -/
def State.setTrack (s : State) (x : TrackList) : State := { s with track := x }

/-- The state with another `eye`. -/
def State.setEye (s : State) (x : EyeUnit) : State := { s with eye := x }

/-- The state with another `bid`. -/
def State.setBid (s : State) (x : BidEngine) : State := { s with bid := x }

/-- The state with another `feed`. -/
def State.setFeed (s : State) (x : FeedSequencer) : State := { s with feed := x }

/-- The state with another `width`. -/
def State.setWidth (s : State) (x : WidthSampler) : State := { s with width := x }

/-- The state with another `throat`. -/
def State.setThroat (s : State) (x : ThroatMonitor) : State := { s with throat := x }

/-- The state with another `outfeed`. -/
def State.setOutfeed (s : State) (x : OutfeedDirector) : State := { s with outfeed := x }

/-- The state with another `link`. -/
def State.setLink (s : State) (x : LinkController) : State := { s with link := x }

/-- The state with another `peers`. -/
def State.setPeers (s : State) (x : PeerTable) : State := { s with peers := x }

/-- The state with another `port`. -/
def State.setPort (s : State) (x : LocalPort) : State := { s with port := x }

/-- The state with another `fifo`. -/
def State.setFifo (s : State) (x : EventFifo) : State := { s with fifo := x }

/-- The state with another `pending`. -/
def State.setPending (s : State) (x : List Instr) : State := { s with pending := x }

/-! ## Counts (R3, R12) -/

/-- The signed 32-bit difference of two counts (R3). -/
def signedDiff (a b : Count) : Int := (a - b).toInt

/-- Count `a` is later than, or above, count `b` (R3). -/
def later (a b : Count) : Bool := decide (0 < signedDiff a b)

/-- Count `a` is at least count `b` (R3). -/
def atLeast (a b : Count) : Bool := decide (0 ≤ signedDiff a b)

/-- The sum of a count and a distance, modulo 2^32 (R3). -/
def plus (c : Count) (d : Int) : Count := c + BitVec.ofInt 32 d

/-- A distance in millimetres in counts: multiplied by cpm, divided by 1000, rounded up (R12). -/
def mmToCounts (cpm : Nat) (mm : Int) : Int := -((-(mm * (cpm : Int))) / 1000)

/-- A quotient by 1000 rounded up (R9, R10). -/
def ceilThousandth (n : Nat) : Nat := (n + 999) / 1000

/-- A number limited to a range. -/
def clampNat (lo hi n : Nat) : Nat := max lo (min hi n)

/-- A whole number limited to a range. -/
def clampInt (lo hi n : Int) : Int := max lo (min hi n)

/-! ## Lanes and sets -/

/-- The lane numbers in ascending order, as indexes. -/
def four : List (Fin 4) := [0, 1, 2, 3]

/-- The set holding one lane. -/
def laneBit (k : Fin 4) : Lanes := 1#4 <<< k.val

/-- A lane is in a set. -/
def hasLane (l : Lanes) (k : Fin 4) : Bool := l.getLsbD k.val

/-- The lanes 1 to `n`. -/
def lanesUpTo (n : Nat) : Lanes := BitVec.ofNat 4 (2 ^ n - 1)

/-- Two lane sets have a lane in common (R22). -/
def share (a b : Lanes) : Bool := a &&& b != 0

/-- The set holding one station, 1 to 15. -/
def stationBit (n : Nat) : Stations := if n = 0 then 0 else 1#16 <<< (n - 1)

/-- A station is in a set. -/
def hasStation (w : Stations) (n : Nat) : Bool := w &&& stationBit n != 0

/-! ## What every block reads -/

/-- The role fixed at the last START (R179). -/
def State.role (s : State) : Role := s.run.station.role

/-- The own station number, as fixed at START (R182). -/
def State.number (s : State) : Nat := s.run.station.number

/-- The own number as an owner byte of a tag. -/
def State.ownerByte (s : State) : Byte := BitVec.ofNat 8 s.number

/-- The lanes of the line (R21). -/
def Figures.lineLanes (f : Figures) : Lanes := lanesUpTo f.line.lanes

/-- The record with a tag, when the list holds one (R32). -/
def State.record (s : State) (t : Tag) : Option Record := s.track.records.find? (fun r => r.desc.tag == t)

/-- The own bid's tag is `t` and the own bid is in state `b`. -/
def State.ownIs (s : State) (b : BidState) (t : Tag) : Bool :=
  match s.bid.own with
  | some o => o.state == b && o.desc.tag == t
  | none => false

/-- The hold set is not empty (R79). -/
def HoldSet.any (h : HoldSet) : Bool := h.operator || h.jam || h.lineDown || h.mismatch || h.trackFull

/-! ## Time (R77) -/

/-- The time base moves on to `t`, if it is not there yet; the instant of the last advance is then over (log 3,
log 4). -/
def advanceTo (t : Nat) (s : State) : State :=
  if t ≤ s.now then s else (s.setNow t).setLine { s.line with atAdvance := false }

/-- What moves the part only outside the RESET pin's full reset, which lasts while the pin is asserted (R185, R194; log
36). -/
def outsideReset (effect : State → State) (s : State) : State := if s.port.held then s else effect s

/-! ## The event FIFO (R184) -/

/-- An event raised by a block is entered, dropped, or entered over the oldest, by the fill and the mode (R184). -/
def EventFifo.enter (f : EventFifo) (mode : FifoMode) (e : Event) : EventFifo :=
  if f.held.length < Config.fifoCapacity then
    { f with held := f.held ++ [{ seq := f.next, event := e }], next := f.next + 1 }
  else
    match mode with
    | .blocking => { f with lost := true }
    | .overwrite => { f with held := f.held.drop 1 ++ [{ seq := f.next, event := e }], next := f.next + 1 }

/-- A block raises an event (R191). The mode acts from the STATION write (R180). -/
def raise (e : Event) (s : State) : State := s.setFifo (s.fifo.enter s.store.station.mode e)

/-- An event about a described object: its tag, article and lot, and what else the rule gives. -/
def descEvent (kind : EventKind) (d : Desc) (code : Option Nat := none) (a b : Option Int := none) : Event :=
  { kind := kind, tag := some d.tag, article := some d.article, lot := some d.lot, a := a, b := b, code := code }

end Machine
end Sys2Proof
end

