-- ==== Sys2Proof/Machine/Flags.lean ====
section
/-! DEFINITION. Computed flags: the reject combination, the hold causes and their codes, IRQ, and the status word. -/

namespace Sys2Proof.Machine

/-- The rank of a reject: NONE lowest, NARROW and WIDE alike, then DOUBLE, then STRAY (R25). -/
def rejectLevel (r : Reject) : Nat :=
  match r with
  | .none => 0
  | .narrow | .wide => 1
  | .double => 2
  | .stray => 3

/-- The columns NONE, NARROW, WIDE and DOUBLE of R25: a verdict combined with the held reject. DESIGN CHOICE (log 16):
a STRAY verdict has no column; what it leaves is `free` where that does not lower the field, since the field only
rises, and DOUBLE stays as in every column. -/
def combine (free held new : Reject) : Reject :=
  match held, new with
  | .stray, _ => .stray
  | .double, _ => .double
  | h, .none => h
  | h, .stray => if rejectLevel h ≤ rejectLevel free then free else h
  | _, n => n

/-- The code of RECALLED for a hold cause (section 11.5). -/
def HoldCause.code (c : HoldCause) : Nat :=
  match c with
  | .operator => 1
  | .jam => 2
  | .lineDown => 3
  | .mismatch => 4
  | .trackFull => 5

/-- A cause is in the hold set. -/
def HoldSet.has (h : HoldSet) (c : HoldCause) : Bool :=
  match c with
  | .operator => h.operator
  | .jam => h.jam
  | .lineDown => h.lineDown
  | .mismatch => h.mismatch
  | .trackFull => h.trackFull

/-- The hold set with a cause in it or out of it (R79). -/
def HoldSet.put (h : HoldSet) (c : HoldCause) (x : Bool) : HoldSet :=
  match c with
  | .operator => { h with operator := x }
  | .jam => { h with jam := x }
  | .lineDown => { h with lineDown := x }
  | .mismatch => { h with mismatch := x }
  | .trackFull => { h with trackFull := x }

/-- The hold causes as READ STATION shows them (section 11.5). -/
def HoldSet.bits (h : HoldSet) : Byte :=
  BitVec.ofNat 8 (h.operator.toNat + 2 * h.jam.toNat + 4 * h.lineDown.toNat + 8 * h.mismatch.toNat
    + 16 * h.trackFull.toNat)

/-- IRQ is asserted while the fill is at least the watermark, or while the lost flag is set (R190). -/
def State.irq (s : State) : Bool := decide (s.store.station.watermark ≤ s.fifo.held.length) || s.fifo.lost

/-- The coding of the station state (section 11.3). -/
def StationState.code (x : StationState) : Nat :=
  match x with
  | .setup => 0
  | .joining => 1
  | .active => 2
  | .fault => 3

/-- The coding of a result (section 11.3). -/
def Result.code (r : Result) : Nat :=
  match r with
  | .ok => 0
  | .clamped => 1
  | .wrongState => 2
  | .full => 3
  | .badArticle => 4
  | .notFound => 5
  | .tooLate => 6
  | .unknown => 7

/-- The jam field of the status word (R130, R178). -/
def State.jamShown (s : State) : Bool := s.throat.jammed || s.bid.jamming != 0

/-- The status word as it would be captured now (R178, section 11.3). -/
def State.statusWord (s : State) : BitVec 16 :=
  BitVec.ofNat 16 (16384 * s.station.code + 8192 * s.bid.hold.any.toNat + 128 * s.fifo.held.length
    + 64 * s.fifo.lost.toNat + 32 * s.bid.hold.lineDown.toNat + 16 * s.jamShown.toNat + 8 * s.port.cut.toNat
    + s.port.last.code)

/-- The status word that the transaction in progress shows: the one captured when CS fell (R178). -/
def State.shownWord (s : State) : BitVec 16 := s.port.captured.getD s.statusWord

/-- The link controller drives the line low with a spoil pulse (R149). -/
def State.drivesSpoil (s : State) : Bool :=
  match s.link.spoil with
  | some p => decide (p.start ≤ s.now) && decide (s.now < p.stop)
  | none => false

end Sys2Proof.Machine
end

