-- ==== Sys2Proof/Machine/Operands.lean ====
section
/-! DEFINITION. What the operands of a command mean: a wire description and when it cannot be a description (R26),
the clamping of a configuration section (R180), and the figures START takes from the store (R13, R21, R133). -/

namespace Sys2Proof.Machine

/-! ## Piece descriptions (R26, R193) -/

/-- The kind a nibble names (section 11.2). -/
def kindOf (n : BitVec 4) : Option Kind :=
  match n.toNat with
  | 1 => some .piece
  | 2 => some .spacer
  | 3 => some .stray
  | _ => none

/-- The reject a nibble names (section 11.2). -/
def rejectOf (n : BitVec 4) : Option Reject :=
  match n.toNat with
  | 0 => some .none
  | 1 => some .narrow
  | 2 => some .wide
  | 3 => some .double
  | 4 => some .stray
  | _ => none

/-- The rank a nibble names (section 11.2). -/
def rankOf (n : BitVec 4) : Option Rank :=
  match n.toNat with
  | 1 => some .overdue
  | 2 => some .normal
  | 3 => some .deferred
  | _ => none

/-- The fields of a wire description that R26 bounds are within their bounds. -/
def descInRange (lines : Lanes) (w : WireDesc) : Bool :=
  w.tag.owner != 0 && decide (w.tag.owner.toNat ≤ 15) && w.lanes != 0 && (w.lanes &&& ~~~lines) == 0
    && decide (1 ≤ w.length.toNat) && decide (w.length.toNat ≤ Config.maxLength)
    && decide (w.lead.toNat ≤ Config.maxGap) && decide (w.trail.toNat ≤ Config.maxGap)
    && decide (w.article.toNat ≤ 63)

/-- The description a wire description holds, or none where it cannot be one (R26). A description of kind STRAY is
treated as reject STRAY (R25). An owner byte above 15 names no station (DEDUCED, log 15). -/
def readDesc (lines : Lanes) (w : WireDesc) : Option Desc :=
  match kindOf w.kind, rejectOf w.reject, rankOf w.rank with
  | some k, some j, some r =>
    if descInRange lines w then
      some { tag := w.tag, kind := k, lanes := w.lanes, article := w.article.toNat, lot := w.lot.toNat
             length := w.length.toNat, lead := w.lead.toNat, trail := w.trail.toNat
             reject := if k = .stray then .stray else j, rank := r }
    else none
  | _, _, _ => none

/-- The description of a received BID: its owner is the sender and it is no stray (R26). -/
def readBid (lines : Lanes) (sender : Nat) (w : WireDesc) : Option Desc :=
  match readDesc lines w with
  | some d => if d.tag.owner.toNat = sender ∧ d.kind ≠ .stray then some d else none
  | none => none

/-- The description of a received SIGHTING STRAY: its kind is STRAY (R26). -/
def readStray (lines : Lanes) (w : WireDesc) : Option Desc :=
  match readDesc lines w with
  | some d => if d.kind = .stray then some d else none
  | none => none

/-- The role a byte names (section 11.2). -/
def roleOf (b : Byte) : Option Role :=
  match b.toNat with
  | 1 => some .feed
  | 2 => some .throat
  | 3 => some .outfeed
  | _ => none

/-- What a HAIL carries (R164). A role that is named by no value is absent (R168). -/
def readHail (h : HailPayload) : Hailed :=
  { role := roleOf h.role, lanes := h.lanes, eye := h.eye.toInt, cpm := h.cpm.toNat
    lineLanes := h.lineLanes.toNat, lotBreak := h.lotBreak.toNat, strayGap := h.strayGap.toNat
    settle := h.settle.toNat }

/-! ## Configuration sections (R180, section 11.4) -/

/-- The section a STATION write stores, every field limited to its range (R180). -/
def stationOf (w : StationWrite) : StationSection :=
  { number := clampNat 1 15 w.number.toNat
    role := (roleOf w.role).getD .feed
    lanes := w.lanes.setWidth 4
    eye := clampInt (-20000) 60000 w.eye.toInt
    landing := clampNat 0 2000 w.landing.toNat
    actuator := clampNat 0 500 w.actuator.toNat
    dead := clampNat 0 50 w.dead.toNat
    pulse := clampNat 20 500 w.pulse.toNat
    filter := clampNat 5 50 w.filter.toNat
    tolerance := clampNat 10 500 w.tolerance.toNat
    reverse := clampNat 20 2000 w.reverse.toNat
    sample := clampNat 50 500 w.sample.toNat
    curtain := clampNat 300 4000 w.curtain.toNat
    streams := w.streams
    mode := if w.mode = 1 then .overwrite else .blocking
    watermark := clampNat 1 32 w.watermark.toNat }

/-- Every field of a STATION write is in range, so that nothing is clamped (R180). -/
def stationExact (w : StationWrite) : Bool :=
  let t := stationOf w
  t.number == w.number.toNat && (roleOf w.role).isSome && t.eye == w.eye.toInt && t.landing == w.landing.toNat
    && t.actuator == w.actuator.toNat && t.dead == w.dead.toNat && t.pulse == w.pulse.toNat
    && t.filter == w.filter.toNat && t.tolerance == w.tolerance.toNat && t.reverse == w.reverse.toNat
    && t.sample == w.sample.toNat && t.curtain == w.curtain.toNat && decide (w.mode.toNat ≤ 1)
    && t.watermark == w.watermark.toNat

/-- The section a LINE write stores (R180). -/
def lineOf (w : LineWrite) : LineSection :=
  { cpm := clampNat 500 4000 w.cpm.toNat
    lanes := clampNat 1 4 w.lanes.toNat
    lotBreak := clampNat 0 5000 w.lotBreak.toNat
    strayGap := clampNat 0 3000 w.strayGap.toNat
    settle := clampNat 5 50 w.settle.toNat
    horizon := clampNat 2000 60000 w.horizon.toNat
    join := clampNat 2000 60000 w.join.toNat
    jam := clampNat 100 3000 w.jam.toNat
    stack := clampNat 200 3000 w.stack.toNat
    limit := clampNat 1 15 w.limit.toNat }

/-- Every field of a LINE write is in range (R180). -/
def lineExact (w : LineWrite) : Bool :=
  let t := lineOf w
  t.cpm == w.cpm.toNat && t.lanes == w.lanes.toNat && t.lotBreak == w.lotBreak.toNat
    && t.strayGap == w.strayGap.toNat && t.settle == w.settle.toNat && t.horizon == w.horizon.toNat
    && t.join == w.join.toNat && t.jam == w.jam.toNat && t.stack == w.stack.toNat && t.limit == w.limit.toNat

/-- The entry an ARTICLE write stores (R18, section 2.1). -/
def articleOf (w : ArticleWrite) : Article :=
  { enabled := w.flags.getLsbD 0
    fullWidth := w.flags.getLsbD 1
    length := clampNat 150 4500 w.length.toNat
    width := clampNat 100 4000 w.width.toNat
    tolerance := clampNat 0 300 w.tolerance.toNat
    feedGap := clampNat 0 2000 w.feedGap.toNat
    foldGap := clampNat 0 3000 w.foldGap.toNat
    shrink := clampNat 0 80 w.shrink.toNat
    stack := clampNat 1 60 w.stack.toNat
    program := clampNat 0 15 w.program.toNat }

/-- Every numeric field of an ARTICLE write is in range (R18). -/
def articleExact (w : ArticleWrite) : Bool :=
  let t := articleOf w
  t.length == w.length.toNat && t.width == w.width.toNat && t.tolerance == w.tolerance.toNat
    && t.feedGap == w.feedGap.toNat && t.foldGap == w.foldGap.toNat && t.shrink == w.shrink.toNat
    && t.stack == w.stack.toNat && t.program == w.program.toNat

/-! ## The article table (R17, R19) -/

/-- The station's own entry for an article number, when there is one and it is enabled (R19). -/
def Store.enabled (st : Store) (n : Nat) : Option Article :=
  if n = 0 then none else
    match st.articles[n - 1]? with
    | some a => if a.enabled then some a else none
    | none => none

/-- The shrink looked up for an article (R19). -/
def Store.shrink (st : Store) (n : Nat) : Nat := match st.enabled n with | some a => a.shrink | none => 0

/-- The stack size looked up for an article (R19). -/
def Store.stackSize (st : Store) (n : Nat) : Nat := match st.enabled n with | some a => a.stack | none => 60

/-- The fold program looked up for an article (R19). -/
def Store.foldProgram (st : Store) (n : Nat) : Nat := match st.enabled n with | some a => a.program | none => 0

/-! ## The figures of START -/

/-- The station lane set formed at START (R21). -/
def startLanes (st : StationSection) (ln : LineSection) : Lanes :=
  if st.role = .throat then lanesUpTo ln.lanes
  else if st.lanes &&& lanesUpTo ln.lanes = 0 then 1 else st.lanes &&& lanesUpTo ln.lanes

/-- The figures START takes from the store as it stands (R12, R13, R21, R181). -/
def Store.figures (s : Store) : Figures :=
  let st := s.station
  let ln := s.line
  let c := mmToCounts ln.cpm
  { station := st, line := ln, lanes := startLanes st ln
    eye := if st.role = .throat then 0 else c st.eye
    landing := c st.landing, filter := c st.filter, tolerance := c st.tolerance, reverse := c st.reverse
    sample := c st.sample, lotBreak := (c ln.lotBreak).toNat, strayGap := (c ln.strayGap).toNat
    horizon := c ln.horizon, join := c ln.join, jam := c ln.jam, unbound := c Config.unboundJamMm
    stack := (c ln.stack).toNat }

/-- The eye distance in millimetres that the own HAIL carries: 0 at a THROAT station (R164). -/
def Figures.eyeMm (f : Figures) : Int := if f.station.role = .throat then 0 else f.station.eye

/-- The stream lane sets formed at START (R133): reduced to the station lane set, no lane in two streams, and
stream 1 takes the whole set where every stream would be unused. Only an OUTFEED station has streams. -/
def streamLanes (f : Figures) : Quad Lanes :=
  if f.station.role ≠ .outfeed then Quad.fill 0
  else
    let w := f.station.streams
    let a := w.one &&& f.lanes
    let b := (w.two &&& f.lanes) &&& ~~~a
    let c := (w.three &&& f.lanes) &&& ~~~(a ||| b)
    let d := (w.four &&& f.lanes) &&& ~~~(a ||| b ||| c)
    if (a ||| b ||| c ||| d) = 0 then { one := f.lanes, two := 0, three := 0, four := 0 }
    else { one := a, two := b, three := c, four := d }

end Sys2Proof.Machine
end

