-- ==== Sys2Proof/Machine/Geometry.lean ====
section
/-! DEFINITION. The arithmetic of the track list: lengths and trailing counts (R34), the gap function (R28), the
conflict relation (R29), the expected length (R30), list order (R33), precedence (R87), and the window search
(R82 to R84). -/

namespace Sys2Proof.Machine

/-! ## Lengths (R34, R30) -/

/-- The length of a record used for gaps: the travel since its first leading count for an open stray, else the
measured length, else the nominal length (R34). The travel is reckoned at advances, so from the high-water
count `hw` (log 30). -/
def Record.gapLength (hw : Count) (r : Record) : Nat :=
  match r.openFrom with
  | some f => (clampInt 1 Config.maxLength (signedDiff hw f)).toNat
  | none => r.measured.getD r.desc.length

/-- The trailing throat count of a record (R34). -/
def Record.tt (hw : Count) (r : Record) : Count := plus r.tl (r.gapLength hw)

/-- The expected length of a record at this station (R30). -/
def State.expectedLength (s : State) (d : Desc) : Nat :=
  if 0 ≤ s.run.eye then d.length else d.length * (1000 - s.store.shrink d.article) / 1000

/-- The predicted arrival of a record at this station's eye: TL minus E (R11). -/
def State.arrival (s : State) (r : Record) : Count := plus r.tl (-s.run.eye)

/-- The end of the match span of a record: its predicted arrival plus the match tolerance (R37, R69). -/
def State.arrivalEnd (s : State) (r : Record) : Count := plus (s.arrival r) s.run.tolerance

/-! ## Gaps and conflict (R28, R29) -/

/-- The required gap G between a record ahead and a record behind (R28). -/
def gap (f : Figures) (ahead behind : Desc) : Nat :=
  if share ahead.lanes behind.lanes then
    match ahead.kind, behind.kind with
    | .spacer, _ => 0
    | _, .spacer => 0
    | .piece, .piece => max ahead.trail behind.lead + (if ahead.lot = behind.lot then 0 else f.lotBreak)
    | .piece, .stray => max ahead.trail f.strayGap
    | .stray, .piece => max f.strayGap behind.lead
    | .stray, .stray => f.strayGap
  else 0

/-- A described object at a span of throat counts, from `tl` up to but not including `tt`. -/
structure Span where
  desc : Desc
  tl : Count
  tt : Count
  deriving DecidableEq, Repr

/-- `y` stands far enough behind `x`: its TL is at least the TT of `x` plus the required gap (R29). -/
def Span.behind (f : Figures) (x y : Span) : Bool := atLeast y.tl (plus x.tt (gap f x.desc y.desc))

/-- The conflict relation: the two share a lane and neither stands far enough behind the other (R29). -/
def conflict (f : Figures) (x y : Span) : Bool :=
  share x.desc.lanes y.desc.lanes && !x.behind f y && !y.behind f x

/-- The span of a record. -/
def Record.span (hw : Count) (r : Record) : Span := { desc := r.desc, tl := r.tl, tt := r.tt hw }

/-- The span a bid claims: its window and its nominal length (R77, log 29). -/
def OwnBid.span (o : OwnBid) : Span := { desc := o.desc, tl := o.window, tt := plus o.window o.desc.length }

/-! ## List order (R33) -/

/-- A tag orders before another: by owner station number, then by sequence (R33). -/
def tagBefore (a b : Tag) : Bool := a.owner.ult b.owner || (a.owner == b.owner && a.seq.ult b.seq)

/-- A record stands before another in list order (R33). Of two that lie -2^31 apart neither does, and the one that is placed
later stands behind (R3; DESIGN CHOICE, log 49). -/
def Record.before (a b : Record) : Bool :=
  later b.tl a.tl || (a.tl == b.tl && tagBefore a.desc.tag b.desc.tag)

/-- A record placed in list order (R33). -/
def insertRecord (r : Record) : List Record → List Record
  | [] => [r]
  | x :: xs => if r.before x then r :: x :: xs else x :: insertRecord r xs

/-- The list without the record of a tag. -/
def eraseTag (t : Tag) (l : List Record) : List Record := l.filter (fun r => r.desc.tag != t)

/-- A record changed: taken out and placed where its TL now puts it (R33). -/
def replaceRecord (r : Record) (l : List Record) : List Record := insertRecord r (eraseTag r.desc.tag l)

/-! ## Precedence (R87) -/

/-- Ranks from the lowest: DEFERRED, NORMAL, OVERDUE (R87). -/
def Rank.level (r : Rank) : Nat :=
  match r with
  | .deferred => 0
  | .normal => 1
  | .overdue => 2

/-- Bid `x` has strictly higher precedence than bid `y` (R87). -/
def precedes (xr : Rank) (xOwner : Nat) (yr : Rank) (yOwner : Nat) : Bool :=
  decide (yr.level < xr.level) || (xr.level == yr.level && decide (xOwner < yOwner))

/-! ## The window search (R83, R84) -/

/-- One scan of the list in list order: where the trial TL is moved by the first record `p` conflicts with, or none
when the scan reaches the end (R83). -/
def scanMove (f : Figures) (hw : Count) (p : Desc) (trial : Count) : List Record → Option Count
  | [] => none
  | r :: rs =>
    if conflict f (r.span hw) { desc := p, tl := trial, tt := plus trial p.length } then
      some (plus (r.tt hw) (gap f r.desc p))
    else scanMove f hw p trial rs

/-- The scans of a search: `fuel` of them are left. A scan without a move ends the search with the window; a move
beyond the horizon, or a move by the last scan, ends it with none (R83, R84). -/
def searchFrom (f : Figures) (hw : Count) (p : Desc) (rs : List Record) (tl0 : Count) : Nat → Count → Option Count
  | 0, _ => none
  | fuel + 1, trial =>
    match scanMove f hw p trial rs with
    | none => some trial
    | some t => if f.horizon < signedDiff t tl0 then none else searchFrom f hw p rs tl0 fuel t

/-- The window search from TL0 (R83). -/
def windowSearch (f : Figures) (hw : Count) (p : Desc) (rs : List Record) (tl0 : Count) : Option Count :=
  searchFrom f hw p rs tl0 Config.maxScans tl0

end Sys2Proof.Machine
end

