-- ==== Sys2Proof/Machine/Layout.lean ====
section
/-! DEFINITION. The bytes a peer sees (chapter 8 and section 11.2): codings, the CRC, the frame a message is sent
in, the fields that received bytes are read into, and the judgement of a received frame. -/

namespace Sys2Proof.Machine

/-! ## Codings (R193) -/

/-- A number in `k` bytes, most significant byte first (R193). -/
def be : Nat → Nat → List Byte
  | 0, _ => []
  | k + 1, n => BitVec.ofNat 8 (n / 256 ^ k) :: be k n

/-- A signed value in `k` bytes, two's complement (R193). -/
def beSigned (k : Nat) (n : Int) : List Byte := be k (n % (256 ^ k : Int)).toNat

/-- The byte at an offset of a run of bytes; a byte that is not there reads 0. -/
def byteAt (l : List Byte) (i : Nat) : Byte := l.getD i 0

/-- The two bytes from an offset, most significant first (R193). -/
def twoAt (l : List Byte) (i : Nat) : BitVec 16 := byteAt l i ++ byteAt l (i + 1)

/-- The three bytes from an offset, most significant first (R193). -/
def threeAt (l : List Byte) (i : Nat) : BitVec 24 := byteAt l i ++ twoAt l (i + 1)

/-- The high four bits of the byte at an offset. -/
def highAt (l : List Byte) (i : Nat) : BitVec 4 := (byteAt l i).extractLsb' 4 4

/-- The low four bits of the byte at an offset. -/
def lowAt (l : List Byte) (i : Nat) : BitVec 4 := (byteAt l i).extractLsb' 0 4

/-- The coding of a kind (section 11.2). -/
def Kind.code (k : Kind) : BitVec 4 :=
  match k with
  | .piece => 1
  | .spacer => 2
  | .stray => 3

/-- The coding of a reject (section 11.2). -/
def rejectCode (r : Reject) : Nat :=
  match r with
  | .none => 0
  | .narrow => 1
  | .wide => 2
  | .double => 3
  | .stray => 4

/-- The coding of a rank (section 11.2). -/
def Rank.code (r : Rank) : BitVec 4 :=
  match r with
  | .overdue => 1
  | .normal => 2
  | .deferred => 3

/-- The coding of a role (section 11.2). -/
def Role.code (r : Role) : Nat :=
  match r with
  | .feed => 1
  | .throat => 2
  | .outfeed => 3

/-- The kind value of a message in the header nibble (section 11.2). -/
def kindValue (k : MsgKind) : Nat :=
  match k with
  | .recall => 1
  | .void => 2
  | .jam => 3
  | .jamRelease => 4
  | .purge => 5
  | .bid => 6
  | .sightingSeen => 7
  | .sightingMissed => 8
  | .sightingStray => 9
  | .hail => 10

/-- The kind a header nibble names (section 11.2). -/
def kindNamed (n : Nat) : Option MsgKind :=
  match n with
  | 1 => some .recall
  | 2 => some .void
  | 3 => some .jam
  | 4 => some .jamRelease
  | 5 => some .purge
  | 6 => some .bid
  | 7 => some .sightingSeen
  | 8 => some .sightingMissed
  | 9 => some .sightingStray
  | 10 => some .hail
  | _ => none

/-- The payload length of a kind (R147). -/
def payloadLength (k : MsgKind) : Nat :=
  match k with
  | .recall | .void => 2
  | .jam | .jamRelease | .purge => 0
  | .bid | .sightingMissed | .sightingStray => 16
  | .sightingSeen => 18
  | .hail => 13

/-- The class of a kind (R147). -/
def kindClass (k : MsgKind) : Nat :=
  match k with
  | .recall | .void | .jam | .jamRelease | .purge => 0
  | .bid => 1
  | .sightingSeen | .sightingMissed | .sightingStray => 2
  | .hail => 3

/-! ## Descriptions as bytes (section 11.2) -/

/-- The wire form of a description. -/
def Desc.wire (d : Desc) : WireDesc :=
  { tag := d.tag, kind := d.kind.code, lanes := d.lanes, article := BitVec.ofNat 8 d.article
    lot := BitVec.ofNat 16 d.lot, length := BitVec.ofNat 16 d.length, lead := BitVec.ofNat 16 d.lead
    trail := BitVec.ofNat 16 d.trail, reject := BitVec.ofNat 4 (rejectCode d.reject), rank := d.rank.code }

/-- The 13 bytes of a wire description (section 11.2). -/
def descBytes (w : WireDesc) : List Byte :=
  [w.tag.owner, w.tag.seq, w.kind ++ w.lanes, w.article] ++ be 2 w.lot.toNat ++ be 2 w.length.toNat
    ++ be 2 w.lead.toNat ++ be 2 w.trail.toNat ++ [w.reject ++ w.rank]

/-- The tag at the head of a payload (section 11.2). -/
def tagAt (l : List Byte) : Tag := { owner := byteAt l 0, seq := byteAt l 1 }

/-- The wire description at the head of a payload (section 11.2). -/
def descAt (l : List Byte) : WireDesc :=
  { tag := tagAt l, kind := highAt l 2, lanes := lowAt l 2, article := byteAt l 3, lot := twoAt l 4
    length := twoAt l 6, lead := twoAt l 8, trail := twoAt l 10, reject := highAt l 12, rank := lowAt l 12 }

/-- The description and the throat distance that a BID or a SIGHTING carries (section 11.2). -/
def placedAt (l : List Byte) : Placed := { desc := descAt l, distance := threeAt l 13 }

/-- The measured length that a SIGHTING SEEN carries (section 11.2). -/
def measuredAt (l : List Byte) : Nat := (twoAt l 16).toNat

/-- The figures of a HAIL as its 13 payload bytes (section 11.2); an absent role is sent as zero (R193). -/
def hailBytes (h : Hailed) : List Byte :=
  [BitVec.ofNat 8 (match h.role with | some r => r.code | none => 0), h.lanes.setWidth 8] ++ beSigned 3 h.eye
    ++ be 2 h.cpm ++ [BitVec.ofNat 8 h.lineLanes] ++ be 2 h.lotBreak ++ be 2 h.strayGap ++ [BitVec.ofNat 8 h.settle]

/-- The figures that the payload of a HAIL holds (section 11.2). -/
def hailAt (l : List Byte) : HailPayload :=
  { role := byteAt l 0, lanes := lowAt l 1, eye := threeAt l 2, cpm := twoAt l 5, lineLanes := byteAt l 7
    lotBreak := twoAt l 8, strayGap := twoAt l 10, settle := byteAt l 12 }

/-- The station's own HAIL: its figures as they stood at START (R164). -/
def Figures.hailed (f : Figures) : Hailed :=
  { role := some f.station.role, lanes := f.lanes, eye := f.eyeMm, cpm := f.line.cpm, lineLanes := f.line.lanes
    lotBreak := f.line.lotBreak, strayGap := f.line.strayGap, settle := f.line.settle }

/-! ## Configuration sections as bytes (section 11.4) -/

/-- The STATION section that data bytes hold (section 11.4). -/
def stationAt (l : List Byte) : StationWrite :=
  { number := byteAt l 0, role := byteAt l 1, lanes := byteAt l 2, eye := threeAt l 3, landing := twoAt l 6
    actuator := twoAt l 8, dead := byteAt l 10, pulse := twoAt l 11, filter := byteAt l 13
    tolerance := twoAt l 14, reverse := twoAt l 16, sample := twoAt l 18, curtain := twoAt l 20
    streams := { one := highAt l 22, two := lowAt l 22, three := highAt l 23, four := lowAt l 23 }
    mode := byteAt l 24, watermark := byteAt l 25 }

/-- The LINE section that data bytes hold (section 11.4). -/
def lineAt (l : List Byte) : LineWrite :=
  { cpm := twoAt l 0, lanes := byteAt l 2, lotBreak := twoAt l 3, strayGap := twoAt l 5, settle := byteAt l 7
    horizon := twoAt l 8, join := twoAt l 10, jam := twoAt l 12, stack := twoAt l 14, limit := byteAt l 16 }

/-- The ARTICLE section that data bytes hold (section 11.4). -/
def articleAt (l : List Byte) : ArticleWrite :=
  { flags := byteAt l 0, length := twoAt l 1, width := twoAt l 3, tolerance := twoAt l 5, feedGap := twoAt l 7
    foldGap := twoAt l 9, shrink := byteAt l 11, stack := byteAt l 12, program := byteAt l 13 }

/-! ## Messages and frames -/

/-- The kind of a message. -/
def Msg.kind (m : Msg) : MsgKind :=
  match m with
  | .recall _ => .recall
  | .void _ => .void
  | .jam => .jam
  | .jamRelease => .jamRelease
  | .purge => .purge
  | .bid _ _ => .bid
  | .seen _ _ _ => .sightingSeen
  | .missed _ _ => .sightingMissed
  | .stray _ _ => .sightingStray
  | .hail => .hail

/-- The description a message carries (R147). -/
def Msg.desc? (m : Msg) : Option Desc :=
  match m with
  | .bid d _ | .seen d _ _ | .missed d _ | .stray d _ => some d
  | _ => none

/-- The tag a message is about, when it has one (R147). -/
def Msg.tag? (m : Msg) : Option Tag :=
  match m with
  | .recall t | .void t => some t
  | m => m.desc?.map Desc.tag

/-- The throat distance written at the start of an attempt: the held throat count minus the line count, limited
(R153). -/
def throatDistance (tl count : Count) : Int := clampInt (-Config.maxDistance) Config.maxDistance (signedDiff tl count)

/-- The payload of a message, as an attempt begun at `count` writes it (R147, R153). -/
def Msg.payload (f : Figures) (count : Count) (m : Msg) : List Byte :=
  match m with
  | .recall t | .void t => [t.owner, t.seq]
  | .jam | .jamRelease | .purge => []
  | .bid d tl | .missed d tl | .stray d tl => descBytes d.wire ++ beSigned 3 (throatDistance tl count)
  | .seen d tl n => descBytes d.wire ++ beSigned 3 (throatDistance tl count) ++ be 2 n
  | .hail => hailBytes f.hailed

/-- One bit taken into the CRC register (R146). -/
def crcBit (reg : BitVec 16) (b : Bool) : BitVec 16 :=
  if b = reg.msb then reg <<< 1 else (reg <<< 1) ^^^ 0x1021

/-- One byte taken into the CRC register, most significant bit first (R146). -/
def crcByte (reg : BitVec 16) (b : Byte) : BitVec 16 :=
  [7, 6, 5, 4, 3, 2, 1, 0].foldl (fun r i => crcBit r (b.getLsbD i)) reg

/-- The check value of bytes (R146). -/
def crc (l : List Byte) : BitVec 16 := l.foldl crcByte 0xFFFF

/-- The sync byte (R145). -/
def syncByte : Byte := 0xB6

/-- The frame of a kind, a sender and a payload: sync, header, length, payload, CRC (R145, R146). -/
def frameOf (k : MsgKind) (sender : Nat) (payload : List Byte) : List Byte :=
  let body := BitVec.ofNat 8 (16 * kindValue k + sender) :: BitVec.ofNat 8 payload.length :: payload
  syncByte :: body ++ be 2 (crc body).toNat

/-! ## Judging a received frame (R149) -/

/-- The three kinds of error a receiver finds (R149). -/
inductive FrameFault where
  | framing | length | crc
  deriving DecidableEq, Repr

/-- An error found: its kind, after how many bytes of the frame, and whether the frame broke off there (R149). -/
structure FoundFault where
  fault : FrameFault
  bytes : Nat
  broken : Bool
  deriving DecidableEq, Repr

/-- How many of the bytes come up to and with the first low stop bit. -/
def firstLowStop : List (Byte × Bool) → Option Nat
  | [] => none
  | (_, false) :: _ => some 1
  | (_, true) :: rest => (firstLowStop rest).map (· + 1)

/-- The judgement of the payload and the CRC of a frame whose header and length bytes are sound (R149). -/
def judgeBody (header len : Byte) (rest : List (Byte × Bool)) : Option FoundFault :=
  let need := len.toNat + 2
  match firstLowStop (rest.take need) with
  | some i => some { fault := .framing, bytes := 3 + i, broken := false }
  | none =>
    if rest.length < need then some { fault := .framing, bytes := 3 + rest.length, broken := true }
    else
      let body := header :: len :: (rest.take len.toNat).map Prod.fst
      if ((rest.take need).drop len.toNat).map Prod.fst = be 2 (crc body).toNat then none
      else some { fault := .crc, bytes := 3 + need, broken := false }

/-- The judgement of a frame by its receiver: the error it finds first, or none (R149). -/
def judge (bytes : List (Byte × Bool)) : Option FoundFault :=
  match bytes with
  | [] => none
  | (sync, stop1) :: l1 =>
    if sync ≠ syncByte ∨ stop1 = false then some { fault := .framing, bytes := 1, broken := false }
    else
      match l1 with
      | [] => some { fault := .framing, bytes := 1, broken := true }
      | (header, stop2) :: l2 =>
        if stop2 = false then some { fault := .framing, bytes := 2, broken := false }
        else
          match kindNamed (header.toNat / 16) with
          | none => some { fault := .length, bytes := 2, broken := false }
          | some k =>
            if header.toNat % 16 = 0 then some { fault := .length, bytes := 2, broken := false }
            else
              match l2 with
              | [] => some { fault := .framing, bytes := 2, broken := true }
              | (len, stop3) :: l3 =>
                if stop3 = false then some { fault := .framing, bytes := 3, broken := false }
                else if len.toNat ≠ payloadLength k then some { fault := .length, bytes := 3, broken := false }
                else judgeBody header len l3

/-- When an error is found: at the byte that shows it, or 4 µs after it where the frame broke off (R145, R149). -/
def foundTime (start : Nat) (f : FoundFault) : Nat :=
  start + Config.byteTime * f.bytes + (if f.broken then Config.breakTime else 0)

/-- How many bytes the frame has by its length byte, where the run holds them all (R145). The length byte counts whatever
the other bytes are (DEDUCED, log 25). -/
def fullLength : List (Byte × Bool) → Option Nat
  | _ :: _ :: (len, _) :: rest => if len.toNat + 2 ≤ rest.length then some (len.toNat + 5) else none
  | _ => none

/-- When the frame ends: at the end of its second CRC byte, or 4 µs after its last byte where it broke off (R145,
log 25). -/
def frameEnd (r : Run) : Nat :=
  match fullLength r.bytes with
  | some n => r.start + Config.byteTime * n
  | none => r.start + Config.byteTime * r.bytes.length + Config.breakTime

end Sys2Proof.Machine
end

