-- ==== Sys2Proof/Machine/Outbox.lean ====
section
/-! DEFINITION. The operations in which several blocks meet: the outbox (R154 to R157), the end and the recall of
the own bid (R91, R95), the hold set (R79, R81), and every change of the track list with what its neighbours do
with it (R48 to R53, R72, R89, R98, R120, R140). -/

namespace Sys2Proof.Machine

/-! ## The outbox (R154, R155) -/

/-- The class of a message (R147). -/
def Msg.cls (m : Msg) : Nat := kindClass m.kind

/-- The message is one of the three SIGHTINGs. -/
def Msg.isSighting (m : Msg) : Bool := m.cls == 2

/-- How many held messages belong to classes 1 to 3 (R154). -/
def sharedCount (l : List Entry) : Nat := (l.filter (fun e => e.msg.cls != 0)).length

/-- An entry is free that a message of classes 1 to 3 may take (R154). -/
def sharedRoom (l : List Entry) : Bool :=
  decide (sharedCount l < Config.outboxShared) && decide (l.length < Config.outboxCapacity)

/-- The free entry that a BID waiting outside takes before any later message (R155): 1 or 0. -/
def LinkController.reserved (k : LinkController) : Nat :=
  if k.waitingBid.isSome && sharedRoom k.outbox then 1 else 0

/-- A fresh WAITING entry. -/
def Entry.fresh (m : Msg) : Entry := { msg := m, sending := false, cancelling := false, attempts := 0 }

/-- The youngest entry that meets `p`, when there is one. -/
def youngest (p : Entry → Bool) (l : List Entry) : Option Entry := l.reverse.find? p

/-- The outbox without the youngest entry that meets `p`. -/
def dropYoungest (p : Entry → Bool) (l : List Entry) : List Entry := (l.reverse.eraseP p).reverse

/-- A WAITING HAIL. -/
def Entry.waitingHail (e : Entry) : Bool := !e.sending && e.msg.kind == .hail

/-- A WAITING SIGHTING. -/
def Entry.waitingSighting (e : Entry) : Bool := !e.sending && e.msg.isSighting

/-- The outbox with another list of entries. -/
def State.setOutbox (s : State) (l : List Entry) : State := s.setLink { s.link with outbox := l }

/-- The SENDING entry (R154). -/
def State.sending (s : State) : Option Entry := s.link.outbox.find? (fun e => e.sending)

/-- MSG_DROPPED for a message, with value A its kind and its tag, article and lot (R152). Under the codes DISPLACED and FULL
R155 gives the code, and B 0 for a SIGHTING; the other fields are carried over from R152 (DEDUCED, log 13). -/
def dropEvent (m : Msg) (code : Nat) (b : Option Int) : Event :=
  { kind := .msgDropped, tag := m.tag?, article := m.desc?.map Desc.article, lot := m.desc?.map Desc.lot
    a := some (kindValue m.kind), b := b, code := some code }

/-! ## The clamp position served, and the end of the own bid (R95, R107, R109) -/

/-- A clamp position with another content. -/
def State.setPosition (s : State) (i : Fin 4) (p : Position) : State :=
  s.setFeed { s.feed with positions := s.feed.positions.set i p }

/-- A position is emptied by UNLOAD: UNLOADED is raised with the article and lot it held, its number, and the tag of
the bid that served it (R108). -/
def unloadPosition (i : Fin 4) (tag : Option Tag) (s : State) : State :=
  let p := s.feed.positions.get i
  raise { kind := .unloaded, tag := tag, article := some p.article, lot := some p.lot, a := some (i.val + 1) }
    (s.setPosition i .none)

/-- A position returns from BIDDING to LOADED, and the instant is noted for an UNLOAD taken behind it (R107, R110;
DESIGN CHOICE, log 46). -/
def returnPosition (i : Fin 4) (s : State) : State :=
  s.setFeed { s.feed with
    positions := s.feed.positions.set i { s.feed.positions.get i with state := .loaded }
    returned := some (i, s.now) }

/-- The position an ended bid served returns to LOADED, or is emptied when its unloading mark is set (R107, R109). -/
def releasePosition (o : OwnBid) (s : State) : State :=
  let p := s.feed.positions.get o.serves
  if p.state = .bidding then
    if p.unloading then unloadPosition o.serves (some o.desc.tag) s
    else returnPosition o.serves s
  else s

/-- The own bid becomes NONE; the rival list empties and the position served is released (R77, R89, R95). -/
def endOwn (s : State) : State :=
  match s.bid.own with
  | none => s
  | some o => releasePosition o (s.setBid { s.bid with own := none, rivals := [] })

/-- The outcome DROPPED handed to the source of a SIGHTING SEEN: CONFIRMED with code UNSENT when its tag is the
fired tag (R98, R157), after the MSG_DROPPED of the link controller (R191; DESIGN CHOICE, log 8). -/
def handDropped (m : Msg) (s : State) : State :=
  match m with
  | .seen d _ _ => if s.ownIs .fired d.tag then raise { kind := .confirmed, code := some 15 } (endOwn s) else s
  | _ => s

/-- A message of class 0 handed to the outbox (R155). MSG_DROPPED, of the link controller, enters the FIFO before CONFIRMED,
of the bid engine, and before the event of the bid that queued the message (R191; DESIGN CHOICE, log 8). -/
def enqueueFirst (m : Msg) (s : State) : State :=
  let l := s.link.outbox
  if l.length + s.link.reserved < Config.outboxCapacity then s.setOutbox (l ++ [.fresh m])
  else if l.any Entry.waitingHail then s.setOutbox (dropYoungest Entry.waitingHail l ++ [.fresh m])
  else
    match youngest Entry.waitingSighting l with
    | some e =>
      handDropped e.msg (raise (dropEvent e.msg 2 none)
        (s.setOutbox (dropYoungest Entry.waitingSighting l ++ [.fresh m])))
    | none => raise (dropEvent m 3 none) s

/-- A class-0 message would take an entry (R155, R187). -/
def State.takesFirst (s : State) : Bool :=
  decide (s.link.outbox.length + s.link.reserved < Config.outboxCapacity)
    || s.link.outbox.any Entry.waitingHail || s.link.outbox.any Entry.waitingSighting

/-- An entry is free for a SIGHTING or a HAIL, beside the one a waiting BID takes (R155). -/
def State.roomLater (s : State) : Bool :=
  decide (sharedCount s.link.outbox + s.link.reserved < Config.outboxShared)
    && decide (s.link.outbox.length + s.link.reserved < Config.outboxCapacity)

/-- A message handed to the outbox (R155). -/
def enqueue (m : Msg) (s : State) : State :=
  match m.kind with
  | .bid =>
    if sharedRoom s.link.outbox then s.setOutbox (s.link.outbox ++ [.fresh m])
    else s.setLink { s.link with waitingBid := some m }
  | .sightingSeen | .sightingMissed | .sightingStray =>
    if s.roomLater then s.setOutbox (s.link.outbox ++ [.fresh m])
    else handDropped m (raise (dropEvent m 3 (some 0)) s)
  | .hail =>
    if s.roomLater && !(s.link.outbox.any (fun e => e.msg.kind == .hail)) then
      s.setOutbox (s.link.outbox ++ [.fresh m])
    else s
  | _ => enqueueFirst m s

/-! ## Changes of the track list and its neighbours (R53) -/

/-- The records of the track list replaced. -/
def State.setRecords (s : State) (l : List Record) : State := s.setTrack { s.track with records := l }

/-- The stream a record's lanes belong to: the lowest-numbered used stream that shares a lane (R133). -/
def OutfeedDirector.streamOf (o : OutfeedDirector) (lanes : Lanes) : Option (Fin 4) :=
  four.find? (fun i => share (o.streams.get i).lanes lanes)

/-- A stream with another content. -/
def State.setStream (s : State) (i : Fin 4) (x : Stream) : State :=
  s.setOutfeed { s.outfeed with streams := s.outfeed.streams.set i x }

/-- A stream is to be planned again (R139). -/
def planAgain (i : Fin 4) (s : State) : State :=
  s.setOutfeed { s.outfeed with planDue := s.outfeed.planDue ||| laneBit i }

/-- A change of a record on these lanes is handed on: the bid engine may retry its search (R84) and the stream
plans again (R139). -/
def noteChange (lanes : Lanes) (s : State) : State :=
  let t := s.setBid { s.bid with changed := true }
  match t.outfeed.streamOf lanes with
  | some i => planAgain i t
  | none => t

/-- The sighting in progress of a removed or replaced record is discarded, and its entry in the table of pieces
under the eye with it (R72, R137). -/
def discardSighting (tag : Tag) (s : State) : State :=
  (s.setEye { s.eye with sightings := s.eye.sightings.filter (fun g => g.tag != tag) }).setOutfeed
    { s.outfeed with underEye := s.outfeed.underEye.filter (fun e => e.tag != tag) }

/-- The sampler with no piece in hand: ARMED returns to IDLE, CONVERTING aborts, discards its sum and rests (R120). A
pending start stays (DESIGN CHOICE, log 37). -/
def WidthSampler.abandon (w : WidthSampler) (now : Nat) : WidthSampler :=
  match w.phase with
  | .armed => { w with phase := .idle, piece := none }
  | .converting => { w with phase := .resting, piece := none, sum := 0, due := now + Config.restTime }
  | _ => w

/-- The removal or replacement of a record handed to the width sampler (R120). -/
def widthForget (tag : Tag) (s : State) : State :=
  let w := s.width
  let w1 := if w.pending.any (fun p => p.tag == tag) then { w with pending := none } else w
  s.setWidth (if w.piece.any (fun p => p.tag == tag) then w1.abandon s.now else w1)

/-- A tag that leaves the track list leaves the rival list (R89). -/
def dropRival (tag : Tag) (s : State) : State :=
  s.setBid { s.bid with rivals := s.bid.rivals.filter (fun r => r.tag != tag) }

/-- A PLACED spacer whose record leaves the list returns its stream to NONE (R141). -/
def losePlaced (tag : Tag) (s : State) : State :=
  four.foldl (fun t i =>
    let x := t.outfeed.streams.get i
    if x.spacer = .placed tag then planAgain i (t.setStream i { x with spacer := .none }) else t) s

/-- A removal that leaves 56 or fewer records clears the TRACK_FULL cause (R52). -/
def relieveTrack (s : State) : State :=
  if s.track.records.length ≤ Config.trackRelief then s.setBid { s.bid with hold := { s.bid.hold with trackFull := false } }
  else s

/-- What a removal or a replacement under a tag does at the neighbours that keep the tag (R53). -/
def forgetTag (tag : Tag) (s : State) : State := dropRival tag (widthForget tag (discardSighting tag s))

/-- A record is removed, for whatever cause (R32, R52, R53). -/
def dropRecord (tag : Tag) (s : State) : State :=
  match s.record tag with
  | none => s
  | some r =>
    noteChange r.desc.lanes (losePlaced tag (forgetTag tag (relieveTrack (s.setRecords (eraseTag tag s.track.records)))))

/-- The bid engine removes its own record: the one under its tag whose own flag is set. A record that a SIGHTING STRAY
put in its place has the flag clear and stays until the RECALL is accepted (R36, R42, R48). -/
def dropOwnRecord (tag : Tag) (s : State) : State :=
  if (s.record tag).any (fun r => r.own) then dropRecord tag s else s

/-! ## Recall (R95) -/

/-- The own bid's BID is SENDING. -/
def State.bidSending (s : State) : Bool := s.link.outbox.any (fun e => e.sending && e.msg.kind == .bid)

/-- The BID leaves the outbox, or the wait outside it, at once (R156). -/
def cancelBid (s : State) : State :=
  s.setLink { s.link with waitingBid := none, outbox := s.link.outbox.filter (fun e => e.msg.kind != .bid) }

/-- A SENDING BID is marked cancelling, at the outbox and at the own bid (R95, R156). -/
def markCancelling (o : OwnBid) (s : State) : State :=
  let t := s.setOutbox (s.link.outbox.map (fun e => if e.msg.kind = .bid then { e with cancelling := true } else e))
  t.setBid { t.bid with own := some { o with cancelling := true } }

/-- The RECALLED event of an own bid (R95). -/
def recalledEvent (o : OwnBid) (code : Nat) (a : Option Int) : Event := descEvent .recalled o.desc (some code) a

/-- A recall for a cause with its code: a QUEUED bid is withdrawn through the outbox, a SETTLING or GRANTED bid is
recalled at once, a FIRED bid is not touched, and a cancelling bid is not withdrawn twice (R81, R95). -/
def recallOwn (code : Nat) (a : Option Int) (s : State) : State :=
  match s.bid.own with
  | none => s
  | some o =>
    match o.state with
    | .queued =>
      if o.cancelling then s
      else if s.link.waitingBid.isNone && s.bidSending then markCancelling o (raise (recalledEvent o code a) s)
      else endOwn (cancelBid (raise (recalledEvent o code a) s))
    | .settling | .granted =>
      raise (recalledEvent o code a) (endOwn (dropOwnRecord o.desc.tag (enqueue (.recall o.desc.tag) s)))
    | .fired => s

/-! ## The hold set (R79, R81) -/

/-- The hold set with a cause in it or out of it, and nothing else. -/
def putHold (c : HoldCause) (x : Bool) (s : State) : State :=
  s.setBid { s.bid with hold := s.bid.hold.put c x }

/-- A cause joins the hold set, and the own bid reacts to it (R81). -/
def holdJoin (c : HoldCause) (s : State) : State :=
  if s.bid.hold.has c then s else recallOwn c.code none (putHold c true s)

/-- A cause leaves the hold set (R79). Eligibility is taken up at the end of the step (log 9). -/
def holdLeave (c : HoldCause) (s : State) : State := putHold c false s

/-! ## Spacer requests withdrawn (R140) -/

/-- The stream's spacer state becomes NONE, its request leaves the queue, and it plans again (R140). -/
def dropRequest (i : Fin 4) (s : State) : State :=
  let t := planAgain i (s.setStream i { s.outfeed.streams.get i with spacer := .none })
  t.setOutfeed { t.outfeed with queue := t.outfeed.queue.filter (fun j => j != i) }

/-- The request the bid engine holds ends, with its wait or its bid (R96, R140). -/
def endRequest (i : Fin 4) (s : State) : State :=
  let t := s.setBid { s.bid with request := none, retry := none }
  if t.bid.own.any (fun o => o.serves == i && (o.state == .queued || o.state == .settling)) then recallOwn 11 none t
  else t

/-- The outfeed director withdraws the REQUESTED spacer of a stream (R96, R140). -/
def withdrawSpacer (i : Fin 4) (s : State) : State :=
  let t := dropRequest i s
  if t.bid.request.any (fun r => r.stream == i) then endRequest i t else t

/-- The end piece of a REQUESTED spacer is gone: every request that names it is withdrawn (R140). -/
def endPieceGone (tag : Tag) (s : State) : State :=
  four.foldl (fun t i => if (t.outfeed.streams.get i).spacer = .requested (some tag) then withdrawSpacer i t else t) s

/-- A record is removed by a message, a miss or retirement: the removal, and the spacer that named it (R140). -/
def removeRecord (tag : Tag) (s : State) : State := endPieceGone tag (dropRecord tag s)

/-- The fired record has left the list by retirement (code 1) or a second miss (code 2): UNCONFIRMED (R98). The record
under the fired tag is the fired record, also where a SIGHTING STRAY has replaced it under that tag (R42); R98 does not say
whether such a record is (DESIGN CHOICE, log 51). -/
def unconfirm (tag : Tag) (code : Nat) (s : State) : State :=
  if s.ownIs .fired tag then raise { kind := .unconfirmed, code := some code } (endOwn s) else s

/-! ## Bumping (R94) -/

/-- A record of the list conflicts, in SEEN or STRAY, with the claim of an own bid (R88, R94). -/
def bumps (s : State) (o : OwnBid) (r : Record) : Bool :=
  (r.state == .seen || r.state == .stray) && r.desc.tag != o.desc.tag
    && conflict s.run (r.span s.line.highWater) o.span

/-- A changed record is re-checked against a SETTLING or GRANTED own bid, and bumps it when they conflict (R94). -/
def recheck (tag : Tag) (s : State) : State :=
  match s.bid.own, s.record tag with
  | some o, some r =>
    if (o.state = .settling ∨ o.state = .granted) ∧ bumps s o r = true then
      recallOwn 7 (some r.desc.tag.owner.toNat) s
    else s
  | _, _ => s

/-- The record enters another state, or moves, or has another length used for gaps: what a SETTLING or GRANTED own bid
is re-checked against (R94). -/
def Record.moved (hw : Count) (old r : Record) : Bool :=
  r.tl != old.tl || r.state != old.state || r.gapLength hw != old.gapLength hw

/-- The change of a record that the list hands on: of its TL, its state, its reject or its length used for gaps (R53). -/
def Record.altered (hw : Count) (old r : Record) : Bool := old.moved hw r || r.desc.reject != old.desc.reject

/-- A held record `old` takes a new content and its place in the list (R33). What R53 calls a change is handed on. -/
def changeRecord (old r : Record) (s : State) : State :=
  let t := s.setRecords (replaceRecord r s.track.records)
  let u := if old.altered s.line.highWater r then noteChange r.desc.lanes t else t
  if old.moved s.line.highWater r then recheck r.desc.tag u else u

/-! ## Filing (R40 to R42, R51) -/

/-- The event TRACK_FULL of a dropped description (R51). -/
def trackFullEvent (d : Desc) (source : Nat) : Event := descEvent .trackFull d (some source) (some 64)

/-- A description is dropped at the full list: the TRACK_FULL cause joins once, with its event (R51), which enters the FIFO
before the RECALLED of the bid engine (R191; DESIGN CHOICE, log 8). -/
def overflow (d : Desc) (source : Nat) (s : State) : State :=
  if s.bid.hold.trackFull then s else holdJoin .trackFull (raise (trackFullEvent d source) s)

/-- A new record inserted in its place (R33, R53). -/
def insertNew (r : Record) (s : State) : State :=
  recheck r.desc.tag (noteChange r.desc.lanes (s.setRecords (insertRecord r s.track.records)))

/-- A record in the place of the held one of its tag: a replacement is a change, whatever it holds (R33, R53). -/
def putRecord (r : Record) (s : State) : State :=
  recheck r.desc.tag (noteChange r.desc.lanes (s.setRecords (replaceRecord r s.track.records)))

/-- A held record is replaced whole (R40, R42): its neighbours forget the old one (R72, R89, R120, R140). A stream whose
PLACED spacer has this tag keeps it, whatever the new record is (DESIGN CHOICE, log 43). -/
def replaceWhole (old r : Record) (s : State) : State :=
  putRecord r (endPieceGone old.desc.tag (forgetTag old.desc.tag (noteChange old.desc.lanes s)))

/-- A record is filed under its tag: it replaces the held one, or is inserted, or is dropped at the full list
(R32, R51). `source` is the code of TRACK_FULL. -/
def fileRecord (r : Record) (source : Nat) (s : State) : State :=
  match s.record r.desc.tag with
  | some old => replaceWhole old r s
  | none => if s.track.records.length < Config.trackCapacity then insertNew r s else overflow r.desc source s

end Sys2Proof.Machine
end

