-- ==== Sys2Proof/Machine/Settling.lean ====
section
/-! DEFINITION. What runs to its end within a step once its own work is done: the outfeed director plans (R139) and
hands on a request (R140), and an eligible bid engine searches for a window and queues its BID (R78, R82 to R86). -/

namespace Sys2Proof.Machine

/-! ## The chain of clamps (R105) -/

/-- A position is occupied (R105). -/
def Position.occupied (p : Position) : Bool := p.state != .empty

/-- The positions in chain order from the one after the last filled: the first occupied one holds the oldest piece. -/
def FeedSequencer.fromOldest (f : FeedSequencer) : List (Fin 4) :=
  [f.lastFilled + 1, f.lastFilled + 2, f.lastFilled + 3, f.lastFilled]

/-- The head: the oldest occupied position (R105). -/
def FeedSequencer.head (f : FeedSequencer) : Option (Fin 4) :=
  f.fromOldest.find? (fun i => (f.positions.get i).occupied)

/-- The newest occupied position (R105). -/
def FeedSequencer.newest (f : FeedSequencer) : Option (Fin 4) :=
  f.fromOldest.reverse.find? (fun i => (f.positions.get i).occupied)

/-! ## Tags (R27) -/

/-- The first sequence from `q` on whose tag the list does not hold; 65 tries always suffice (R27). -/
def freeSeq (owner : Byte) (rs : List Record) : Nat → Byte → Byte
  | 0, q => q
  | n + 1, q =>
    if rs.any (fun r => r.desc.tag == { owner := owner, seq := q }) then freeSeq owner rs n (q + 1) else q

/-- The tag the next allocation takes (R27). -/
def State.nextTag (s : State) : Tag :=
  { owner := s.ownerByte, seq := freeSeq s.ownerByte s.track.records 65 s.track.counter }

/-- The tag counter after an allocation (R27). -/
def takeTag (s : State) : State := s.setTrack { s.track with counter := s.nextTag.seq + 1 }

/-! ## Composing a bid (R23, R24, R86) -/

/-- The own entry of a clamped article; LOAD has checked that it is enabled (R20, R23). -/
def State.ownArticle (s : State) (n : Nat) : Article := (s.store.enabled n).getD .unwritten

/-- The description of the piece in a clamp position (R22, R23). -/
def State.pieceDesc (s : State) (p : Position) (tag : Tag) (rank : Rank) : Desc :=
  let a := s.ownArticle p.article
  let c := mmToCounts s.run.line.cpm
  { tag := tag, kind := .piece, lanes := if a.fullWidth then s.run.lineLanes else s.run.lanes
    article := p.article, lot := p.lot, length := (c a.length).toNat, lead := (c a.feedGap).toNat
    trail := (c a.foldGap).toNat, reject := .none, rank := rank }

/-- The description of a spacer (R22, R24). -/
def State.spacerDesc (s : State) (r : SpacerRequest) (tag : Tag) : Desc :=
  let cur := ((s.outfeed.streams.get r.stream).current).getD (0, 0)
  { tag := tag, kind := .spacer, lanes := r.lanes, article := cur.1, lot := cur.2, length := r.length, lead := 0
    trail := 0, reject := .none, rank := .overdue }

/-- The rank of a FEED bid (R86). -/
def State.feedRank (s : State) : Rank :=
  if s.run.line.limit ≤ s.bid.passedOver then .overdue
  else if s.bid.deferral ≠ 0 then .deferred
  else .normal

/-! ## Eligibility and the search (R78, R82) -/

/-- What an eligible station bids for: the head position of a FEED station, or the waiting spacer request. -/
inductive Target where
  | head (position : Fin 4)
  | spacer (request : SpacerRequest)
  deriving DecidableEq, Repr

/-- The station is eligible, and for what (R78). A station that waits to leave is still in its old state (R160). -/
def State.eligible (s : State) : Option Target :=
  if s.station = .active ∧ s.bid.hold.any = false ∧ s.bid.own = none then
    match s.role with
    | .feed =>
      match s.feed.head with
      | some i => if (s.feed.positions.get i).state = .loaded ∧ s.feed.ready = true then some (.head i) else none
      | none => none
    | .outfeed => s.bid.request.map Target.spacer
    | .throat => none
  else none

/-- The earliest throat count of a FEED window (R11, R82). -/
def State.feedTl0 (s : State) : Count :=
  plus s.line.count (s.run.eye + s.run.landing + s.line.lead + s.line.margin)

/-- The earliest throat count of a spacer (R82). Of two counts that lie -2^31 apart the second is taken (R3; DESIGN CHOICE,
log 49). -/
def State.spacerTl0 (s : State) (r : SpacerRequest) : Count :=
  let c := plus s.line.count (s.run.eye + s.line.margin)
  match r.endPiece.bind s.record with
  | some e => if later (e.tt s.line.highWater) c then e.tt s.line.highWater else c
  | none => c

/-- The window search for a target against the list and the counts as they stand (R82, R83). -/
def State.findWindow (s : State) (t : Target) : Option Count :=
  match t with
  | .head i =>
    windowSearch s.run s.line.highWater (s.pieceDesc (s.feed.positions.get i) s.nextTag s.feedRank) s.track.records
      s.feedTl0
  | .spacer r =>
    windowSearch s.run s.line.highWater (s.spacerDesc r s.nextTag) s.track.records (s.spacerTl0 r)

/-- The description a bid for a target carries. -/
def State.targetDesc (s : State) (t : Target) : Desc :=
  match t with
  | .head i => s.pieceDesc (s.feed.positions.get i) s.nextTag s.feedRank
  | .spacer r => s.spacerDesc r s.nextTag

/-- The position or stream a bid for a target serves. -/
def Target.serves (t : Target) : Fin 4 :=
  match t with
  | .head i => i
  | .spacer r => r.stream

/-- The own bid a found window makes (R85). -/
def State.newBid (s : State) (t : Target) (window : Count) : OwnBid :=
  { state := .queued, cancelling := false, desc := s.targetDesc t, window := window
    landing := plus window (-(s.run.eye + s.run.landing)), accepted := 0, serves := t.serves }

/-- The head of a FEED station becomes BIDDING (R85, R107). -/
def markBidding (t : Target) (s : State) : State :=
  match t with
  | .head i => s.setPosition i { s.feed.positions.get i with state := .bidding }
  | .spacer _ => s

/-- A found window: the BID is composed with a fresh tag and handed to the outbox (R85). -/
def queueBid (t : Target) (window : Count) (s : State) : State :=
  let o := s.newBid t window
  let s1 := markBidding t (takeTag s)
  enqueue (.bid o.desc window) (s1.setBid { s1.bid with own := some o, rivals := [], retry := none })

/-- A search: it queues a BID, or it starts the retry timer and waits (R84, R85). -/
def search (t : Target) (s : State) : State :=
  match s.findWindow t with
  | some w => queueBid t w s
  | none => s.setBid { s.bid with retry := some (s.now + Config.retryTime) }

/-- The bid engine at the end of a step: an eligible engine searches when it is not waiting, or when a change was
handed on; a wait ends when eligibility is lost (R78, R84). -/
def reconsider (s : State) : State :=
  match s.eligible with
  | some t => if s.bid.retry.isNone || s.bid.changed then search t s else s
  | none => s.setBid { s.bid with retry := none }

/-! ## Planning the stack change (R139, R140) -/

/-- The walk over a stream's records not yet at its eye: the record at which the sum of the passed count and the
counted pieces first reaches the stack size (R139). A SPACER record stops the walk, one that has passed the eye and has not
yet retired too (DESIGN CHOICE, log 44). -/
def planWalk (current : Nat × Nat) (size : Nat) : Nat → List Record → Option Tag
  | _, [] => none
  | sum, r :: rs =>
    if r.state = .spacer then none
    else if r.desc.kind = .piece ∧ r.desc.reject = .none then
      if (r.desc.article, r.desc.lot) = current then
        if size ≤ sum + 1 then some r.desc.tag else planWalk current size (sum + 1) rs
      else none
    else planWalk current size sum rs

/-- The records of a stream that are not yet at its eye, in list order (R133, R139): those whose passed-own-eye flag is
clear, which a SPACER's is until it retires (R37; DESIGN CHOICE, log 44). -/
def State.ahead (s : State) (i : Fin 4) : List Record :=
  s.track.records.filter (fun r => !r.passed && s.outfeed.streamOf r.desc.lanes == some i)

/-- The plan of a stream: none, or a spacer request with its end piece (R139). -/
def State.plan (s : State) (i : Fin 4) : Option (Option Tag) :=
  let x := s.outfeed.streams.get i
  match x.current with
  | none => none
  | some c =>
    if x.lanes = 0 ∨ x.spacer ≠ .none then none
    else if s.store.stackSize c.1 ≤ x.passed then some none
    else (planWalk c (s.store.stackSize c.1) x.passed (s.ahead i)).map some

/-- A stream plans: a reached stack size requests a spacer (R139). -/
def planStream (i : Fin 4) (s : State) : State :=
  match s.plan i with
  | some e =>
    let t := s.setStream i { s.outfeed.streams.get i with spacer := .requested e }
    t.setOutfeed { t.outfeed with queue := t.outfeed.queue ++ [i] }
  | none => s

/-- Every stream an arrival of this step reached plans again (R139). Several plan in ascending stream number, and their
requests join the queue in that order (DESIGN CHOICE, log 9). -/
def planStreams (s : State) : State :=
  if s.station = .setup then s
  else four.foldl (fun t i => if hasLane s.outfeed.planDue i then planStream i t else t) s

/-- The oldest request is handed to the bid engine when it holds none (R101, R140). -/
def handRequest (s : State) : State :=
  match s.bid.request, s.bid.own, s.outfeed.queue with
  | none, none, i :: rest =>
    let x := s.outfeed.streams.get i
    let e := match x.spacer with | .requested e => e | _ => none
    (s.setOutfeed { s.outfeed with queue := rest }).setBid
      { s.bid with request := some { stream := i, lanes := x.lanes, length := s.run.stack, endPiece := e } }
  | _, _, _ => s

/-- The marks of a step are taken down (log 9). -/
def clearMarks (s : State) : State :=
  (s.setBid { s.bid with changed := false }).setOutfeed { s.outfeed with planDue := 0 }

/-- The end of every step that may have made the station eligible or changed a plan (log 9). -/
def finish (s : State) : State := clearMarks (reconsider (handRequest (planStreams s)))

end Sys2Proof.Machine
end

