-- ==== Sys2Proof/Machine/EyeUnit.lean ====
section
/-! DEFINITION. The eye unit and the retirement check (chapter 4, sections 3.4 and 3.5), with what the outfeed director
and the width sampler do at a match, a stray and a closure (R115, R119, R135 to R138): LEADING_EDGE, TRAILING_EDGE,
MISS, RETIREMENT. -/

namespace Sys2Proof.Machine

/-! ## Eyes and sightings -/

/-- An eye with another content. -/
def State.setLaneEye (s : State) (k : Fin 4) (e : Eye) : State :=
  s.setEye { s.eye with eyes := s.eye.eyes.set k e }

/-- The list of sightings in progress replaced. -/
def State.setSightings (s : State) (l : List Sighting) : State := s.setEye { s.eye with sightings := l }

/-- The pending edge of an eye has held for the filter distance at this advance: its start count (R58). -/
def State.edgeDue (s : State) (k : Fin 4) (st : EyeState) : Option Count :=
  let e := s.eye.eyes.get k
  match e.edge with
  | some c => if e.state = st ∧ atLeast s.line.highWater (plus c s.run.filter) = true then some c else none
  | none => none

/-- The sighting in progress an eye is bound to (R60). -/
def State.boundTo (s : State) (k : Fin 4) : Option Sighting := s.eye.sightings.find? (fun g => hasLane g.bound k)

/-- A distance between two counts without sign (R63). -/
def apart (a b : Count) : Nat := (signedDiff a b).natAbs

/-- The block base of a lane at a THROAT station (R125). -/
def setBase (k : Fin 4) (c : Option Count) (s : State) : State :=
  if s.role = .throat then s.setThroat { s.throat with bases := s.throat.bases.set k c } else s

/-! ## The outfeed director at the eye (R134 to R138) -/

/-- A divert pulse, begun or begun again (R134). -/
def divertPulse (s : State) : State := s.setOutfeed { s.outfeed with divert := some (s.now + Config.pulseTime) }

/-- A stack-change pulse on a stream's output, begun or begun again (R134). -/
def stackPulse (i : Fin 4) (s : State) : State :=
  s.setOutfeed { s.outfeed with stackChange := s.outfeed.stackChange.set i (some (s.now + Config.pulseTime)) }

/-- The fold program of a counted piece: strobed, queued, or dropped with FOLD_OVERRUN (R134). -/
def foldPiece (d : Desc) (s : State) : State :=
  let p := s.store.foldProgram d.article
  if s.outfeed.strobe.isNone then
    s.setOutfeed { s.outfeed with foldCode := p, strobe := some (s.now + Config.strobeTime) }
  else if s.outfeed.foldQueue.length < Config.foldCapacity then
    s.setOutfeed { s.outfeed with foldQueue := s.outfeed.foldQueue ++ [p] }
  else raise (descEvent .foldOverrun d) s

/-- A stack begins with its first piece (R135). -/
def beginStack (i : Fin 4) (d : Desc) (s : State) : State :=
  let x := s.outfeed.streams.get i
  s.setStream i { x with current := some (d.article, d.lot), passed := 1, serial := x.serial + 1 }

/-- A REQUESTED spacer of a stream is withdrawn, whatever its end piece (R135, R140). -/
def withdrawRequested (i : Fin 4) (s : State) : State :=
  match (s.outfeed.streams.get i).spacer with
  | .requested _ => withdrawSpacer i s
  | _ => s

/-- A stack is closed by a piece of another article or lot (R135). -/
def changeStack (i : Fin 4) (s : State) : State :=
  let x := s.outfeed.streams.get i
  let c := x.current.getD (0, 0)
  withdrawRequested i
    ((raise { kind := .stackClosed, article := some c.1, lot := some c.2, a := some x.passed
              b := some (i.val + 1), code := some 3 } (stackPulse i s)).setStream i { x with lastStack := .change })

/-- A counted piece enters its stream's stack (R135). -/
def countPiece (i : Fin 4) (d : Desc) (s : State) : State :=
  let x := s.outfeed.streams.get i
  match x.current with
  | none => beginStack i d s
  | some c =>
    if c = (d.article, d.lot) then s.setStream i { x with passed := min 255 (x.passed + 1) }
    else if 0 < x.passed then beginStack i d (changeStack i s)
    else beginStack i d s

/-- An entry joins the table of pieces under the eye (section 7.6). -/
def enterUnderEye (tag : Tag) (i : Option (Fin 4)) (counted : Bool) (s : State) : State :=
  let serial := match i with | some j => (s.outfeed.streams.get j).serial | none => 0
  s.setOutfeed { s.outfeed with
    underEye := s.outfeed.underEye ++ [{ tag := tag, stream := i, serial := serial, counted := counted }] }

/-- The gap ahead of a new object is less than required: SHORT_GAP (R138). The record ahead is the one that stands under the
closure's tag now, whether or not it is the one that closed (DESIGN CHOICE, log 47). -/
def judgeGap (i : Fin 4) (d : Desc) (first : Count) (s : State) : State :=
  match (s.outfeed.streams.get i).closure with
  | none => s
  | some (tag, last) =>
    match s.record tag with
    | none => s
    | some ahead =>
      if signedDiff first last < gap s.run ahead.desc d then
        raise (descEvent .shortGap d (some tag.owner.toNat) (some (signedDiff first last)) (some (gap s.run ahead.desc d))) s
      else s

/-- A match handed to the director (R135, R138). A record with a reject and without an article is diverted with its
reject as the code (DESIGN CHOICE, log 39). -/
def outfeedMatch (r : Record) (first : Count) (s : State) : State :=
  if s.role ≠ .outfeed then s
  else
    match s.outfeed.streamOf r.desc.lanes with
    | none => s
    | some i =>
      let t := judgeGap i r.desc first s
      if r.desc.reject ≠ .none ∨ r.desc.article = 0 then
        let code := if r.desc.reject ≠ .none then rejectCode r.desc.reject else 5
        planAgain i (enterUnderEye r.desc.tag (some i) false
          (raise { kind := .diverted, code := some code } (divertPulse t)))
      else
        planAgain i (enterUnderEye r.desc.tag (some i) true (foldPiece r.desc (countPiece i r.desc t)))

/-- A stray creation handed to the director (R136, R138). -/
def outfeedStray (d : Desc) (first : Count) (s : State) : State :=
  if s.role ≠ .outfeed then s
  else
    let t := match s.outfeed.streamOf d.lanes with
      | some i => planAgain i (judgeGap i d first s)
      | none => s
    enterUnderEye d.tag (s.outfeed.streamOf d.lanes) false
      (raise { kind := .diverted, tag := some d.tag, code := some (rejectCode .stray) } (divertPulse t))

/-- A piece counted at its match is diverted at its closure (R137). -/
def divertLate (i : Fin 4) (e : UnderEye) (reject : Reject) (s : State) : State :=
  let t := divertPulse s
  let x := t.outfeed.streams.get i
  if x.serial = e.serial ∧ 0 < x.passed then
    raise { kind := .diverted, b := some 1, code := some (rejectCode reject) }
      (t.setStream i { x with passed := x.passed - 1 })
  else raise { kind := .diverted, b := some 0, code := some (rejectCode reject) } t

/-- A closure handed to the director (R137). -/
def outfeedClosure (tag : Tag) (last : Count) (s : State) : State :=
  match s.outfeed.underEye.find? (fun e => e.tag == tag) with
  | none => s
  | some e =>
    let t := s.setOutfeed { s.outfeed with underEye := s.outfeed.underEye.filter (fun u => u.tag != tag) }
    match e.stream with
    | none => t
    | some i =>
      let reject := match t.record tag with | some r => r.desc.reject | none => .none
      let t1 := if e.counted = true ∧ reject ≠ .none then divertLate i e reject t else t
      planAgain i (t1.setStream i { t1.outfeed.streams.get i with closure := some (tag, last) })

/-! ## The width sampler at the eye (R115, R118, R119) -/

/-- A verdict delivered to the eye unit, held until the closure of the piece's sighting (R117). -/
def deliver (tag : Tag) (v : Verdict) (s : State) : State :=
  s.setSightings (s.eye.sightings.map (fun g => if g.tag = tag then { g with width := some v } else g))

/-- WIDTH_UNMEASURED for a piece (R119). -/
def unmeasuredEvent (p : WidthPiece) (codes : Nat) (code : Nat) : Event :=
  { kind := .widthUnmeasured, tag := some p.tag, article := some p.article, lot := some p.lot, a := some codes
    code := some code }

/-- A match of the station's own PIECE record handed to the sampler: IDLE becomes ARMED, otherwise the piece is the
pending start (R115). It takes the place of an earlier pending start, which is dropped without an event (DESIGN CHOICE,
log 19). -/
def widthMatch (r : Record) (k : Fin 4) (first : Count) (s : State) : State :=
  if s.role = .feed ∧ r.own = true ∧ r.desc.kind = .piece then
    let p : WidthPiece := { tag := r.desc.tag, article := r.desc.article, lot := r.desc.lot, lane := k
                            start := plus first s.run.sample, edgeTaken := false }
    match s.width.phase with
    | .idle => s.setWidth { s.width with phase := .armed, piece := some p }
    | _ => s.setWidth { s.width with pending := some p }
  else s

/-- The sampler aborts, discards its sum and rests; the last width is unchanged (R118, R119). The sample count is
cleared when the next conversion begins (R116). -/
def WidthSampler.rest (w : WidthSampler) (now : Nat) : WidthSampler :=
  { w with phase := .resting, piece := none, sum := 0, due := now + Config.restTime }

/-- The trailing edge of the eye that opened an own piece's sighting, handed to the sampler (R115, R118, R119). An ARMED
sampler returns to IDLE with its pending start standing (DESIGN CHOICE, log 37). -/
def widthTrail (tag : Tag) (k : Fin 4) (s : State) : State :=
  let noted := s.width.pending.map (fun p => if p.tag = tag ∧ p.lane = k then { p with edgeTaken := true } else p)
  let t := s.setWidth { s.width with pending := noted }
  match s.width.piece with
  | none => t
  | some p =>
    if p.tag = tag ∧ p.lane = k then
      match s.width.phase with
      | .armed =>
        raise (unmeasuredEvent p 0 1) (deliver tag .unmeasured (t.setWidth { t.width with phase := .idle, piece := none }))
      | .converting =>
        raise (unmeasuredEvent p s.width.samples 2) (deliver tag .unmeasured (t.setWidth (t.width.rest t.now)))
      | _ => t
    else t

/-! ## Leading edges (R61 to R65) -/

/-- A sighting can absorb an edge on lane `k` back-dated to `n` (R62). An edge no later than the limit is read as a limit at
least the edge's count, which R3 leaves open at the one difference -2^31 (DESIGN CHOICE, log 49). -/
def State.absorbs (s : State) (k : Fin 4) (n : Count) (g : Sighting) : Bool :=
  match s.record g.tag with
  | some r => hasLane r.desc.lanes k && atLeast g.limit n
  | none => false

/-- The place of a tag in list order. -/
def State.placeOf (s : State) (t : Tag) : Nat := s.track.records.findIdx (fun r => r.desc.tag == t)

/-- Of two sightings that could absorb an edge, the nearer first leading count, then the earlier record (R62). -/
def State.nearerSighting (s : State) (n : Count) (a b : Sighting) : Sighting :=
  if apart b.first n < apart a.first n ∨ (apart b.first n = apart a.first n ∧ s.placeOf b.tag < s.placeOf a.tag) then b
  else a

/-- The sighting that absorbs an edge (R62). -/
def State.absorber (s : State) (k : Fin 4) (n : Count) : Option Sighting :=
  match s.eye.sightings.filter (s.absorbs k n) with
  | [] => none
  | g :: gs => some (gs.foldl (s.nearerSighting n) g)

/-- A record is a candidate for an edge on lane `k` back-dated to `n` (R63). -/
def State.candidate (s : State) (k : Fin 4) (n : Count) (r : Record) : Bool :=
  (r.state == .bid || r.state == .seen) && hasLane r.desc.lanes k && !r.passed
    && decide ((apart n (s.arrival r) : Int) ≤ s.run.tolerance)

/-- The candidate with the smallest distance, the earliest in list order among equals (R63). -/
def State.bestCandidate (s : State) (k : Fin 4) (n : Count) : Option Record :=
  match s.track.records.filter (s.candidate k n) with
  | [] => none
  | r :: rs => some (rs.foldl (fun a b => if apart n (s.arrival b) < apart n (s.arrival a) then b else a) r)

/-- A new sighting in progress (R64, R65). -/
def openSighting (tag : Tag) (stray : Bool) (first : Count) (bound : Lanes) (s : State) : State :=
  s.setSightings (s.eye.sightings ++
    [{ tag := tag, stray := stray, first := first, limit := plus first s.run.tolerance, bound := bound
       lastTrail := none, width := none }])

/-- A match: the record's TL becomes the edge's count plus E, its passed-own-eye flag is set, a sighting opens, and
the width sampler and the outfeed director are handed the match (R46, R64). -/
def matchEdge (k : Fin 4) (n : Count) (r : Record) (s : State) : State :=
  let r1 := { r with tl := plus n s.run.eye, passed := true, reporter := s.number }
  outfeedMatch r1 n (widthMatch r1 k n (openSighting r.desc.tag false n (laneBit k) (changeRecord r r1 s)))

/-- The judgement of one leading edge: absorbed, matched, or left unmatched (R61). -/
def judgeEdge (k : Fin 4) (n : Count) (s : State) : State × Bool :=
  match s.absorber k n with
  | some g =>
    (s.setSightings (s.eye.sightings.map (fun x => if x.tag = g.tag then { x with bound := x.bound ||| laneBit k } else x)),
      false)
  | none =>
    match s.bestCandidate k n with
    | some r => (matchEdge k n r s, false)
    | none => (s, true)

/-- The lanes whose pending leading edge joins a stray first seen at `n` (R65). 'No later' is read as for `State.absorbs`
(DESIGN CHOICE, log 49). -/
def State.joining (s : State) (n : Count) : Lanes :=
  four.foldl (fun l k =>
    let e := s.eye.eyes.get k
    match e.edge with
    | some c =>
      if hasLane s.run.lanes k = true ∧ e.state = .clear ∧ atLeast (plus n s.run.tolerance) c = true then
        l ||| laneBit k
      else l
    | none => l) 0

/-- The description of a stray found by the own eye (R24, R46). -/
def State.strayDesc (s : State) (lanes : Lanes) : Desc :=
  { tag := s.nextTag, kind := .stray, lanes := lanes, article := 0, lot := 0, length := 1, lead := s.run.strayGap
    trail := s.run.strayGap, reject := .stray, rank := .normal }

/-- The unmatched edges of an advance, on the lanes `unmatched`, create one stray (R46, R65). At a full list the
stray is dropped, and no sighting opens (R51, R65). -/
def createStray (n : Count) (unmatched : Lanes) (s : State) : State :=
  let d := s.strayDesc (unmatched ||| s.joining n)
  let r : Record := { desc := d, tl := plus n s.run.eye, state := .stray, missed := false, passed := true, own := true
                      reporter := s.number, measured := none, openFrom := some n }
  let t := takeTag s
  if s.track.records.length < Config.trackCapacity then
    outfeedStray d n (openSighting d.tag true n unmatched (insertNew r t))
  else overflow d 4 t

/-- The leading edges due at this advance, in ascending lane number, with their back-dated counts (R58, R61). -/
def State.leadingDue (s : State) : List (Fin 4 × Count) :=
  four.filterMap (fun k => (s.edgeDue k .clear).map (fun c => (k, c)))

/-- A leading edge is taken: the eye is BLOCKED, and its lane has a block base at a THROAT station (R58, R125). -/
def takeLeading (k : Fin 4) (n : Count) (s : State) : State :=
  setBase k (some n) (s.setLaneEye k { state := .blocked, edge := none })

/-- The edges judged one at a time; the lanes left unmatched, and their count (R61, R65). The events of one edge enter the
FIFO before those of the next (R191; DESIGN CHOICE, log 8). -/
def judgeEdges : List (Fin 4 × Count) → State × Lanes × Option Count → State × Lanes × Option Count
  | [], x => x
  | (k, n) :: rest, (s, l, c) =>
    let (t, unmatched) := judgeEdge k n s
    judgeEdges rest (if unmatched then (t, l ||| laneBit k, some n) else (t, l, c))

/-- The leading edges of an advance are taken and judged, and the unmatched ones create one stray (R61, R65). -/
def leadingEdges (s : State) : State :=
  let due := s.leadingDue
  let taken := due.foldl (fun t (kn : Fin 4 × Count) => takeLeading kn.1 kn.2 t) s
  let (t, l, c) := judgeEdges due (taken, 0, none)
  match c with
  | some n => createStray n l t
  | none => t

/-- The station is at the instant of an advance and not in SETUP, so that the blocks of R5 act. -/
def State.acting (s : State) : Bool := s.line.atAdvance && s.station != .setup

/-- LEADING_EDGE (R61). -/
def execLeadingEdge (s : State) : Host.Outcome State Fault Refusal :=
  if s.acting then .next (finish (leadingEdges s)) else .next s

/-! ## Trailing edges and closures (R66 to R68) -/

/-- A measured length limited to what a record holds (R67). -/
def limitLength (n : Int) : Nat := (clampInt 1 Config.maxLength n).toNat

/-- The width verdict of a closure as a reject value; OK and UNMEASURED are none (R25, R67). -/
def verdictReject (v : Option Verdict) : Reject :=
  match v with
  | some .narrow => .narrow
  | some .wide => .wide
  | _ => .none

/-- The length verdict: DOUBLE when the measured length exceeds the expected length plus the tolerance (R67). -/
def State.lengthVerdict (s : State) (d : Desc) (measured : Int) : Reject :=
  if (s.expectedLength d : Int) + s.run.tolerance < measured then .double else .none

/-- A description as a SIGHTING carries it: rank NORMAL (R24). -/
def Desc.sighted (d : Desc) : Desc := { d with rank := .normal }

/-- A SIGHTING is queued in ACTIVE only (R71). -/
def report (m : Msg) (s : State) : State := if s.station = .active then enqueue m s else s

/-- The record as the closure of a matched sighting leaves it (R47, R68). -/
def State.closedRecord (s : State) (g : Sighting) (measured : Int) (r : Record) : Record :=
  let width := if s.role = .feed ∧ r.own = true ∧ r.desc.kind = .piece then verdictReject g.width else .none
  let j := combine (Config.freeReject s.track.free) (combine (Config.freeReject s.track.free) r.desc.reject
    (s.lengthVerdict r.desc measured)) width
  { r with desc := { r.desc with reject := j }, state := if r.state = .bid then .seen else r.state
           measured := some (limitLength measured), reporter := s.number }

/-- An open stray closed at its measured length (R47, R67). -/
def State.closedStray (s : State) (measured : Int) (r : Record) : Record :=
  { r with desc := { r.desc with length := limitLength measured }, measured := some (limitLength measured)
           reporter := s.number, openFrom := none }

/-- A sighting whose last bound eye has cleared is closed (R67, R68). -/
def closeSighting (g : Sighting) (last : Count) (s : State) : State :=
  let t := s.setSightings (s.eye.sightings.filter (fun x => x.tag != g.tag))
  let measured := signedDiff last g.first
  match t.record g.tag with
  | none => t
  | some r =>
    let tl := plus g.first t.run.eye
    if g.stray then
      let r1 := t.closedStray measured r
      outfeedClosure g.tag last (report (.stray r1.desc.sighted tl) (changeRecord r r1 t))
    else
      let r1 := t.closedRecord g measured r
      outfeedClosure g.tag last (report (.seen r1.desc.sighted tl (limitLength measured)) (changeRecord r r1 t))

/-- A trailing edge on lane `k` back-dated to `n` (R66, R125). -/
def trailingEdge (k : Fin 4) (n : Count) (s : State) : State :=
  let t := setBase k none (s.setLaneEye k { state := .clear, edge := none })
  match t.boundTo k with
  | none => t
  | some g =>
    let u := if g.stray then t else widthTrail g.tag k t
    match u.eye.sightings.find? (fun x => x.tag == g.tag) with
    | none => u
    | some g1 =>
      let g2 := { g1 with bound := g1.bound &&& ~~~(laneBit k), lastTrail := some n }
      if g2.bound = 0 then closeSighting g2 n u
      else u.setSightings (u.eye.sightings.map (fun x => if x.tag = g.tag then g2 else x))

/-- The trailing edges due at this advance (R58, R66). Several are taken in ascending lane number, as R61 orders the
leading edges (DESIGN CHOICE, log 40). -/
def State.trailingDue (s : State) : List (Fin 4 × Count) :=
  four.filterMap (fun k => (s.edgeDue k .blocked).map (fun c => (k, c)))

/-- TRAILING_EDGE (R66), after the leading edges of the advance are judged (R61). -/
def execTrailingEdge (s : State) : Host.Outcome State Fault Refusal :=
  if s.acting && s.leadingDue.isEmpty then
    .next (finish (s.trailingDue.foldl (fun t (kn : Fin 4 × Count) => trailingEdge kn.1 kn.2 t) s))
  else .next s

/-- Every edge due at this advance has been taken: the eye unit goes on to its misses, and the throat monitor and the
outfeed director to what they test after it (R61, R127, R141). -/
def State.edgesTaken (s : State) : Bool := s.leadingDue.isEmpty && s.trailingDue.isEmpty

/-! ## Misses (R69, R70) -/

/-- A pending leading edge that could still match the record defers its miss (R69). 'No later' is read as for
`State.absorbs` (DESIGN CHOICE, log 49). -/
def State.deferred (s : State) (r : Record) : Bool :=
  four.any (fun k =>
    let e := s.eye.eyes.get k
    match e.edge with
    | some c =>
      hasLane r.desc.lanes k && hasLane s.run.lanes k && e.state == .clear && atLeast (s.arrivalEnd r) c
    | none => false)

/-- The record is missed at this advance (R69). -/
def State.missedNow (s : State) (r : Record) : Bool :=
  r.state != .spacer && share r.desc.lanes s.run.lanes && !r.passed
    && later s.line.highWater (s.arrivalEnd r) && !s.deferred r

/-- The FEED peers that are PRESENT (R100, R170). -/
def State.feedPeers (s : State) : Stations :=
  (s.peers.entries.filter (fun p => p.state == .present && p.hailed.any (fun h => h.role == some .feed))).foldl
    (fun w p => w ||| stationBit p.number) 0

/-- The own piece does not appear: VOID is queued and the deferral set filled (R70, R100); a FIRED own bid returns to
NONE with VOIDED (R98), and any other own bid stands without one (DEDUCED, log 17). MSG_DROPPED, of the link controller,
enters the FIFO before VOIDED, of the bid engine (R191; DESIGN CHOICE, log 8). -/
def voidOwn (tag : Tag) (s : State) : State :=
  let t := enqueue (.void tag) s
  let u := t.setBid { t.bid with deferral := t.feedPeers }
  if u.ownIs .fired tag then raise { kind := .voided } (endOwn u) else u

/-- LOST for a record at its second miss, told by `reporter` (R43). -/
def lostEvent (r : Record) (reporter : Nat) : Event :=
  descEvent .lost r.desc
    (some (match r.state with | .bid => 1 | .seen => 2 | .spacer => 3 | .stray => 4))
    (some reporter) (some r.reporter)

/-- A miss counted against a held record by `reporter`: the first is noted, the second removes it with LOST, and
with UNCONFIRMED when it is the fired record, the one under the fired tag (R43, R47, R98; DESIGN CHOICE, log 51). -/
def countMiss (r : Record) (reporter : Nat) (s : State) : State :=
  if r.missed then unconfirm r.desc.tag 2 (removeRecord r.desc.tag (raise (lostEvent r reporter) s))
  else
    s.setRecords (s.track.records.map (fun x =>
      if x.desc.tag = r.desc.tag then { x with missed := true, reporter := reporter } else x))

/-- A miss declared at this eye (R47, R70). The own flag decides whether the piece is voided (R36), so a record that has
replaced the fired one is not voided (log 51). -/
def declareMiss (r : Record) (s : State) : State :=
  let t := s.setRecords (s.track.records.map (fun x => if x.desc.tag = r.desc.tag then { x with passed := true } else x))
  if s.station = .active then
    if r.own = true ∧ r.desc.kind = .piece then voidOwn r.desc.tag t
    else enqueue (.missed r.desc.sighted r.tl) t
  else countMiss { r with passed := true } s.number t

/-- MISS of the record with a tag (R69), against the list as the edges of the advance have left it (R61). -/
def execMiss (tag : Tag) (s : State) : Host.Outcome State Fault Refusal :=
  match s.record tag with
  | some r => if s.acting && s.edgesTaken && s.missedNow r then .next (finish (declareMiss r s)) else .next s
  | none => .next s

/-! ## Retirement (R50) -/

/-- The retirement distance of a record is reached (R50). -/
def State.retireDistance (s : State) (r : Record) : Bool :=
  atLeast s.line.highWater (plus (r.tt s.line.highWater) (-s.run.eye + r.desc.trail + s.run.tolerance))

/-- The record retires at this advance (R50). -/
def State.retiresNow (s : State) (r : Record) : Bool :=
  r.openFrom.isNone && s.retireDistance r
    && (r.passed || r.desc.kind == .spacer || !share r.desc.lanes s.run.lanes)

/-- RETIREMENT of the record with a tag (R50), which is the fired record where the tag is the fired one (R98; DESIGN
CHOICE, log 51). -/
def execRetirement (tag : Tag) (s : State) : Host.Outcome State Fault Refusal :=
  match s.record tag with
  | some r =>
    if s.acting && s.retiresNow r then .next (finish (unconfirm tag 1 (removeRecord tag s))) else .next s
  | none => .next s

end Sys2Proof.Machine
end

