-- ==== Sys2Proof/Machine/FeedStation.lean ====
section
/-! DEFINITION. The fire sequence and the width sampler (chapter 6): FIRE, FIRE_DROP_ON, FIRE_DROP_OFF, FIRE_GRIP_ON,
WIDTH_START, WIDTH_SAMPLE, REST_TIMER_EXPIRY. -/

namespace Sys2Proof.Machine

/-! ## The fire sequence (R112, R113) -/

/-- The fire condition holds at this advance for a GRANTED bid (R11, R97, R112). No sequence runs (log 18). -/
def State.fires (s : State) (o : OwnBid) : Bool :=
  s.line.atAdvance && s.station == .active && s.role == .feed && !s.bid.hold.any && o.state == .granted
    && s.feed.fire.isNone && decide (signedDiff o.landing s.line.highWater ≤ s.line.lead)

/-- The fire: GRIP off, the head FIRING, the sequence begun (R112); the own bid FIRED, the passed-over count 0, and
FIRED with the landing distance and the lead (R97). -/
def fireBid (o : OwnBid) (s : State) : State :=
  let d := s.run.station.dead
  let q : FireSequence := { stage := .beforeDrop, due := s.now + d * Config.ms, dead := d
                            pulse := s.run.station.pulse, position := some o.serves }
  let f := s.feed
  let t := s.setFeed { f with
    grip := false, fire := some q
    positions := f.positions.set o.serves { f.positions.get o.serves with state := .firing } }
  raise (descEvent .fired o.desc none (some (signedDiff o.landing s.line.highWater)) (some s.line.lead))
    (t.setBid { t.bid with own := some { o with state := .fired }, passedOver := 0 })

/-- FIRE (R97, R112). -/
def execFire (s : State) : Host.Outcome State Fault Refusal :=
  match s.bid.own with
  | some o => if s.fires o then .next (fireBid o s) else .next s
  | none => .next s

/-- FIRE_DROP_ON, step 3: GRIP is off when DROP comes on (R112, R113). -/
def execFireDropOn (s : State) : Host.Outcome State Fault Refusal :=
  match s.feed.fire with
  | some q =>
    if q.stage = .beforeDrop then
      .next ((advanceTo q.due s).setFeed { s.feed with
        grip := false, drop := true, fire := some { q with stage := .dropping, due := q.due + q.pulse * Config.ms } })
    else .next s
  | none => .next s

/-- FIRE_DROP_OFF, step 4 (R112). -/
def execFireDropOff (s : State) : Host.Outcome State Fault Refusal :=
  match s.feed.fire with
  | some q =>
    if q.stage = .dropping then
      .next ((advanceTo q.due s).setFeed { s.feed with
        drop := false, fire := some { q with stage := .beforeGrip, due := q.due + q.dead * Config.ms } })
    else .next s
  | none => .next s

/-- The position of an ended sequence is EMPTY (R107, R112); after LEAVE there is none (R122). -/
def FeedSequencer.emptied (f : FeedSequencer) (i : Option (Fin 4)) : FeedSequencer :=
  match i with
  | some i => if (f.positions.get i).state = .firing then { f with positions := f.positions.set i .none } else f
  | none => f

/-- FIRE_GRIP_ON, step 6: DROP is off when GRIP comes on, the position is EMPTY and the head moves on (R112). -/
def execFireGripOn (s : State) : Host.Outcome State Fault Refusal :=
  match s.feed.fire with
  | some q =>
    if q.stage = .beforeGrip then
      let f := s.feed.emptied q.position
      .next (finish ((advanceTo q.due s).setFeed { f with grip := true, drop := false, fire := none }))
    else .next s
  | none => .next s

/-! ## The width sampler (R115 to R118) -/

/-- The sampler begins a conversion with its first code (R115, R116). -/
def WidthSampler.begin (w : WidthSampler) (p : WidthPiece) (code : BitVec 12) (now : Nat) : WidthSampler :=
  { w with phase := .converting, piece := some p, sum := code.toNat, samples := 1, due := now + Config.sampleTime }

/-- WIDTH_START (R115): an ARMED sampler whose start count is reached at this advance. -/
def execWidthStart (code : BitVec 12) (s : State) : Host.Outcome State Fault Refusal :=
  match s.width.piece with
  | some p =>
    if s.acting ∧ s.width.phase = .armed ∧ atLeast s.line.highWater p.start then
      .next (s.setWidth (s.width.begin p code s.now))
    else .next s
  | none => .next s

/-- The width in millimetres from the sum of eight codes and the curtain width (R116). -/
def widthOf (sum curtain : Nat) : Nat := ((sum + 4) / 8 * curtain + 2047) / 4095

/-- The verdict of a width against the article's nominal width and tolerance (R117). -/
def widthVerdict (a : Article) (width : Nat) : Verdict :=
  if width < a.width - a.tolerance then .narrow
  else if a.width + a.tolerance < width then .wide
  else .ok

/-- A code is added; the eighth completes the conversion: the width, the verdict and the rest (R116, R117, R118). -/
def takeSample (p : WidthPiece) (code : BitVec 12) (s : State) : State :=
  let w := s.width
  if w.samples + 1 < 8 then
    s.setWidth { w with sum := w.sum + code.toNat, samples := w.samples + 1, due := w.due + Config.sampleTime }
  else
    let x := widthOf (w.sum + code.toNat) s.run.station.curtain
    deliver p.tag (widthVerdict (s.ownArticle p.article) x)
      (s.setWidth { w with phase := .resting, sum := w.sum + code.toNat, samples := w.samples + 1, last := x
                           due := s.now + Config.restTime })

/-- WIDTH_SAMPLE (R116): taken on the millisecond timer, whatever the line does. -/
def execWidthSample (code : BitVec 12) (s : State) : Host.Outcome State Fault Refusal :=
  match s.width.piece with
  | some p => if s.width.phase = .converting then .next (takeSample p code (advanceTo s.width.due s)) else .next s
  | none => .next s

/-- The end of the rest: IDLE, or the pending start taken up, or reported UNMEASURED with code REST (R118). -/
def endRest (code : BitVec 12) (s : State) : State :=
  match s.width.pending with
  | none => s.setWidth { s.width with phase := .idle, piece := none }
  | some p =>
    let w := { s.width with pending := none }
    if p.edgeTaken then
      raise (unmeasuredEvent p 0 3) (deliver p.tag .unmeasured (s.setWidth { w with phase := .idle, piece := none }))
    else if atLeast s.line.count p.start then s.setWidth (w.begin p code s.now)
    else s.setWidth { w with phase := .armed, piece := some p }

/-- REST_TIMER_EXPIRY (R118). -/
def execRestTimerExpiry (code : BitVec 12) (s : State) : Host.Outcome State Fault Refusal :=
  if s.width.phase = .resting then .next (endRest code (advanceTo s.width.due s)) else .next s

end Sys2Proof.Machine
end

