-- ==== Sys2Proof/Machine/Outfeed.lean ====
section
/-! DEFINITION. The outfeed director away from the eye (sections 7.5 to 7.7): SPACER_PASSAGE, STROBE_END,
DIVERT_PULSE_END, STACK_CHANGE_PULSE_END. -/

namespace Sys2Proof.Machine

/-- The PLACED spacer of a stream has passed the eye at this advance, after the matches, stray creations and closures of
it: its tag (R141). The passage is tested on the record that holds the tag, were it a stray's (DESIGN CHOICE, log 43). -/
def State.passage (s : State) (i : Fin 4) : Option Tag :=
  match (s.outfeed.streams.get i).spacer with
  | .placed tag =>
    match s.record tag with
    | some r =>
      if s.acting = true ∧ s.edgesTaken = true ∧ s.role = .outfeed ∧ later s.line.highWater (s.arrival r) = true then
        some tag
      else none
    | none => none
  | _ => none

/-- The stack of a stream is FULL when the passed count equals the stack size of its article (R141). -/
def State.stackFull (s : State) (x : Stream) : Bool :=
  match x.current with
  | some c => x.passed == s.store.stackSize c.1
  | none => false

/-- A spacer passes the eye: a stack-change pulse, STACK_CLOSED, and the stream starts its count again (R141). -/
def passSpacer (i : Fin 4) (tag : Tag) (s : State) : State :=
  let x := s.outfeed.streams.get i
  let full := s.stackFull x
  let e : Event := { kind := .stackClosed, tag := some tag, article := x.current.map Prod.fst
                     lot := x.current.map Prod.snd, a := some x.passed, b := some (i.val + 1)
                     code := some (if full then 1 else 2) }
  planAgain i ((raise e (stackPulse i s)).setStream i
    { x with passed := 0, serial := x.serial + 1, spacer := .none, closure := none
             lastStack := if full then .full else .odd })

/-- SPACER_PASSAGE of a stream (R141). -/
def execSpacerPassage (stream : Fin 4) (s : State) : Host.Outcome State Fault Refusal :=
  match s.passage stream with
  | some tag => .next (finish (passSpacer stream tag s))
  | none => .next s

/-- The strobe ends; the oldest queued program sets the fold code and starts the next strobe (R134). -/
def nextStrobe (due : Nat) (s : State) : State :=
  match s.outfeed.foldQueue with
  | [] => s.setOutfeed { s.outfeed with strobe := none }
  | p :: rest =>
    s.setOutfeed { s.outfeed with foldCode := p, foldQueue := rest, strobe := some (due + Config.strobeTime) }

/-- STROBE_END (R134). -/
def execStrobeEnd (s : State) : Host.Outcome State Fault Refusal :=
  match s.outfeed.strobe with
  | some t => .next (nextStrobe t (advanceTo t s))
  | none => .next s

/-- DIVERT_PULSE_END (R134). -/
def execDivertPulseEnd (s : State) : Host.Outcome State Fault Refusal :=
  match s.outfeed.divert with
  | some t => .next ((advanceTo t s).setOutfeed { s.outfeed with divert := none })
  | none => .next s

/-- STACK_CHANGE_PULSE_END of a stream (R134). -/
def execStackChangePulseEnd (stream : Fin 4) (s : State) : Host.Outcome State Fault Refusal :=
  match s.outfeed.stackChange.get stream with
  | some t =>
    .next ((advanceTo t s).setOutfeed { s.outfeed with stackChange := s.outfeed.stackChange.set stream none })
  | none => .next s

end Sys2Proof.Machine
end

