-- ==== Sys2Proof/Machine/LineCounter.lean ====
section
/-! DEFINITION. The line counter (chapter 1): ENCODER_STEP, EXCURSION, SPEED_UPDATE. -/

namespace Sys2Proof.Machine

/-- The pair that follows in the forward direction: A changes first from both low (R1). -/
def nextPair (p : Bool × Bool) : Bool × Bool := (!p.2, p.1)

/-- The pair that follows in the opposite direction (R1). -/
def prevPair (p : Bool × Bool) : Bool × Bool := (p.2, !p.1)

/-- A SETTLING or GRANTED own bid is recalled; a QUEUED or FIRED one is not affected (R7, R96). -/
def recallLanding (code : Nat) (s : State) : State :=
  match s.bid.own with
  | some o => if o.state = .settling ∨ o.state = .granted then recallOwn code none s else s
  | none => s

/-- Entry into EXCURSION: REVERSED once, and the recall of the own bid (R6, R7). REVERSED, of the line counter, enters the
FIFO before RECALLED, of the bid engine (R191; DESIGN CHOICE, log 8). -/
def enterExcursion (s : State) : State :=
  recallLanding 9
    (raise { kind := .reversed, a := some s.line.speed, b := some s.line.slips }
      (s.setLine { s.line with excursion := true }))

/-- One eye at an advance: the pending edge begins, stays or is dropped (R58). -/
def sampleEye (count : Count) (level : Bool) (e : Eye) : Eye :=
  match e.state with
  | .idle => e
  | st => if level = (st == .blocked) then { e with edge := none } else { e with edge := some (e.edge.getD count) }

/-- Every watched eye is sampled at an advance (R57, R58). -/
def sampleEyes (eyes : Lanes) (s : State) : State :=
  s.setEye { s.eye with eyes := s.eye.eyes.mapAt (fun k e =>
    if hasLane s.run.lanes k then sampleEye s.line.count (hasLane eyes k) e else e) }

/-- An open stray is longer at this advance than before it; at its limit it grows no more (R34). -/
def State.grows (s : State) (r : Record) : Bool :=
  r.openFrom.isSome && r.gapLength s.line.highWater != r.gapLength (s.line.highWater - 1)

/-- The open strays grow: each is handed on as a change and re-checked (R34, R53, R94). Of several that bump, the first in
list order is named (DESIGN CHOICE, log 14). It runs within the advance's own step (DESIGN CHOICE, log 50). -/
def growStrays (s : State) : State :=
  (s.track.records.filter s.grows).foldl
    (fun t r => recheck r.desc.tag (noteChange r.desc.lanes t)) s

/-- The join travel counter at an advance (R171). -/
def countJoin (s : State) : State :=
  if s.station = .joining then s.setPeers { s.peers with joined := s.peers.joined + 1 } else s

/-- An advance is handed to the blocks that act within the step (R5): in SETUP it reaches none (R16). The growth of the open
strays is re-checked here, before any row of the advance, so that a bump by growth comes before the fire of the same
advance, which R94 leaves open (DESIGN CHOICE, log 50). -/
def handAdvance (eyes : Lanes) (s : State) : State :=
  if s.station = .setup then s
  else growStrays (countJoin (sampleEyes eyes (s.setLine { s.line with atAdvance := true })))

/-- A legal forward step (R1, R4, R16). -/
def stepForward (eyes : Lanes) (s : State) : State :=
  let c := s.line.count + 1
  if later c s.line.highWater then
    handAdvance eyes (s.setLine { s.line with count := c, highWater := c, atAdvance := false })
  else
    s.setLine { s.line with
      count := c, atAdvance := false, excursion := s.line.excursion && c != s.line.highWater }

/-- The line count would lie more than the reverse limit below the high-water count, with the monitor ARMED and the
station not in SETUP (R6). -/
def State.wouldReverse (s : State) (c : Count) : Bool :=
  !s.line.excursion && s.station != .setup && decide (s.run.reverse < signedDiff s.line.highWater c)

/-- A legal backward step (R1, R6, R16). -/
def stepBackward (s : State) : State :=
  let c := s.line.count - 1
  let t := s.setLine { s.line with count := c, atAdvance := false }
  if s.wouldReverse c then enterExcursion t else t

/-- An illegal step (R2). -/
def stepIllegal (s : State) : State := s.setLine { s.line with slips := min 65535 (s.line.slips + 1), atAdvance := false }

/-- The line has moved: an UNLOAD taken from here on is no longer of the instant at which a bid ended (R110; DESIGN CHOICE,
log 46). -/
def endInstant (s : State) : State := s.setFeed { s.feed with returned := none }

/-- A change of the encoder pair to `p` is taken (R1, R2, R16). -/
def encoderStep (p : Bool × Bool) (eyes : Lanes) (s : State) : State :=
  match s.line.pair with
  | none => s.setLine { s.line with pair := some p }
  | some q =>
    if p = q then s
    else
      let t := endInstant (s.setLine { s.line with pair := some p })
      if p = nextPair q then stepForward eyes t
      else if p = prevPair q then stepBackward t
      else stepIllegal t

/-- ENCODER_STEP (R16). -/
def execEncoderStep (a b : Bool) (eyes : Lanes) (s : State) : Host.Outcome State Fault Refusal :=
  .next (outsideReset (fun t => finish (encoderStep (a, b) eyes t)) s)

/-- EXCURSION: the backward step that enters EXCURSION; without one the event does not occur (R6, log 2). -/
def execExcursion (s : State) : Host.Outcome State Fault Refusal :=
  .next (outsideReset (fun t =>
    match t.line.pair with
    | some q => if t.wouldReverse (t.line.count - 1) then finish (encoderStep (prevPair q) 0 t) else t
    | none => t) s)

/-- The settings a speed update uses: those of the last START, and in SETUP those of the store (log 10). -/
def State.stationSettings (s : State) : StationSection :=
  if s.station = .setup then s.store.station else s.run.station

/-- The line settings a speed update uses (log 10). -/
def State.lineSettings (s : State) : LineSection := if s.station = .setup then s.store.line else s.run.line

/-- The actuator delay: 0 at a station whose role is not FEED (R9). -/
def StationSection.delay (x : StationSection) : Nat := if x.role = .feed then x.actuator else 0

/-- The speed estimate from a change of count (R8). -/
def speedOf (change : Int) : Int := clampInt (-4000) 4000 (change * 50)

/-- The lead from the speed and the actuator delay (R9). -/
def leadOf (v : Int) (delay : Nat) : Nat := min 2000 (ceilThousandth (v.toNat * delay))

/-- The settle margin from the speed and the settle time (R10). -/
def marginOf (v : Int) (settle : Nat) : Nat := ceilThousandth (v.toNat * (settle + 10))

/-- The update of speed, lead and settle margin (R8, R9, R10). It ends the instant of an advance, since a changed lead is
used at the next (R9). -/
def updateSpeed (s : State) : State :=
  let t := advanceTo s.line.speedDue s
  let v := speedOf (signedDiff s.line.count s.line.speedRef)
  t.setLine { t.line with
    speed := v, speedRef := s.line.count, lead := leadOf v s.stationSettings.delay
    margin := marginOf v s.lineSettings.settle, speedDue := s.line.speedDue + Config.speedPeriod, atAdvance := false }

/-- SPEED_UPDATE (R8, R9, R10). -/
def execSpeedUpdate (s : State) : Host.Outcome State Fault Refusal := .next (outsideReset updateSpeed s)

end Sys2Proof.Machine
end

