-- ==== Sys2Proof/Machine/BidEngine.lean ====
section
/-! DEFINITION. The bid engine (chapter 5): judging, beating, the acceptance of the own BID, the grant, and the rows
RETRY_TIMER_EXPIRY, SETTLE_TIMER_EXPIRY, READY_RISE and READY_FALL. -/

namespace Sys2Proof.Machine

/-! ## Beating (R90, R91) -/

/-- The settle time in microseconds. -/
def State.settleTime (s : State) : Nat := s.run.line.settle * Config.ms

/-- The first condition of R90: the peer bid comes before the settle interval of `o` ends, and has strictly higher
precedence. -/
def State.firstBeat (s : State) (o : OwnBid) (y : Rival) : Bool :=
  decide (y.accepted < o.accepted + s.settleTime)
    && precedes y.rank y.tag.owner.toNat o.desc.rank o.desc.tag.owner.toNat

/-- The second condition of R90: the peer bid was nearly settled when the own BID was accepted. -/
def State.secondBeat (s : State) (o : OwnBid) (y : Rival) : Bool :=
  decide (y.accepted < o.accepted) && decide (s.settleTime - Config.beatBand ≤ o.accepted - y.accepted)

/-- The code of BEATEN by a peer bid, when the peer bid beats the own bid: the two records conflict and a condition
of R90 holds; the first condition when both apply (R90, R91). -/
def State.beatCode (s : State) (o : OwnBid) (y : Rival) : Option Nat :=
  match s.record y.tag with
  | none => none
  | some r =>
    if conflict s.run (r.span s.line.highWater) o.span then
      if s.firstBeat o y then some 1 else if s.secondBeat o y then some 2 else none
    else none

/-- The own bid is beaten by the bid of `owner`, with a code (R91, R99). -/
def beaten (o : OwnBid) (owner code : Nat) (s : State) : State :=
  let n := if s.run.line.limit ≤ s.bid.passedOver then s.bid.passedOver else s.bid.passedOver + 1
  let t := dropOwnRecord o.desc.tag (enqueue (.recall o.desc.tag) (s.setBid { s.bid with passedOver := n }))
  raise (descEvent .beaten o.desc (some code) (some owner) (some n)) (endOwn t)

/-- The first entry of a list of rivals that beats the own bid (log 14). -/
def State.firstBeater (s : State) (o : OwnBid) : List Rival → Option (Rival × Nat)
  | [] => none
  | y :: ys => match s.beatCode o y with | some c => some (y, c) | none => s.firstBeater o ys

/-- A peer BID accepted while the own bid is SETTLING is judged against it (R90). -/
def judgePeerBid (y : Rival) (s : State) : State :=
  match s.bid.own with
  | some o =>
    if o.state = .settling then
      match s.beatCode o y with
      | some c => beaten o y.tag.owner.toNat c s
      | none => s
    else s
  | none => s

/-- A peer BID accepted while the own bid is QUEUED joins the rival list, in the place of the owner's earlier entry
(R89). -/
def enterRival (y : Rival) (s : State) : State :=
  match s.bid.own with
  | some o =>
    if o.state = .queued then
      s.setBid { s.bid with rivals := s.bid.rivals.filter (fun r => r.tag.owner != y.tag.owner) ++ [y] }
    else s
  | none => s

/-! ## The own BID accepted (R88) -/

/-- The record a BID files (R40). -/
def bidRecord (d : Desc) (tl : Count) (sender : Nat) (own passed : Bool) : Record :=
  { desc := d, tl := tl, state := if d.kind = .spacer then .spacer else .bid, missed := false, passed := passed
    own := own, reporter := sender, measured := none, openFrom := none }

/-- The own record is filed; at a full list it is dropped, and the TRACK_FULL cause joins with its event, while
R88 decides what becomes of the own bid (R51, R81). -/
def fileOwn (r : Record) (s : State) : State :=
  match s.record r.desc.tag with
  | some old => replaceWhole old r s
  | none =>
    if s.track.records.length < Config.trackCapacity then insertNew r s
    else if s.bid.hold.trackFull then s
    else putHold .trackFull true (raise (trackFullEvent r.desc 1) s)

/-- The four ends tried for the own bid at the acceptance of its BID, in the order of R88: a beat, a bump, TRACK_FULL,
READY. Of several records that bump, the first in list order is named (DESIGN CHOICE, log 14). -/
def settleEnds (o : OwnBid) (rivals : List Rival) (s : State) : State :=
  match s.firstBeater o rivals with
  | some (y, c) => beaten o y.tag.owner.toNat c s
  | none =>
    match s.track.records.find? (bumps s o) with
    | some r => recallOwn 7 (some r.desc.tag.owner.toNat) s
    | none =>
      if (s.record o.desc.tag).isNone then recallOwn HoldCause.trackFull.code none s
      else if s.role = .feed ∧ s.feed.ready = false then recallOwn 8 none s
      else s.setBid { s.bid with rivals := [] }

/-- The own BID accepted while the own bid is live: it becomes SETTLING, its record is filed, and the four ends are
tried (R88). -/
def acceptLive (o : OwnBid) (s : State) : State :=
  let o1 := { o with state := .settling, accepted := s.now }
  let t := s.setBid { s.bid with own := some o1 }
  settleEnds o1 s.bid.rivals (fileOwn (bidRecord o.desc o.window s.number true false) t)

/-- An accepted own BID that is no longer the live own bid: it is filed like any BID, recalled and removed (R88).
Where it is the BID of the cancelling own bid, the withdrawal is complete (R95). TRACK_FULL, of the track list, enters the
FIFO before UNLOADED, of the feed sequencer, and this before an MSG_DROPPED, of the link controller, for the RECALL's room
(R109, R155; R191 leaves the order open: DESIGN CHOICE, log 8). -/
def acceptOrphan (d : Desc) (tl : Count) (s : State) : State :=
  let t := fileRecord (bidRecord d tl s.number true false) 1 s
  let u := match t.bid.own with
    | some o => if o.state = .queued ∧ o.cancelling = true ∧ o.desc.tag = d.tag then endOwn t else t
    | none => t
  dropOwnRecord d.tag (enqueue (.recall d.tag) u)

/-- The own BID accepted (R40, R88). -/
def acceptOwnBid (d : Desc) (tl : Count) (s : State) : State :=
  match s.bid.own with
  | some o =>
    if o.state = .queued ∧ o.cancelling = false ∧ o.desc.tag = d.tag then acceptLive o s else acceptOrphan d tl s
  | none => acceptOrphan d tl s

/-! ## Grant (R93, R101) -/

/-- A granted spacer is handed to the outfeed director as placed, and the own bid returns to NONE (R101, R141). It is PLACED
too where its record has already left the list (DESIGN CHOICE, log 48). -/
def placeSpacer (o : OwnBid) (s : State) : State :=
  let t := s.setStream o.serves { s.outfeed.streams.get o.serves with spacer := .placed o.desc.tag }
  endOwn (t.setBid { t.bid with request := none })

/-- The landing of a bid is closer than the current lead (R93). -/
def State.tooClose (s : State) (o : OwnBid) : Bool := decide (signedDiff o.landing s.line.count < s.line.lead)

/-- The grant of a SETTLING own bid at the end of its settle interval (R93). -/
def grant (o : OwnBid) (s : State) : State :=
  if o.desc.kind = .spacer then placeSpacer o s
  else if s.tooClose o then recallOwn 6 none s
  else s.setBid { s.bid with own := some { o with state := .granted } }

/-- SETTLE_TIMER_EXPIRY (R93): the time base stands at the acceptance time plus the settle time, or later. -/
def execSettleTimerExpiry (s : State) : Host.Outcome State Fault Refusal :=
  match s.bid.own with
  | some o =>
    if o.state = .settling then .next (finish (grant o (advanceTo (o.accepted + s.settleTime) s))) else .next s
  | none => .next s

/-- RETRY_TIMER_EXPIRY (R84): a new search from a new TL0. -/
def execRetryTimerExpiry (s : State) : Host.Outcome State Fault Refusal :=
  match s.bid.retry with
  | some t =>
    let u := advanceTo t s
    .next (finish (u.setBid { u.bid with retry := none }))
  | none => .next s

/-! ## READY (R96, R111) -/

/-- READY_RISE (R111): an arrival for eligibility (R78). -/
def execReadyRise (s : State) : Host.Outcome State Fault Refusal :=
  .next (finish (s.setFeed { s.feed with ready := true }))

/-- READY_FALL (R111): at a FEED station a SETTLING or GRANTED own bid is recalled with code READY (R96). -/
def execReadyFall (s : State) : Host.Outcome State Fault Refusal :=
  let t := s.setFeed { s.feed with ready := false }
  if s.feed.ready = true ∧ s.role = .feed then .next (finish (recallLanding 8 t)) else .next t

end Sys2Proof.Machine
end

