-- ==== Sys2Proof/Machine/Peers.lean ====
section
/-! DEFINITION. The peer table and the passage to ACTIVE (chapter 9): the hand-over at acceptance, and the rows
PEER_TTL_EXPIRY, HAIL_TIMER_EXPIRY, JOIN_TRAVEL_COMPLETE. -/

namespace Sys2Proof.Machine

/-- The entry of a station number (R165). -/
def State.peer (s : State) (n : Nat) : Option Peer := s.peers.entries.find? (fun p => p.number == n)

/-- An entry with another content. -/
def putPeer (p : Peer) (s : State) : State :=
  s.setPeers { s.peers with entries := s.peers.entries.map (fun q => if q.number = p.number then p else q) }

/-- Some entry is in state MISMATCH (R169). -/
def PeerTable.anyMismatch (t : PeerTable) : Bool := t.entries.any (fun p => p.state == .mismatch)

/-- The MISMATCH cause follows the number of MISMATCH entries (R169). At an acceptance it does so, and the own bid reacts
(R81), before the frame's message is acted on (DESIGN CHOICE, log 52). -/
def followMismatch (s : State) : State :=
  if s.peers.anyMismatch then holdJoin .mismatch s
  else if s.bid.hold.mismatch then holdLeave .mismatch s
  else s

/-- The first setting in which a peer differs from the station, in the order of R164: its code and the peer's value
(R168, section 11.5). -/
def firstDifference (f : Figures) (h : Hailed) : Option (Nat × Nat) :=
  if h.cpm ≠ f.line.cpm then some (1, h.cpm)
  else if h.lineLanes ≠ f.line.lanes then some (2, h.lineLanes)
  else if h.lotBreak ≠ f.line.lotBreak then some (3, h.lotBreak)
  else if h.strayGap ≠ f.line.strayGap then some (4, h.strayGap)
  else if h.settle ≠ f.line.settle then some (5, h.settle)
  else none

/-- PEER_JOINED (R165); the role is given where a HAIL has given one (log 21). -/
def joinedEvent (n : Nat) (h : Option Hailed) (code : Nat) : Event :=
  { kind := .peerJoined, a := some n, b := (h.bind Hailed.role).map (fun r => (r.code : Int)), code := some code }

/-- PEER_MISMATCH for a peer that has become MISMATCH (R168). -/
def raiseMismatch (n : Nat) (h : Option Hailed) (s : State) : State :=
  match h.bind (firstDifference s.run) with
  | some (c, v) => raise { kind := .peerMismatch, a := some n, b := some v, code := some c } s
  | none => raise { kind := .peerMismatch, a := some n } s

/-- The entry an accepted frame leaves: its figures when it is a HAIL, and a fresh TTL (R165, R168). -/
def Peer.heard (f : Figures) (now : Nat) (hail : Option Hailed) (p : Peer) : Peer :=
  match hail with
  | some h => { p with hailed := some h, differs := (firstDifference f h).isSome, ttlEnds := now + Config.ttlTime }
  | none => { p with ttlEnds := now + Config.ttlTime }

/-- The state of a heard entry (R167, R168). A frame that is no HAIL leaves PRESENT and MISMATCH as they are. -/
def Peer.heardState (hail : Option Hailed) (p : Peer) : PeerState :=
  if hail.isSome ∨ p.state = .silent then (if p.differs then .mismatch else .present) else p.state

/-- The events of a held entry that an accepted frame reaches: RETURNED from SILENT, MATCHED from MISMATCH, and
PEER_MISMATCH on becoming MISMATCH (R167, R168). Where the frame is a HAIL, PEER_JOINED shows the role that this HAIL gives
(R165; DEDUCED, log 21). -/
def peerEvents (old new : Peer) (s : State) : State :=
  let s1 := if old.state = .silent then raise (joinedEvent new.number new.hailed 2) s
    else if old.state = .mismatch ∧ new.state = .present then raise (joinedEvent new.number new.hailed 3) s
    else s
  if old.state ≠ .mismatch ∧ new.state = .mismatch then raiseMismatch new.number new.hailed s1 else s1

/-- An accepted frame of another station handed to the peer table (R165 to R169), before the other blocks (DESIGN CHOICE,
log 52). -/
def peerHeard (sender : Nat) (hail : Option Hailed) (s : State) : State :=
  match s.peer sender with
  | none =>
    let p0 : Peer := { number := sender, state := .present, hailed := none, differs := false, ttlEnds := 0 }
    let p1 := p0.heard s.run s.now hail
    let p2 := { p1 with state := p1.heardState hail }
    let t := raise (joinedEvent sender p2.hailed 1) (s.setPeers { s.peers with entries := s.peers.entries ++ [p2] })
    followMismatch (if p2.state = .mismatch then raiseMismatch sender p2.hailed t else t)
  | some p =>
    let p1 := p.heard s.run s.now hail
    let p2 := { p1 with state := p1.heardState hail }
    followMismatch (peerEvents p p2 (putPeer p2 s))

/-- A peer leaves the deferral set (R100). -/
def leaveDeferral (n : Nat) (s : State) : State :=
  s.setBid { s.bid with deferral := s.bid.deferral &&& ~~~(stationBit n) }

/-- PEER_TTL_EXPIRY of a station's entry (R166). -/
def execPeerTtlExpiry (station : BitVec 4) (s : State) : Host.Outcome State Fault Refusal :=
  match s.peer station.toNat with
  | some p =>
    if s.station = .setup ∨ p.state = .silent then .next s
    else
      let t := putPeer { p with state := .silent } (advanceTo p.ttlEnds s)
      let code := if p.state = .mismatch then 3 else 1
      .next (finish (followMismatch (leaveDeferral p.number
        (raise { kind := .peerSilent, a := some p.number, code := some code } t))))
  | none => .next s

/-- HAIL_TIMER_EXPIRY (R163): a HAIL is queued or skipped, and the timer restarted. -/
def execHailTimerExpiry (s : State) : Host.Outcome State Fault Refusal :=
  match s.peers.hailTimer with
  | some t =>
    if s.station = .joining ∨ s.station = .active then
      .next (enqueue .hail ((advanceTo t s).setPeers { s.peers with hailTimer := some (t + Config.hailTime) }))
    else .next s
  | none => .next s

/-- The number of records, and of PRESENT peers, as ACTIVE reports them (R171). -/
def activeEvent (s : State) : Event :=
  { kind := .active, a := some s.track.records.length
    b := some (s.peers.entries.filter (fun p => p.state == .present)).length }

/-- A throat whose jam was declared while joining announces it (R131). -/
def announceJam (s : State) : State :=
  if s.throat.jammed ∧ s.throat.announced = false then
    enqueue .jam (s.setThroat { s.throat with announced := true })
  else s

/-- Entry to ACTIVE (R171, R172). ACTIVE, of the peer table, enters the FIFO before an MSG_DROPPED of the link controller
(R191; DESIGN CHOICE, log 8). -/
def enterActive (s : State) : State := announceJam (raise (activeEvent s) (s.setStation .active))

/-- The join travel is complete at this advance (R171). -/
def State.joinComplete (s : State) : Bool :=
  s.line.atAdvance && s.station == .joining && decide (s.run.join ≤ s.peers.joined)

/-- JOIN_TRAVEL_COMPLETE (R171). -/
def execJoinTravelComplete (s : State) : Host.Outcome State Fault Refusal :=
  if s.joinComplete then .next (finish (enterActive s)) else .next s

end Sys2Proof.Machine
end

