-- ==== Sys2Proof/Machine/Throat.lean ====
section
/-! DEFINITION. The throat monitor (sections 7.1 to 7.4): JAM_CONDITION. -/

namespace Sys2Proof.Machine

/-- The blocked distance of a lane, when it is BLOCKED (R126). -/
def State.blockedDistance (s : State) (k : Fin 4) : Option Int :=
  (s.throat.bases.get k).map (fun c => signedDiff s.line.highWater c)

/-- The record bound to a lane by a sighting opened by a match (R127). -/
def State.jamRecord (s : State) (k : Fin 4) : Option Record :=
  match s.boundTo k with
  | some g => if g.stray then none else s.record g.tag
  | none => none

/-- The jam limit of a lane (R127). -/
def State.jamLimit (s : State) (k : Fin 4) : Int :=
  match s.jamRecord k with
  | some r => s.expectedLength r.desc + s.run.jam
  | none => s.run.unbound + s.run.jam

/-- A lane meets the jam condition, with its blocked distance (R127). -/
def State.jamAt (s : State) (k : Fin 4) : Option (Fin 4 × Int) :=
  match s.blockedDistance k with
  | some x => if s.jamLimit k < x then some (k, x) else none
  | none => none

/-- The jam condition at this advance, after the eye unit's work, for the lowest-numbered lane that meets it (R125,
R127). -/
def State.jamFound (s : State) : Option (Fin 4 × Int) :=
  if s.acting = true ∧ s.edgesTaken = true ∧ s.role = .throat ∧ s.throat.jammed = false then four.findSome? s.jamAt
  else none

/-- The event JAM of a lane (R128). A lane bound to a stray's sighting has no expected length and shows UNBOUND, as R127
gives it the unbound limit (DEDUCED, log 41). -/
def State.jamEvent (s : State) (k : Fin 4) (x : Int) : Event :=
  match s.jamRecord k with
  | some r => descEvent .jam r.desc (some 1) (some (k.val + 1)) (some x)
  | none => { kind := .jam, a := some (k.val + 1), b := some x, code := some 2 }

/-- A jam is declared: JAMMED, the relay energised, the event, and in ACTIVE the JAM message (R128). JAM, of the throat
monitor, enters the FIFO before an MSG_DROPPED of the link controller (R191; DESIGN CHOICE, log 8). -/
def declareJam (k : Fin 4) (x : Int) (s : State) : State :=
  let t := raise (s.jamEvent k x) (s.setThroat { s.throat with jammed := true, relay := true })
  if s.station = .active then enqueue .jam (t.setThroat { t.throat with announced := true }) else t

/-- JAM_CONDITION (R127). -/
def execJamCondition (s : State) : Host.Outcome State Fault Refusal :=
  match s.jamFound with
  | some (k, x) => .next (finish (declareJam k x s))
  | none => .next s

/-- Each lane that is BLOCKED takes the high-water count as its block base (R125). -/
def rebase (s : State) : State :=
  if s.role = .throat then
    s.setThroat { s.throat with bases := s.eye.eyes.mapAt (fun _ e =>
      if e.state = .blocked then some s.line.highWater else none) }
  else s

/-- The jam of a throat is released: CLEAR, the relay off, the lanes rebased, and in ACTIVE the message queued (R129). -/
def releaseJam (s : State) : State :=
  let t := rebase (s.setThroat { s.throat with jammed := false, announced := false, relay := false })
  if s.station = .active then enqueue .jamRelease t else t

end Sys2Proof.Machine
end

