-- ==== Sys2Proof/Machine/Stations.lean ====
section
/-! DEFINITION. What reaches every block at once: the entry to SETUP at LEAVE, START, full reset, the entry to FAULT,
and an accepted PURGE (the reset tables R14, R55, R76, R103, R123, R132, R143, R162, R174, R192). -/

namespace Sys2Proof.Machine

/-! ## LEAVE (R183) -/

/-- The event LEFT (R183). -/
def leftEvent (s : State) : Event :=
  { kind := .left, a := some s.station.code, b := some s.track.records.length }

/-- A stack stream at LEAVE and at START: only its lanes, its serial and how its last stack closed stay (R143). -/
def Stream.idle (x : Stream) : Stream :=
  { x with current := none, passed := 0, spacer := .none, closure := none }

/-- The outfeed director with every output off and nothing held (R143). -/
def OutfeedDirector.idle (o : OutfeedDirector) : OutfeedDirector :=
  { OutfeedDirector.reset with streams := o.streams.mapAt (fun _ x => x.idle) }

/-- The feed sequencer at LEAVE: every position EMPTY, a running sequence left to the outputs alone (R122). -/
def FeedSequencer.left (f : FeedSequencer) : FeedSequencer :=
  { f with positions := Quad.fill .none, returned := none, fire := f.fire.map (fun q => { q with position := none }) }

/-- The width sampler stopped without event (R122). -/
def WidthSampler.stopped (w : WidthSampler) (now : Nat) : WidthSampler :=
  { w.abandon now with phase := .idle, piece := none, pending := none }

/-- Entry to SETUP: every block takes the state its chapter gives for LEAVE, and LEFT is raised (R160, R183). -/
def enterSetup (s : State) : State :=
  let t := raise (leftEvent s) s
  let u := (t.setStation .setup).setLeaving false
  let u := (u.setLine { s.line with excursion := false, atAdvance := false }).setRecords []
  let u := (u.setEye .reset).setBid .reset
  let u := (u.setFeed s.feed.left).setWidth (s.width.stopped s.now)
  let u := (u.setThroat .reset).setOutfeed s.outfeed.idle
  (u.setLink .reset).setPeers .reset

/-- A station that waits to leave enters SETUP when no attempt is in flight (R160). -/
def leaveIfDue (s : State) : State := if s.leaving && s.sending.isNone then enterSetup s else s

/-! ## START (R182) -/

/-- The hold set START leaves: LINE_DOWN, with OPERATOR when a HOLD has set it (R79). -/
def HoldSet.atStart (h : HoldSet) : HoldSet := { HoldSet.empty with operator := h.operator, lineDown := true }

/-- Each watched eye takes its input's level, with no pending edge (R57). -/
def startEyes (lanes eyes : Lanes) : Quad Eye :=
  (Quad.fill Eye.idle).mapAt (fun k e =>
    if hasLane lanes k then { state := if hasLane eyes k then .blocked else .clear, edge := none } else e)

/-- The block bases of a throat at START (R125). -/
def startBases (f : Figures) (eyes : Lanes) (count : Count) : Quad (Option Count) :=
  (Quad.fill none).mapAt (fun k b =>
    if f.station.role = .throat ∧ hasLane f.lanes k = true ∧ hasLane eyes k = true then some count else b)

/-- The streams START forms: new lanes, the serial and the last stack kept (R133, R143). -/
def startStreams (f : Figures) (q : Quad Stream) : Quad Stream :=
  q.mapAt (fun i x => { x.idle with lanes := (streamLanes f).get i })

/-- The time at which the line has lain undriven for 40 µs at a receiver that begins to listen now, when the line lies
undriven since `lineFree` (R160; DESIGN CHOICE, log 42). -/
def State.quietAtStart (s : State) (lineFree : Nat) : Nat := max s.now lineFree + Config.startQuiet

/-- START taken: the station enters JOINING and every block takes up its figures and its state (R182). -/
def startStation (eyes : Lanes) (lineFree : Nat) (s : State) : State :=
  let f := s.store.figures
  let t := (s.setRun f).setStation .joining
  let t := t.setLine { s.line with highWater := s.line.count, excursion := false, atAdvance := false }
  let t := (t.setRecords []).setEye { eyes := startEyes f.lanes eyes, sightings := [] }
  let t := t.setBid { BidEngine.reset with hold := s.bid.hold.atStart }
  let t := t.setThroat { ThroatMonitor.reset with bases := startBases f eyes s.line.count }
  let t := t.setOutfeed { OutfeedDirector.reset with streams := startStreams f s.outfeed.streams }
  let t := t.setLink { LinkController.reset with quiet := some (s.quietAtStart lineFree), listenFrom := s.now }
  let t := t.setPeers { PeerTable.reset with hailTimer := some (s.now + Config.hailTime) }
  enqueue .hail t

/-! ## Full reset (R185) -/

/-- Full reset: every block in its full-reset state, and the port free to take a transaction. The commands that wait, and
the level on the READY pin, are outside the part and stay (log 36). -/
def fullReset (s : State) : State :=
  (State.reset.setFeed { FeedSequencer.reset with ready := s.feed.ready }).setPending s.pending

/-! ## Entry to FAULT (R102, R159, R163) -/

/-- Every WAITING entry, and a BID waiting outside, is cancelled (R159, R160). -/
def cancelWaiting (s : State) : State :=
  s.setLink { s.link with outbox := s.link.outbox.filter (fun e => e.sending), waitingBid := none }

/-- The own bid ended at the entry to FAULT, in any state and with no message queued (R102). A QUEUED bid that is cancelling
has had its RECALLED, and ends without a second one (R81, R109; DESIGN CHOICE, log 38). -/
def faultOwn (s : State) : State :=
  match s.bid.own with
  | none => s
  | some o =>
    match o.state with
    | .queued => if o.cancelling then endOwn s else endOwn (raise (recalledEvent o 12 none) s)
    | .settling | .granted => endOwn (raise (recalledEvent o 12 none) (dropOwnRecord o.desc.tag s))
    | .fired => endOwn (raise { kind := .unconfirmed, code := some 3 } s)

/-- The event FAULT, with the kind of the frame as its code (R159). -/
def faultEvent (k : MsgKind) : Event := { kind := .fault, code := some (kindValue k) }

/-- Entry to FAULT (R102, R159, R163). FAULT, of the link controller, enters the FIFO before RECALLED or UNCONFIRMED, of
the bid engine, which R191 leaves open (DESIGN CHOICE, log 8). -/
def enterFault (k : MsgKind) (s : State) : State :=
  let t := faultOwn (cancelWaiting (raise (faultEvent k) s))
  (t.setPeers { t.peers with hailTimer := none }).setStation .fault

/-! ## An accepted PURGE (R161) -/

/-- The kinds of message a PURGE cancels (R161). -/
def purgedKind (k : MsgKind) : Bool :=
  match k with
  | .recall | .void | .jam | .bid | .sightingSeen | .sightingMissed | .sightingStray => true
  | .jamRelease | .purge | .hail => false

/-- The outbox after a PURGE: WAITING entries of the purged kinds gone, a SENDING one marked cancelling (R161). -/
def purgeOutbox (l : List Entry) : List Entry :=
  (l.filter (fun e => e.sending || !purgedKind e.msg.kind)).map (fun e =>
    if purgedKind e.msg.kind then { e with cancelling := true } else e)

/-- The own bid at a PURGE: a QUEUED bid whose frame is SENDING stays and is cancelling, any other bid is dropped
without an event (R103). -/
def purgeOwn (s : State) : State :=
  match s.bid.own with
  | none => s
  | some o =>
    if o.state = .queued ∧ s.link.waitingBid = none ∧ s.bidSending = true then
      s.setBid { s.bid with own := some { o with cancelling := true }, rivals := [] }
    else endOwn s

/-- The bid engine's other state at a PURGE (R103). -/
def BidEngine.purged (b : BidEngine) : BidEngine :=
  { b with rivals := [], request := none, retry := none, passedOver := 0, deferral := 0, jamming := 0
           hold := { b.hold with jam := false, trackFull := false } }

/-- The outfeed director at a PURGE: pulses and the fold queue run on (R143). -/
def OutfeedDirector.purged (o : OutfeedDirector) : OutfeedDirector :=
  { o with streams := o.streams.mapAt (fun _ x => x.idle), queue := [], underEye := [] }

/-- The width sampler at a PURGE: a piece in hand or pending is dropped (R120, R123). -/
def WidthSampler.purged (w : WidthSampler) (now : Nat) : WidthSampler := { w.abandon now with pending := none }

/-- PURGED, with the PURGE's sender (R161). -/
def purgedEvent (sender : Nat) : Event := { kind := .purged, a := some sender }

/-- An accepted PURGE at every block (R45, R75, R103, R120, R123, R132, R143, R161). PURGED, of the link
controller, enters the FIFO before the UNLOADED of a marked position (R191; DESIGN CHOICE, log 8). -/
def purgeAll (sender : Nat) (s : State) : State :=
  let t := purgeOwn (raise (purgedEvent sender) s)
  let t := (t.setLink { t.link with outbox := purgeOutbox t.link.outbox, waitingBid := none }).setRecords []
  let t := (t.setEye { t.eye with sightings := [] }).setBid t.bid.purged
  let t := (t.setWidth (t.width.purged t.now)).setOutfeed t.outfeed.purged
  rebase (t.setThroat { t.throat with jammed := false, announced := false, relay := false })

end Sys2Proof.Machine
end

