-- ==== Sys2Proof/Machine/Acceptance.lean ====
section
/-! DEFINITION. Acceptance of a frame (R150): what the link controller does at it (R158, R159), what each message kind
does (sections 3.3, 5.5, 7.3), and the ten acceptance rows with DUPLICATE_NUMBER. -/

namespace Sys2Proof.Machine

/-! ## The link controller at acceptance (R150, R151, R158) -/

/-- The slot grid starts again: quiet begins 20 µs after the end of the spoil window, which is now, and start bits are
taken again (R149, R151). -/
def restartGrid (s : State) : State :=
  s.setLink { s.link with quiet := some (s.now + Config.windowTime), listenFrom := s.now }

/-- The frame's sender is recorded as the sender of the last accepted frame (R150). -/
def recordSender (n : Nat) (s : State) : State := s.setLink { s.link with lastSender := some n }

/-- Another station was heard: the line-health timer is reloaded, and LINE_DOWN leaves with LINE_UP (R158). LINE_UP enters
the FIFO after the peer table's events and before the message's (R191; DESIGN CHOICE, log 8). -/
def lineHeard (sender : Nat) (s : State) : State :=
  let t := s.setLink { s.link with health := some (s.now + Config.healthTime) }
  if t.bid.hold.lineDown then raise { kind := .lineUp, a := some sender } (holdLeave .lineDown t) else t

/-! ## Taking a frame (R148, R149) -/

/-- The station takes a frame whose first start bit comes at `start`: it listens, no spoil window stands, and no attempt
of its own has begun by then (R148, R149). -/
def State.takesFrame (s : State) (start : Nat) : Bool :=
  s.station != .setup && decide (s.link.listenFrom ≤ start) && (s.sending.isNone || decide (start < s.link.began))

/-- The time from the first start bit of a frame of a kind to the end of its spoil window (R145, R150). -/
def frameTime (k : MsgKind) : Nat := Config.byteTime * (payloadLength k + 5) + Config.windowTime

/-- The station took the frame of a kind whose spoil window ends at `time` (R149). -/
def State.tookFrame (s : State) (k : MsgKind) (time : Nat) : Bool :=
  decide (frameTime k ≤ time) && s.takesFrame (time - frameTime k)

/-! ## What each message does (sections 3.3, 5.8, 7.3) -/

/-- The passed-own-eye flag of a record that a message creates or replaces (R37, R170). -/
def State.passedAtFiling (s : State) (sender : Nat) (tl : Count) : Bool :=
  (match (s.peer sender).bind Peer.hailed with
    | some h => decide (h.eye < s.run.eyeMm)
    | none => false)
  || later s.line.count (plus tl (s.run.tolerance - s.run.eye))

/-- An accepted BID of another station: filed, and judged as a rival or a settling competitor (R40, R89, R90). One that is
dropped at the full list has no record to beat a bid with, and TRACK_FULL recalls the own bid (R51, R81; DEDUCED, log 53). -/
def bidEffect (d : Desc) (tl : Count) (sender : Nat) (s : State) : State :=
  let t := fileRecord (bidRecord d tl sender false (s.passedAtFiling sender tl)) 1 s
  let y : Rival := { tag := d.tag, rank := d.rank, accepted := t.now }
  judgePeerBid y (enterRival y t)

/-- The record that a SIGHTING SEEN creates under an unknown tag; `j` is its reject (R41). -/
def seenRecord (d : Desc) (j : Reject) (tl : Count) (measured sender : Nat) (passed : Bool) : Record :=
  { desc := { d with reject := j, rank := .normal }, tl := tl, state := if d.kind = .stray then .stray else .seen
    missed := false, passed := passed, own := false, reporter := sender, measured := some measured, openFrom := none }

/-- A held record as a SIGHTING SEEN leaves it; `j` is the combined reject (R41). -/
def seenChange (r : Record) (j : Reject) (tl : Count) (measured sender : Nat) : Record :=
  { r with desc := { r.desc with reject := j }, tl := tl, measured := some measured
           state := if r.state = .bid then .seen else r.state, missed := false, reporter := sender }

/-- A STRAY reject carried for a record that is no stray has no column in R25, and a record that is not DOUBLE takes a
free value for it (log 16). -/
def usesFree (held carried : Reject) : Bool := carried == .stray && held != .stray && held != .double

/-- A free value was taken: the next one is another (log 16). -/
def takeFree (used : Bool) (s : State) : State :=
  if used then s.setTrack { s.track with free := s.track.free + 1 } else s

/-- The reject of a record that a SIGHTING SEEN creates: that of a stray is STRAY, and any other is combined with NONE,
which leaves a free value where the SIGHTING carries STRAY (R25, R41; DESIGN CHOICE, log 16). -/
def State.createdReject (s : State) (d : Desc) : Reject :=
  if d.kind = .stray then .stray else combine (Config.freeReject s.track.free) .none d.reject

/-- SIGHTING SEEN at the track list (R41). -/
def fileSeen (d : Desc) (tl : Count) (measured sender : Nat) (s : State) : State :=
  match s.record d.tag with
  | some r =>
    if r.state = .spacer then s
    else
      let j := combine (Config.freeReject s.track.free) r.desc.reject d.reject
      changeRecord r (seenChange r j tl measured sender) (takeFree (usesFree r.desc.reject d.reject) s)
  | none =>
    if d.kind = .spacer then s
    else
      fileRecord (seenRecord d (s.createdReject d) tl measured sender (s.passedAtFiling sender tl)) 2
        (takeFree (d.kind != .stray && usesFree .none d.reject) s)

/-- The own SIGHTING SEEN about the fired tag confirms the fired bid (R98). -/
def confirm (d : Desc) (measured : Nat) (s : State) : State :=
  if s.ownIs .fired d.tag then
    raise { kind := .confirmed, a := some measured, code := some (rejectCode d.reject) } (endOwn s)
  else s

/-- SIGHTING SEEN at the bid engine: the own one may confirm (R98), a peer's about its own tag ends its deferral
(R100). -/
def seenBid (d : Desc) (measured sender : Nat) (s : State) : State :=
  if sender = s.number then confirm d measured s
  else if d.tag.owner.toNat = sender then leaveDeferral sender s
  else s

/-- An accepted SIGHTING SEEN (R41, R98, R100). -/
def seenEffect (d : Desc) (tl : Count) (measured sender : Nat) (s : State) : State :=
  seenBid d measured sender (fileSeen d tl measured sender s)

/-- The record that a SIGHTING STRAY creates (R42). -/
def strayRecord (d : Desc) (tl : Count) (sender : Nat) (passed : Bool) : Record :=
  { desc := { d with reject := .stray, rank := .normal }, tl := tl, state := .stray, missed := false, passed := passed
    own := false, reporter := sender, measured := some d.length, openFrom := none }

/-- A held STRAY record as a SIGHTING STRAY leaves it (R42). -/
def strayChange (r : Record) (tl : Count) (length sender : Nat) : Record :=
  { r with desc := { r.desc with length := length }, tl := tl, measured := some length, missed := false
           reporter := sender }

/-- An accepted SIGHTING STRAY (R42). -/
def strayEffect (d : Desc) (tl : Count) (sender : Nat) (s : State) : State :=
  match s.record d.tag with
  | some r =>
    if r.state = .stray then changeRecord r (strayChange r tl d.length sender) s
    else fileRecord (strayRecord d tl sender (s.passedAtFiling sender tl)) 3 s
  | none => fileRecord (strayRecord d tl sender (s.passedAtFiling sender tl)) 3 s

/-- An accepted SIGHTING MISSED (R43). -/
def missedEffect (tag : Tag) (sender : Nat) (s : State) : State :=
  match s.record tag with
  | some r => if r.state = .spacer then s else countMiss r sender s
  | none => s

/-- An accepted RECALL or VOID: acted on only from the tag's owner (R44). -/
def withdrawEffect (tag : Tag) (sender : Nat) (s : State) : State :=
  if tag.owner.toNat = sender then removeRecord tag s else s

/-- An accepted JAM (R80, R130). JAM_HELD, of the throat monitor, enters the FIFO before the RECALLED of the bid engine
that the JAM cause brings (R81), which R191 leaves open (DESIGN CHOICE, log 8). -/
def jamEffect (sender : Nat) (s : State) : State :=
  if hasStation s.bid.jamming sender then s
  else
    holdJoin .jam (raise { kind := .jamHeld, a := some sender }
      (s.setBid { s.bid with jamming := s.bid.jamming ||| stationBit sender }))

/-- The JAM cause leaves with the last member of the jamming set (R80). -/
def relieveJam (s : State) : State := if s.bid.jamming = 0 then holdLeave .jam s else s

/-- An accepted JAM RELEASE (R80, R130). -/
def jamReleaseEffect (sender : Nat) (s : State) : State :=
  if hasStation s.bid.jamming sender then
    relieveJam (raise { kind := .jamReleased, a := some sender }
      (s.setBid { s.bid with jamming := s.bid.jamming &&& ~~~(stationBit sender) }))
  else s

/-! ## The station's own frame accepted (R39, R152, R165) -/

/-- What the station's own message does here: it takes the throat count it was composed with (R39). -/
def ownEffect (m : Msg) (s : State) : State :=
  match m with
  | .recall t => withdrawEffect t s.number s
  | .void t => withdrawEffect t s.number s
  | .jam => jamEffect s.number s
  | .jamRelease => jamReleaseEffect s.number s
  | .purge => purgeAll s.number s
  | .bid d tl => acceptOwnBid d tl s
  | .seen d tl n => seenEffect d tl n s.number s
  | .missed d _ => missedEffect d.tag s.number s
  | .stray d tl => strayEffect d tl s.number s
  | .hail => s

/-- The SENDING entry leaves the outbox, and the frame is no longer driven (R154). -/
def endSending (s : State) : State :=
  s.setLink { s.link with outbox := s.link.outbox.filter (fun e => !e.sending), frame := [] }

/-- The attempt in flight at a waiting LEAVE ends: a position marked for unloading is emptied without UNLOADED, as LEAVE
empties every position (R109, R122). -/
def dropMarks (s : State) : State :=
  if s.leaving then
    s.setFeed { s.feed with positions := s.feed.positions.mapAt (fun _ p => if p.unloading then .none else p) }
  else s

/-- The own frame accepted: its message SENT, its effect here, and the entry to SETUP where LEAVE waits (R150, R160). -/
def acceptOwn (m : Msg) (s : State) : State :=
  finish (leaveIfDue (ownEffect m (recordSender s.number (restartGrid (endSending (dropMarks s))))))

/-! ## Every accepted frame (R150, R159) -/

/-- A frame with the own number that this station did not send (R159). -/
def duplicate (k : MsgKind) (s : State) : State :=
  let t := restartGrid s
  if s.station = .fault then t else finish (enterFault k t)

/-- The SENDING entry that a frame of a kind, about a tag, is the frame of. -/
def State.sendingOf (s : State) (k : MsgKind) (tag : Option Tag) : Option Entry :=
  match s.sending with
  | some e => if e.msg.kind = k ∧ e.msg.tag? = tag then some e else none
  | none => none

/-- A frame accepted from another station: the peer table, the link controller, then the message (R150, R165). The spec
gives no order between them. Where a frame that is no HAIL returns a SILENT peer as MISMATCH (R167) and its message would
end the own bid too, by a beat, a bump, TRACK_FULL, JAM, a withdrawn spacer or a PURGE, the recall for MISMATCH comes first
and the message finds no such bid: no BEATEN, and the passed-over count unchanged (DESIGN CHOICE, log 52). -/
def acceptPeer (n : Nat) (hail : Option Hailed) (effect : State → State) (s : State) : State :=
  finish (effect (lineHeard n (recordSender n (restartGrid (peerHeard n hail s)))))

/-- A frame accepted (R150): nothing in SETUP, where the receiver is idle, and no frame names sender 0 (R148, R149).
A frame with the own number is the one in flight, or shows a duplicate (R159, log 11). A payload of another length than
the kind has is a length error, and a frame whose first start bit the station did not take reaches it in no part: neither
is accepted (R149). -/
def accept (h : Heard) (k : MsgKind) (payload : List Byte) (tag : Option Tag) (hail : Option Hailed)
    (effect : State → State) (s : State) : State :=
  if s.station = .setup ∨ h.sender = 0 ∨ payload.length ≠ payloadLength k then s
  else
    let t := advanceTo h.time s
    if h.sender.toNat = s.number then
      match t.sendingOf k tag with
      | some e => acceptOwn e.msg t
      | none => if s.tookFrame k h.time then duplicate k t else s
    else if s.tookFrame k h.time then acceptPeer h.sender.toNat hail effect t
    else s

/-- The TL of a carried throat distance: this station's line count at acceptance plus the distance (R39). -/
def State.carriedTl (s : State) (p : Placed) : Count := plus s.line.count p.distance.toInt

/-! ## The rows -/

/-- BID (R40). -/
def execBid (h : Heard) (payload : List Byte) (s : State) : Host.Outcome State Fault Refusal :=
  let p := placedAt payload
  .next (accept h .bid payload (some p.desc.tag) none (fun t =>
    match readBid t.run.lineLanes h.sender.toNat p.desc with
    | some d => bidEffect d (t.carriedTl p) h.sender.toNat t
    | none => t) s)

/-- SIGHTING_SEEN (R41): its two operands are the payload's bytes, one after the other (R193). -/
def execSightingSeen (h : Heard) (payload measured : List Byte) (s : State) : Host.Outcome State Fault Refusal :=
  let p := placedAt (payload ++ measured)
  .next (accept h .sightingSeen (payload ++ measured) (some p.desc.tag) none (fun t =>
    match readDesc t.run.lineLanes p.desc with
    | some d => seenEffect d (t.carriedTl p) (measuredAt (payload ++ measured)) h.sender.toNat t
    | none => t) s)

/-- SIGHTING_MISSED (R43). -/
def execSightingMissed (h : Heard) (payload : List Byte) (s : State) : Host.Outcome State Fault Refusal :=
  let p := placedAt payload
  .next (accept h .sightingMissed payload (some p.desc.tag) none (fun t =>
    match readDesc t.run.lineLanes p.desc with
    | some d => missedEffect d.tag h.sender.toNat t
    | none => t) s)

/-- SIGHTING_STRAY (R42). -/
def execSightingStray (h : Heard) (payload : List Byte) (s : State) : Host.Outcome State Fault Refusal :=
  let p := placedAt payload
  .next (accept h .sightingStray payload (some p.desc.tag) none (fun t =>
    match readStray t.run.lineLanes p.desc with
    | some d => strayEffect d (t.carriedTl p) h.sender.toNat t
    | none => t) s)

/-- RECALL (R44). -/
def execRecall (h : Heard) (payload : List Byte) (s : State) : Host.Outcome State Fault Refusal :=
  .next (accept h .recall payload (some (tagAt payload)) none (withdrawEffect (tagAt payload) h.sender.toNat) s)

/-- VOID (R44). -/
def execVoid (h : Heard) (payload : List Byte) (s : State) : Host.Outcome State Fault Refusal :=
  .next (accept h .void payload (some (tagAt payload)) none (withdrawEffect (tagAt payload) h.sender.toNat) s)

/-- JAM (R80). -/
def execJam (h : Heard) (s : State) : Host.Outcome State Fault Refusal :=
  .next (accept h .jam [] none none (jamEffect h.sender.toNat) s)

/-- JAM_RELEASE_ACCEPTED (R130). -/
def execJamReleaseAccepted (h : Heard) (s : State) : Host.Outcome State Fault Refusal :=
  .next (accept h .jamRelease [] none none (jamReleaseEffect h.sender.toNat) s)

/-- PURGE (R161). -/
def execPurge (h : Heard) (s : State) : Host.Outcome State Fault Refusal :=
  .next (accept h .purge [] none none (purgeAll h.sender.toNat) s)

/-- HAIL (R168): the peer table takes its figures, and no other block acts on it. -/
def execHail (h : Heard) (payload : List Byte) (s : State) : Host.Outcome State Fault Refusal :=
  .next (accept h .hail payload none (some (readHail (hailAt payload))) id s)

/-- DUPLICATE_NUMBER (R159): of a frame this station took (R149). -/
def execDuplicateNumber (time : Nat) (kind : MsgKind) (s : State) : Host.Outcome State Fault Refusal :=
  if s.tookFrame kind time then .next (duplicate kind (advanceTo time s)) else .next s

end Sys2Proof.Machine
end

