-- ==== Sys2Proof/Machine/LineLink.lean ====
section
/-! DEFINITION. The link controller away from acceptance (chapter 8): SLOT_START, FRAME_ERROR, READBACK_MISMATCH,
ATTEMPT_SPOILED, SPOILED_FRAME_DISCARDED, LINE_HEALTH_TIMEOUT, BID_ENTERS_OUTBOX, WITHDRAWAL_COMPLETION,
LEAVE_COMPLETION. -/

namespace Sys2Proof.Machine

/-! ## The slot grid (R151, R153) -/

/-- The station's slot for a message (R151). -/
def State.slotOf (s : State) (m : Msg) : Nat :=
  m.cls * 16 + s.number + (if s.link.lastSender = some s.number then 64 else 0)

/-- The first beginning of a slot that is not past, of a grid whose quiet began at `quiet` (R151). -/
def slotTime (quiet slot now : Nat) : Nat :=
  let first := quiet + Config.slotTime * slot
  let round := Config.slotTime * Config.slots
  if now ≤ first then first else first + (now - first + round - 1) / round * round

/-- The oldest WAITING entry of a slot (R151). -/
def State.waitingFor (s : State) (slot : Nat) : Option Entry :=
  s.link.outbox.find? (fun e => !e.sending && s.slotOf e.msg == slot)

/-- The oldest WAITING entry of a slot becomes SENDING (R151). -/
def State.startEntry (s : State) (slot : Nat) : List Entry → List Entry
  | [] => []
  | e :: es =>
    if !e.sending && s.slotOf e.msg == slot then { e with sending := true } :: es else e :: s.startEntry slot es

/-- An attempt begins: the frame is written with the throat distance of this moment (R151, R153). -/
def beginAttempt (e : Entry) (slot : Nat) (s : State) : State :=
  s.setLink { s.link with
    outbox := s.startEntry slot s.link.outbox, quiet := none, began := s.now
    frame := frameOf e.msg.kind s.number (e.msg.payload s.run s.line.count) }

/-- The station may begin a frame: JOINING or ACTIVE, a grid running, and nothing SENDING (R148, R151, R154). -/
def State.mayBegin (s : State) : Bool := (s.station == .joining || s.station == .active) && s.sending.isNone

/-- A start bit of another station ends the grid: no slot begins until the grid restarts after its frame (R151). -/
def endGrid (s : State) : State := s.setLink { s.link with quiet := none }

/-- SLOT_START (R151): nothing begins where a start bit has been `heard` since quiet began (an operand, log 27). -/
def execSlotStart (slot : Fin 128) (s : State) (heard : Bool := false) : Host.Outcome State Fault Refusal :=
  if heard then .next (endGrid s)
  else match s.link.quiet, s.waitingFor slot.val with
  | some q, some e =>
    if s.mayBegin then .next (beginAttempt e slot.val (advanceTo (slotTime q slot.val s.now) s)) else .next s
  | _, _ => .next s

/-! ## Errors heard (R149) -/

/-- The spoil pulse that an error found at `found` gives: in JOINING and ACTIVE alone (R148, R149). -/
def State.spoilAt (s : State) (found : Nat) : Option Pulse :=
  if s.station = .joining ∨ s.station = .active then
    some { start := found + Config.spoilDelay, stop := found + Config.spoilDelay + Config.spoilTime }
  else s.link.spoil

/-- A damaged frame heard: the spoil pulse, no start bit taken before the end of the frame's spoil window, and the grid
again after it (R149, R151). -/
def hearError (run : Run) (f : FoundFault) (s : State) : State :=
  let ends := frameEnd run
  let t := advanceTo ends s
  t.setLink { t.link with
    spoil := s.spoilAt (foundTime run.start f), listenFrom := ends + Config.windowTime
    quiet := some (ends + 2 * Config.windowTime) }

/-- FRAME_ERROR (R149). -/
def execFrameError (run : Run) (s : State) : Host.Outcome State Fault Refusal :=
  match judge run.bytes with
  | some f => if s.takesFrame run.start then .next (hearError run f s) else .next s
  | none => .next s

/-- SPOILED_FRAME_DISCARDED (R150): the frame reaches no block, and the slot grid starts again. -/
def execSpoiledFrameDiscarded (time : Nat) (s : State) : Host.Outcome State Fault Refusal :=
  if s.station = .setup then .next s else .next (restartGrid (advanceTo time s))

/-! ## The end of an attempt (R152, R156, R157) -/

/-- The own bid whose BID has ended outside acceptance returns to NONE (R95, R157). -/
def endQueued (tag : Option Tag) (s : State) : State :=
  match s.bid.own with
  | some o => if o.state = .queued ∧ tag = some o.desc.tag then endOwn s else s
  | none => s

/-- The entry at its eighth spoiled attempt: DROPPED, with MSG_DROPPED, and its source told (R152, R157). -/
def dropSending (e : Entry) (s : State) : State :=
  let t := raise (dropEvent e.msg 1 (some Config.maxAttempts)) (endSending s)
  match e.msg with
  | .bid d _ => endQueued (some d.tag) t
  | m => handDropped m t

/-- A cancelling entry whose attempt is spoiled: CANCELLED, and a withdrawn BID completes its withdrawal (R95, R156). -/
def cancelSending (e : Entry) (s : State) : State :=
  match e.msg with
  | .bid d _ => endQueued (some d.tag) (endSending s)
  | _ => endSending s

/-- The SENDING entry returns to WAITING with one attempt more (R152). -/
def retrySending (s : State) : State :=
  s.setLink { s.link with
    outbox := s.link.outbox.map (fun e => if e.sending then { e with sending := false, attempts := e.attempts + 1 } else e)
    frame := [] }

/-- A spoiled attempt (R109, R152, R156). -/
def spoilAttempt (e : Entry) (s : State) : State :=
  let t := dropMarks s
  if e.cancelling then cancelSending e t
  else if Config.maxAttempts ≤ e.attempts + 1 then dropSending e t
  else retrySending t

/-- After an attempt that ended spoiled: the entry to SETUP where LEAVE waits, and the end of the step (R160). -/
def afterSpoiled (s : State) : State := finish (leaveIfDue s)

/-- The attempt in flight ended spoiled at the end of its spoil window, `time` (R152). -/
def windowSpoiled (time : Nat) (e : Entry) (s : State) : State :=
  afterSpoiled (spoilAttempt e (restartGrid (advanceTo time s)))

/-- READBACK_MISMATCH (R152): the sender stops at once; the frame breaks off 4 µs later, and its spoil window
follows. A station that waits to leave enters SETUP at the end of that window (R160). -/
def execReadbackMismatch (time : Nat) (s : State) : Host.Outcome State Fault Refusal :=
  match s.sending with
  | some e =>
    let t := advanceTo time s
    let ends := t.now + Config.breakTime + Config.windowTime
    let u := spoilAttempt e
      (t.setLink { t.link with quiet := some (ends + Config.windowTime), listenFrom := ends })
    .next (afterSpoiled (if u.leaving then advanceTo ends u else u))
  | none => .next s

/-- ATTEMPT_SPOILED (R152). -/
def execAttemptSpoiled (time : Nat) (s : State) : Host.Outcome State Fault Refusal :=
  match s.sending with
  | some e => .next (windowSpoiled time e s)
  | none => .next s

/-- The attempt of the SENDING entry ends at `time`, accepted or spoiled (R152). -/
def endAttempt (time : Nat) (clean : Bool) (e : Entry) (s : State) : State :=
  if clean then acceptOwn e.msg (advanceTo time s) else windowSpoiled time e s

/-- WITHDRAWAL_COMPLETION (R95): the attempt of the cancelling own BID ends. -/
def execWithdrawalCompletion (time : Nat) (clean : Bool) (s : State) : Host.Outcome State Fault Refusal :=
  match s.bid.own, s.sending with
  | some o, some e =>
    if o.state = .queued ∧ o.cancelling = true ∧ e.msg.kind = .bid then .next (endAttempt time clean e s) else .next s
  | some o, none => if o.state = .queued ∧ o.cancelling = true then .next (finish (endOwn s)) else .next s
  | _, _ => .next s

/-- LEAVE_COMPLETION (R160): the attempt in flight at LEAVE ends, and the station enters SETUP. -/
def execLeaveCompletion (time : Nat) (clean : Bool) (s : State) : Host.Outcome State Fault Refusal :=
  if s.leaving then
    match s.sending with
    | some e => .next (endAttempt time clean e s)
    | none => .next (enterSetup s)
  else .next s

/-! ## Line health and the waiting BID (R155, R158) -/

/-- The value A of LINE_DOWN: the sender of the last accepted frame, or 0 (R158). -/
def lineDownEvent (s : State) : Event := { kind := .lineDown, a := some (s.link.lastSender.getD 0) }

/-- The line-health timer expires (R158). RECALLED, of the bid engine, enters the FIFO before LINE_DOWN, of the link
controller, which R191 leaves open (DESIGN CHOICE, log 8). -/
def healthExpires (s : State) : State :=
  raise (lineDownEvent s) (holdJoin .lineDown (s.setLink { s.link with health := none }))

/-- LINE_HEALTH_TIMEOUT (R158). -/
def execLineHealthTimeout (s : State) : Host.Outcome State Fault Refusal :=
  match s.link.health with
  | some t => .next (finish (healthExpires (advanceTo t s)))
  | none => .next s

/-- BID_ENTERS_OUTBOX (R155): the waiting BID takes the freed entry as the youngest. -/
def execBidEntersOutbox (s : State) : Host.Outcome State Fault Refusal :=
  match s.link.waitingBid with
  | some m =>
    if sharedRoom s.link.outbox then
      .next (s.setLink { s.link with outbox := s.link.outbox ++ [.fresh m], waitingBid := none })
    else .next s
  | none => .next s

end Sys2Proof.Machine
end

