-- ==== Sys2Proof/Machine/Replies.lean ====
section
/-! DEFINITION. The records of the four read commands, as bytes (R56, R175, R179, R188, section 11.5). -/

namespace Sys2Proof.Machine

/-- One bit as a number. -/
def bit (b : Bool) (place : Nat) : Nat := if b then 2 ^ place else 0

/-- One byte. -/
def byte (n : Nat) : List Byte := be 1 n

/-- The two bytes of a tag, or zeros where there is none (R193). -/
def tagBytes (t : Option Tag) : List Byte :=
  match t with
  | some t => [t.owner, t.seq]
  | none => [0, 0]

/-! ## Events (R188) -/

/-- The number of an event kind (section 11.5). -/
def EventKind.code (k : EventKind) : Nat :=
  match k with
  | .reversed => 1
  | .trackFull => 2
  | .lost => 3
  | .beaten => 4
  | .recalled => 5
  | .fired => 6
  | .confirmed => 7
  | .voided => 8
  | .unconfirmed => 9
  | .unloaded => 10
  | .widthUnmeasured => 11
  | .jam => 12
  | .jamHeld => 13
  | .jamReleased => 14
  | .stackClosed => 15
  | .diverted => 16
  | .shortGap => 17
  | .foldOverrun => 18
  | .msgDropped => 19
  | .lineDown => 20
  | .lineUp => 21
  | .fault => 22
  | .purged => 23
  | .peerJoined => 24
  | .peerSilent => 25
  | .peerMismatch => 26
  | .active => 27
  | .left => 28

/-- The presence byte of an event (section 11.5). -/
def Event.presence (e : Event) : Nat :=
  bit e.tag.isSome 0 + bit e.article.isSome 1 + bit e.lot.isSome 2 + bit e.a.isSome 3 + bit e.b.isSome 4
    + bit e.code.isSome 5

/-- The 18 bytes of an event record (section 11.5). -/
def eventBytes (h : HeldEvent) : List Byte :=
  let e := h.event
  be 2 h.seq.toNat ++ byte e.kind.code ++ byte e.presence ++ byte (e.code.getD 0) ++ tagBytes e.tag
    ++ byte (e.article.getD 0) ++ be 2 (e.lot.getD 0) ++ beSigned 4 (e.a.getD 0) ++ beSigned 4 (e.b.getD 0)

/-! ## Track records (R56) -/

/-- The coding of a record state (section 11.5). -/
def RecState.code (x : RecState) : Nat :=
  match x with
  | .bid => 1
  | .seen => 2
  | .spacer => 3
  | .stray => 4

/-- The 26 bytes of a track record (section 11.5). -/
def recordBytes (hw : Count) (r : Record) : List Byte :=
  descBytes r.desc.wire ++ be 4 r.tl.toNat ++ be 4 (r.tt hw).toNat ++ byte r.state.code
    ++ byte (bit r.missed 0 + bit r.own 1 + bit r.passed 2 + bit r.measured.isSome 3 + bit r.openFrom.isSome 4)
    ++ byte r.reporter ++ be 2 (r.measured.getD 0)

/-! ## Peer entries (R175) -/

/-- The coding of a peer state (section 11.5). -/
def PeerState.code (x : PeerState) : Nat :=
  match x with
  | .present => 1
  | .silent => 2
  | .mismatch => 3

/-- The TTL that remains, in milliseconds rounded up; 0 for a SILENT entry (R166, log 20). -/
def Peer.ttl (p : Peer) (now : Nat) : Nat :=
  if p.state = .silent then 0 else (p.ttlEnds - now + (Config.ms - 1)) / Config.ms

/-- The 18 bytes of a peer entry (section 11.5). -/
def peerBytes (now : Nat) (p : Peer) : List Byte :=
  byte p.number ++ byte p.state.code ++ byte (bit p.hailed.isSome 0 + bit p.differs 1)
    ++ (match p.hailed with | some h => hailBytes h | none => List.replicate 13 0) ++ be 2 (p.ttl now)

/-! ## Station detail (R15, R104, R124, R144, R162) -/

/-- The own bid as READ STATION shows it: state and cancelling, tag, window TL (section 11.5). -/
def ownBytes (o : Option OwnBid) : List Byte :=
  match o with
  | none => byte 0 ++ tagBytes none ++ be 4 0
  | some o =>
    byte ((match o.state with | .queued => 1 | .settling => 2 | .granted => 3 | .fired => 4) + bit o.cancelling 7)
      ++ tagBytes (some o.desc.tag) ++ be 4 o.window.toNat

/-- A clamp position as READ STATION shows it (section 11.5). -/
def positionBytes (p : Position) : List Byte :=
  byte ((match p.state with | .empty => 0 | .loaded => 1 | .bidding => 2 | .firing => 3) + bit p.unloading 7)
    ++ byte p.article ++ be 2 p.lot

/-- A stack stream as READ STATION shows it (section 11.5). -/
def streamBytes (x : Stream) : List Byte :=
  let c := x.current.getD (0, 0)
  let spacer : Nat × Option Tag × Option Tag := match x.spacer with
    | .none => (0, none, none)
    | .requested e => (1, none, e)
    | .placed t => (2, some t, none)
  byte x.lanes.toNat ++ byte c.1 ++ be 2 c.2 ++ byte x.passed ++ byte spacer.1 ++ tagBytes spacer.2.1
    ++ tagBytes spacer.2.2
    ++ byte (match x.lastStack with | .none => 0 | .full => 1 | .odd => 2 | .change => 3)

/-- The coding of a width sampler phase (section 11.5). -/
def WidthPhase.code (x : WidthPhase) : Nat :=
  match x with
  | .idle => 0
  | .armed => 1
  | .converting => 2
  | .resting => 3

/-- The outputs byte and READY (section 11.5); only a FEED station reads READY (R194). -/
def State.levelByte (s : State) : Nat :=
  bit (s.feed.ready && s.role == .feed) 0 + bit s.feed.grip 1 + bit s.feed.drop 2 + bit s.outfeed.strobe.isSome 3
    + bit s.outfeed.divert.isSome 4 + bit s.throat.relay 5

/-- The fold code and the stack-change outputs (section 11.5). -/
def State.foldByte (s : State) : Nat :=
  let p := s.outfeed.stackChange
  s.outfeed.foldCode % 16 + bit p.one.isSome 4 + bit p.two.isSome 5 + bit p.three.isSome 6 + bit p.four.isSome 7

/-- Four things as bytes, in ascending number. -/
def quadBytes {α : Type} (f : α → List Byte) (q : Quad α) : List Byte := f q.one ++ f q.two ++ f q.three ++ f q.four

/-- The blocked distance of a lane as shown: 0 for a CLEAR lane (R126). -/
def State.shownBlocked (s : State) (k : Fin 4) : Int := (s.blockedDistance k).getD 0

/-- The stack streams as shown: the reset values where the role uses none (section 11.5). -/
def State.shownStreams (s : State) : Quad Stream := if s.role = .outfeed then s.outfeed.streams else Quad.fill .unused

/-- The lead as shown: 0 at a station that is no FEED station (R9, section 11.5). -/
def State.shownLead (s : State) : Nat := if s.role = .feed then s.line.lead else 0

/-- Bytes 0 to 17 of the station detail: the station and the line counter (R15). -/
def State.counterBytes (s : State) : List Byte :=
  byte s.station.code ++ byte s.role.code ++ byte s.number ++ be 4 s.line.count.toNat ++ be 4 s.line.highWater.toNat
    ++ beSigned 2 s.line.speed ++ be 2 s.shownLead ++ be 2 s.line.slips ++ [s.bid.hold.bits]

/-- Bytes 18 to 49: the bid engine, the feed sequencer and the width sampler (R104, R124). -/
def State.feedBytes (s : State) : List Byte :=
  ownBytes s.bid.own ++ byte s.bid.passedOver ++ be 2 s.bid.deferral.toNat
    ++ byte (match s.feed.head with | some i => i.val + 1 | none => 0)
    ++ quadBytes positionBytes s.feed.positions ++ byte s.levelByte ++ byte s.foldByte ++ byte s.width.phase.code
    ++ be 2 (if s.role = .feed then s.width.last else 0)

/-- Bytes 50 to 112: the throat, the streams and the link (R144, R162). -/
def State.lineBytes (s : State) : List Byte :=
  byte (if s.throat.jammed then 1 else 0)
    ++ quadBytes (fun k => beSigned 4 (s.shownBlocked k)) { one := 0, two := 1, three := 2, four := 3 }
    ++ quadBytes streamBytes s.shownStreams ++ byte s.link.outbox.length ++ byte (s.link.lastSender.getD 0)

/-- The 113 bytes of the station detail (section 11.5). -/
def State.stationBytes (s : State) : List Byte := s.counterBytes ++ s.feedBytes ++ s.lineBytes

end Sys2Proof.Machine
end

