-- ==== Sys2Proof/Machine/Port.lean ====
section
/-! DEFINITION. The local port (chapter 10): the fall of CS and the taking of a command, one meaning for each host
command with its result, the cut transaction, and the command that a transaction's bytes carry. -/

namespace Sys2Proof.Machine

/-! ## What every transaction does (R176 to R178) -/

/-- CS falls: the status word is captured (R178). -/
def captureWord (s : State) : State := s.setPort { s.port with captured := some s.statusWord }

/-- One transaction at one of its two moments. While the RESET pin is asserted the port takes none (R177). A command
taken with no fall of CS before it in the queue captures the status word as it is taken (DESIGN CHOICE, log 26). -/
def transact (cs : Cs) (effect : State → State) (s : State) : State :=
  if s.port.held then s
  else match cs with
  | .falls => captureWord s
  | .taken => effect s

/-- A command taken from state `s0`: its result is recorded, CUT is shown and cleared, and a reply is shifted out. -/
def answer (s0 : State) (r : Result) (reply : List Byte) (s : State) : State :=
  s.setPort { s.port with cut := false, last := r, status := s0.shownWord, reply := reply, captured := none }

/-- A transaction cut short: discarded whole; CUT is set and the last result stays (R177). -/
def cutShort (s : State) : State :=
  s.setPort { s.port with cut := true, status := s.shownWord, reply := [], captured := none }

/-- A command that needs `n` data bytes: without them its transaction is cut short; bytes beyond them are ignored (R176,
R177). -/
def withData (n : Nat) (data : List Byte) (effect : State → State) (s : State) : State :=
  if data.length < n then cutShort s else effect s

/-- The byte on MISO at place `n` of the last transaction taken: the status word, the turnaround byte, the reply, then
zeros; none while the RESET pin is asserted, which leaves MISO undriven (R176, R177). After the header of a command
without a reply the byte is a free value (DESIGN CHOICE, log 45). -/
def State.miso (s : State) (n : Nat) : Option Byte :=
  if s.port.held then none
  else if n = 0 then some (s.port.status.extractLsb' 8 8)
  else if n = 1 then some (s.port.status.extractLsb' 0 8)
  else if s.port.reply = [] then some (Config.freeMiso s.now n)
  else if n = 2 then some 0
  else some (byteAt s.port.reply (n - 3))

/-- A command taken without a reply, with its effect and its result. -/
def take (r : Result) (effect : State → State) (s : State) : State := answer s r [] (effect s)

/-- A command refused: nothing changes but the last result (R179). -/
def refuse (r : Result) (s : State) : State := take r id s

/-- A read command: the result byte, and the record when there is one (R176). -/
def reply (record : Option (List Byte)) (s : State) : State :=
  match record with
  | some l => answer s .ok (byte Result.ok.code ++ l) s
  | none => answer s .notFound (byte Result.notFound.code) s

/-! ## CONFIGURE (R18, R180) -/

/-- The result of a section write (R180). -/
def writeResult (exact : Bool) : Result := if exact then .ok else .clamped

/-- A STATION section taken (R180). -/
def writeStation (w : StationWrite) (s : State) : State :=
  take (writeResult (stationExact w)) (fun t => t.setStore { t.store with station := stationOf w, written := true }) s

/-- A LINE section taken (R180). -/
def writeLine (w : LineWrite) (s : State) : State :=
  take (writeResult (lineExact w)) (fun t => t.setStore { t.store with line := lineOf w }) s

/-- The section of ARTICLE `n` taken (R18). -/
def writeArticle (n : Nat) (w : ArticleWrite) (s : State) : State :=
  take (writeResult (articleExact w))
    (fun t => t.setStore { t.store with articles := t.store.articles.set (n - 1) (articleOf w) }) s

/-- CONFIGURE is taken in SETUP alone (R179). -/
def inSetup (effect : State → State) (s : State) : State := if s.station = .setup then effect s else refuse .wrongState s

/-- CONFIGURE_STATION (R180). -/
def execConfigureStation (data : List Byte) (s : State) (cs : Cs := .taken) : Host.Outcome State Fault Refusal :=
  .next (transact cs (inSetup (withData 26 data (writeStation (stationAt data)))) s)

/-- CONFIGURE_LINE (R180). -/
def execConfigureLine (data : List Byte) (s : State) (cs : Cs := .taken) : Host.Outcome State Fault Refusal :=
  .next (transact cs (inSetup (withData 17 data (writeLine (lineAt data)))) s)

/-- An argument that names an article entry: 1 to 63 (R18). -/
def namesArticle (n : Nat) : Bool := decide (1 ≤ n) && decide (n ≤ 63)

/-- CONFIGURE_ARTICLE (R18). A number that names no entry needs no data (R177). -/
def execConfigureArticle (n : BitVec 7) (data : List Byte) (s : State) (cs : Cs := .taken) : Host.Outcome State Fault Refusal :=
  .next (transact cs (inSetup (if namesArticle n.toNat then
      withData 14 data (writeArticle n.toNat (articleAt data))
    else refuse .badArticle)) s)

/-! ## START, LEAVE, RESET (R179, R182, R183, R185) -/

/-- START (R182). -/
def execStart (eyes : Lanes) (s : State) (lineFree : Nat := 0) (cs : Cs := .taken) : Host.Outcome State Fault Refusal :=
  .next (transact cs (fun t =>
    if t.station = .setup ∧ t.store.written = true then take .ok (startStation eyes lineFree) t
    else refuse .wrongState t) s)

/-- LEAVE while an entry is SENDING: the rest is cancelled, the entry is marked, and the station waits (R160). The own
bid of a SENDING BID is not withdrawn: it stays live until the attempt ends (DEDUCED, log 23). -/
def awaitLeave (s : State) : State :=
  let t := if s.bidSending then s else endQueuedAny s
  let u := t.setLink { t.link with
    outbox := (t.link.outbox.filter (fun e => e.sending)).map (fun e => { e with cancelling := true })
    waitingBid := none }
  u.setLeaving true
where
  /-- The own bid whose BID is cancelled with the WAITING entries completes its withdrawal (R95, R157). -/
  endQueuedAny (s : State) : State :=
    match s.bid.own with
    | some o => if o.state = .queued then endOwn s else s
    | none => s

/-- LEAVE taken (R160, R183). -/
def leaveStation (s : State) : State :=
  if s.leaving then s else if s.sending.isSome then finish (awaitLeave s) else enterSetup s

/-- LEAVE (R183). -/
def execLeave (s : State) (cs : Cs := .taken) : Host.Outcome State Fault Refusal :=
  .next (transact cs (fun t => if t.station = .setup then refuse .wrongState t else take .ok leaveStation t) s)

/-- A RESET command taken: it leaves no result of its own, and its header has shown the status word (R178, R185). -/
def resetCommand (s : State) : State :=
  let t := fullReset s
  t.setPort { t.port with status := s.shownWord }

/-- RESET (R185): taken in every state. -/
def execReset (s : State) (cs : Cs := .taken) : Host.Outcome State Fault Refusal := .next (transact cs resetCommand s)

/-- FULL_RESET: power-up or the RESET pin (R185). While the pin is asserted the port takes no transaction (R177). -/
def execFullReset (s : State) (asserted : Bool := false) : Host.Outcome State Fault Refusal :=
  .next ((fullReset s).setPort { LocalPort.reset with held := asserted })

/-! ## LOAD and UNLOAD (R20, R106, R108, R109) -/

/-- The station takes LOAD: a FEED station in JOINING or ACTIVE (R179). -/
def State.takesLoad (s : State) : Bool := s.role == .feed && (s.station == .joining || s.station == .active)

/-- The article check of a LOAD (R20). -/
def State.loadable (s : State) (article : Nat) : Bool :=
  match s.store.enabled article with
  | some a => !a.fullWidth || s.run.lanes == s.run.lineLanes
  | none => false

/-- The position a LOAD fills, or none where the chain is full (R106). -/
def FeedSequencer.room (f : FeedSequencer) : Option (Fin 4) :=
  match f.newest with
  | some i => if (f.positions.get (i + 1)).occupied then none else some (i + 1)
  | none => some (f.lastFilled + 1)

/-- A position filled by LOAD (R106). -/
def fillPosition (i : Fin 4) (article lot : Nat) (s : State) : State :=
  s.setFeed { s.feed with
    positions := s.feed.positions.set i { state := .loaded, article := article, lot := lot, unloading := false }
    lastFilled := i
    returned := s.feed.returned.filter (fun r => r.1 != i) }

/-- The LOAD of a piece: the article check, then the position (R20, R106). -/
def loadPiece (article lot : Nat) (s : State) : State :=
  if s.loadable article then
    match s.feed.room with
    | some i => take .ok (fun t => finish (fillPosition i article lot t)) s
    | none => refuse .full s
  else refuse .badArticle s

/-- LOAD (R106). -/
def execLoad (article lot : List Byte) (s : State) (cs : Cs := .taken) : Host.Outcome State Fault Refusal :=
  let data := article ++ lot
  .next (transact cs (fun t =>
    if t.takesLoad then withData 3 data (loadPiece (byteAt data 0).toNat (twoAt data 1).toNat) t
    else refuse .wrongState t) s)

/-- The station takes UNLOAD: a FEED station outside SETUP (R179). -/
def State.takesUnload (s : State) : Bool := s.role == .feed && s.station != .setup

/-- The position an UNLOAD names (R108). -/
def positionNamed (n : Nat) : Option (Fin 4) :=
  match n with
  | 1 => some 0
  | 2 => some 1
  | 3 => some 2
  | 4 => some 3
  | _ => none

/-- An UNLOAD of position `i` falls in the very instant at which another event ended the position's bid, and the bid that
the search of that instant queued still waits (R110; DESIGN CHOICE, log 46). -/
def State.sameInstant (i : Fin 4) (o : OwnBid) (s : State) : Bool :=
  s.feed.returned == some (i, s.now) && o.state == .queued && !o.cancelling
    && (s.link.waitingBid.isSome || !s.bidSending)

/-- The bid queued in the instant of an UNLOAD is taken back without event (R110; DESIGN CHOICE, log 46). -/
def takeBackBid (s : State) : State := cancelBid (s.setBid { s.bid with own := none, rivals := [] })

/-- UNLOAD of the BIDDING head: a SETTLING or GRANTED bid is recalled and the position emptied after it; a QUEUED bid
is withdrawn, and the position is emptied when the withdrawal completes (R108, R109). In the instant at which another event
ended the bid before, the position is emptied as a LOADED one (R110; DESIGN CHOICE, log 46). -/
def unloadBidding (i : Fin 4) (s : State) : State :=
  match s.bid.own with
  | some o =>
    if s.sameInstant i o then unloadPosition i none (takeBackBid s)
    else if o.state = .queued then
      recallOwn 10 none (s.setPosition i { s.feed.positions.get i with unloading := true })
    else unloadPosition i (some o.desc.tag) (recallOwn 10 none s)
  | none => unloadPosition i none s

/-- An UNLOAD of the head ends the wait for a window for it (R78, R108). -/
def endWait (i : Fin 4) (s : State) : State :=
  if s.feed.head = some i then s.setBid { s.bid with retry := none } else s

/-- The result and the effect of an UNLOAD of a position, by its state (R108). -/
def unloadEffect (i : Fin 4) (s : State) : State :=
  match (s.feed.positions.get i).state with
  | .empty => refuse .notFound s
  | .loaded => take .ok (fun t => finish (unloadPosition i none (endWait i t))) s
  | .bidding => take .ok (fun t => finish (unloadBidding i t)) s
  | .firing => refuse .tooLate s

/-- UNLOAD (R108). -/
def execUnload (position : Byte) (s : State) (cs : Cs := .taken) : Host.Outcome State Fault Refusal :=
  .next (transact cs (fun t =>
    if t.takesUnload then
      match positionNamed position.toNat with
      | some i => unloadEffect i t
      | none => refuse .notFound t
    else refuse .wrongState t) s)

/-! ## HOLD, JAM RELEASE, PURGE (R129, R186, R187) -/

/-- HOLD_REQUESTED (R186). -/
def execHoldRequested (s : State) (cs : Cs := .taken) : Host.Outcome State Fault Refusal :=
  .next (transact cs (take .ok (fun t => finish (holdJoin .operator t))) s)

/-- HOLD_RELEASED (R186). -/
def execHoldReleased (s : State) (cs : Cs := .taken) : Host.Outcome State Fault Refusal :=
  .next (transact cs (take .ok (fun t => finish (holdLeave .operator t))) s)

/-- The station takes JAM RELEASE: a JAMMED THROAT outside SETUP (R129, R179). -/
def State.takesJamRelease (s : State) : Bool := s.role == .throat && s.station != .setup && s.throat.jammed

/-- JAM_RELEASE (R129). -/
def execJamRelease (s : State) (cs : Cs := .taken) : Host.Outcome State Fault Refusal :=
  .next (transact cs (fun t =>
    if t.takesJamRelease then take .ok (fun u => finish (releaseJam u)) t else refuse .wrongState t) s)

/-- PURGE_COMMAND (R187). -/
def execPurgeCommand (s : State) (cs : Cs := .taken) : Host.Outcome State Fault Refusal :=
  .next (transact cs (fun t =>
    if t.station = .joining ∨ t.station = .active then
      take (if t.takesFirst then .ok else .full) (fun u => finish (enqueue .purge u)) t
    else refuse .wrongState t) s)

/-! ## Events and reads (R56, R175, R188, R189) -/

/-- The held events after those up to the one of sequence `n`; none where it is not held (R189). -/
def afterSeq (n : BitVec 16) : List HeldEvent → Option (List HeldEvent)
  | [] => none
  | h :: hs => if h.seq = n then some hs else afterSeq n hs

/-- The events up to the one of sequence `n` acknowledged, and the lost flag cleared (R189). -/
def acknowledge (n : BitVec 16) (s : State) : State :=
  match afterSeq n s.fifo.held with
  | some l => take .ok (fun t => t.setFifo { t.fifo with held := l, lost := false }) s
  | none => take .notFound (fun t => t.setFifo { t.fifo with lost := false }) s

/-- ACK_EVENTS (R189). -/
def execAckEvents (data : List Byte) (s : State) (cs : Cs := .taken) : Host.Outcome State Fault Refusal :=
  .next (transact cs (withData 2 data (acknowledge (twoAt data 0))) s)

/-- READ_EVENT (R188). -/
def execReadEvent (k : Byte) (s : State) (cs : Cs := .taken) : Host.Outcome State Fault Refusal :=
  .next (transact cs (fun t => reply ((t.fifo.held[k.toNat]?).map eventBytes) t) s)

/-- READ_TRACK (R56). -/
def execReadTrack (ordinal : Byte) (s : State) (cs : Cs := .taken) : Host.Outcome State Fault Refusal :=
  .next (transact cs (fun t => reply ((t.track.records[ordinal.toNat]?).map (recordBytes t.line.highWater)) t) s)

/-- READ_PEER (R175). -/
def execReadPeer (number : Byte) (s : State) (cs : Cs := .taken) : Host.Outcome State Fault Refusal :=
  .next (transact cs (fun t => reply ((t.peer number.toNat).map (peerBytes t.now)) t) s)

/-- READ_STATION (R179). -/
def execReadStation (s : State) (cs : Cs := .taken) : Host.Outcome State Fault Refusal :=
  .next (transact cs (fun t => reply (some t.stationBytes) t) s)

/-! ## Headers that name nothing, and cut transactions (R176, R177) -/

/-- A command byte that names a command (section 11.3). -/
def namesCommand (b : Byte) : Bool := (decide (1 ≤ b.toNat) && decide (b.toNat ≤ 10)) ||
  (decide (0x11 ≤ b.toNat) && decide (b.toNat ≤ 0x14))

/-- A header whose command byte names a command and whose argument names no section (R180). -/
def namesNoSection (command argument : Byte) : Bool := command == 0x01 && decide (0x82 ≤ argument.toNat)

/-- A HOLD header whose argument names neither (R186). -/
def namesNoHold (command argument : Byte) : Bool := command == 0x07 && decide (2 ≤ argument.toNat)

/-- A header that names nothing, taken (R176, R180, R186). A CONFIGURE outside SETUP is refused by its state first
(log 22). A header that does name a command is not this row, and changes nothing. -/
def unknownHeader (command argument : Byte) (s : State) : State :=
  if namesNoSection command argument then refuse (if s.station = .setup then .unknown else .wrongState) s
  else if !namesCommand command || namesNoHold command argument then refuse .unknown s
  else s

/-- UNKNOWN_COMMAND (R176). -/
def execUnknownCommand (command argument : Byte) (s : State) (cs : Cs := .taken) : Host.Outcome State Fault Refusal :=
  .next (transact cs (unknownHeader command argument) s)

/-- The data bytes that a header's command needs as the station stands: none where it is refused by its state (R177,
R179). -/
def State.dataNeeded (s : State) (command argument : Byte) : Nat :=
  if command.toNat = 0x01 ∧ s.station ≠ .setup ∨ command.toNat = 0x05 ∧ s.takesLoad = false then 0
  else dataBytes command argument

/-- A transaction of these bytes is cut short: it has no whole header, or less than the data its command needs (R177). -/
def State.cutsShort (s : State) : List Byte → Bool
  | command :: argument :: data => decide (data.length < s.dataNeeded command argument)
  | _ => true

/-- TRANSACTION_CUT (R177). A transaction whose bytes are enough is not this row, and changes nothing. -/
def execTransactionCut (s : State) (bytes : List Byte := []) (cs : Cs := .taken) : Host.Outcome State Fault Refusal :=
  .next (transact cs (fun t => if t.cutsShort bytes then cutShort t else t) s)

/-- The command that the bytes of a whole transaction are, as the station stands (R176, R177). -/
def State.transaction (s : State) (eyes : Lanes) (lineFree : Nat) (bytes : List Byte) : Instr :=
  match bytes with
  | command :: argument :: data =>
    if s.cutsShort bytes then .transactionCut bytes else commandOf eyes lineFree command argument data
  | _ => .transactionCut bytes

end Sys2Proof.Machine
end

