-- ==== Sys2Proof/Machine/Dispatch.lean ====
section
/-! DEFINITION. Which meaning each command has. -/

namespace Sys2Proof.Machine

/-- What a command does to everything but the queue. -/
def exec (i : Instr) (s : State) : Host.Outcome State Fault Refusal :=
  match i with
  | .encoderStep a b eyes => Sys2Proof.Machine.execEncoderStep a b eyes s
  | .excursion => Sys2Proof.Machine.execExcursion s
  | .speedUpdate => Sys2Proof.Machine.execSpeedUpdate s
  | .leadingEdge => Sys2Proof.Machine.execLeadingEdge s
  | .trailingEdge => Sys2Proof.Machine.execTrailingEdge s
  | .miss tag => Sys2Proof.Machine.execMiss tag s
  | .retirement tag => Sys2Proof.Machine.execRetirement tag s
  | .fire => Sys2Proof.Machine.execFire s
  | .fireDropOn => Sys2Proof.Machine.execFireDropOn s
  | .fireDropOff => Sys2Proof.Machine.execFireDropOff s
  | .fireGripOn => Sys2Proof.Machine.execFireGripOn s
  | .widthStart code => Sys2Proof.Machine.execWidthStart code s
  | .widthSample code => Sys2Proof.Machine.execWidthSample code s
  | .restTimerExpiry code => Sys2Proof.Machine.execRestTimerExpiry code s
  | .readyRise => Sys2Proof.Machine.execReadyRise s
  | .readyFall => Sys2Proof.Machine.execReadyFall s
  | .retryTimerExpiry => Sys2Proof.Machine.execRetryTimerExpiry s
  | .settleTimerExpiry => Sys2Proof.Machine.execSettleTimerExpiry s
  | .spacerPassage stream => Sys2Proof.Machine.execSpacerPassage stream s
  | .strobeEnd => Sys2Proof.Machine.execStrobeEnd s
  | .divertPulseEnd => Sys2Proof.Machine.execDivertPulseEnd s
  | .stackChangePulseEnd stream => Sys2Proof.Machine.execStackChangePulseEnd stream s
  | .jamCondition => Sys2Proof.Machine.execJamCondition s
  | .joinTravelComplete => Sys2Proof.Machine.execJoinTravelComplete s
  | .slotStart slot heard => Sys2Proof.Machine.execSlotStart slot s heard
  | .frameError run => Sys2Proof.Machine.execFrameError run s
  | .readbackMismatch time => Sys2Proof.Machine.execReadbackMismatch time s
  | .attemptSpoiled time => Sys2Proof.Machine.execAttemptSpoiled time s
  | .bid heard payload => Sys2Proof.Machine.execBid heard payload s
  | .sightingSeen heard payload measured => Sys2Proof.Machine.execSightingSeen heard payload measured s
  | .sightingMissed heard payload => Sys2Proof.Machine.execSightingMissed heard payload s
  | .sightingStray heard payload => Sys2Proof.Machine.execSightingStray heard payload s
  | .recall heard payload => Sys2Proof.Machine.execRecall heard payload s
  | .void heard payload => Sys2Proof.Machine.execVoid heard payload s
  | .jam heard => Sys2Proof.Machine.execJam heard s
  | .jamReleaseAccepted heard => Sys2Proof.Machine.execJamReleaseAccepted heard s
  | .purge heard => Sys2Proof.Machine.execPurge heard s
  | .hail heard payload => Sys2Proof.Machine.execHail heard payload s
  | .duplicateNumber time kind => Sys2Proof.Machine.execDuplicateNumber time kind s
  | .lineHealthTimeout => Sys2Proof.Machine.execLineHealthTimeout s
  | .peerTtlExpiry station => Sys2Proof.Machine.execPeerTtlExpiry station s
  | .hailTimerExpiry => Sys2Proof.Machine.execHailTimerExpiry s
  | .bidEntersOutbox => Sys2Proof.Machine.execBidEntersOutbox s
  | .withdrawalCompletion time clean => Sys2Proof.Machine.execWithdrawalCompletion time clean s
  | .leaveCompletion time clean => Sys2Proof.Machine.execLeaveCompletion time clean s
  | .configureStation data cs => Sys2Proof.Machine.execConfigureStation data s cs
  | .configureLine data cs => Sys2Proof.Machine.execConfigureLine data s cs
  | .configureArticle n data cs => Sys2Proof.Machine.execConfigureArticle n data s cs
  | .start eyes lineFree cs => Sys2Proof.Machine.execStart eyes s lineFree cs
  | .leave cs => Sys2Proof.Machine.execLeave s cs
  | .reset cs => Sys2Proof.Machine.execReset s cs
  | .fullReset asserted => Sys2Proof.Machine.execFullReset s asserted
  | .load article lot cs => Sys2Proof.Machine.execLoad article lot s cs
  | .unload position cs => Sys2Proof.Machine.execUnload position s cs
  | .holdRequested cs => Sys2Proof.Machine.execHoldRequested s cs
  | .holdReleased cs => Sys2Proof.Machine.execHoldReleased s cs
  | .jamRelease cs => Sys2Proof.Machine.execJamRelease s cs
  | .purgeCommand cs => Sys2Proof.Machine.execPurgeCommand s cs
  | .ackEvents data cs => Sys2Proof.Machine.execAckEvents data s cs
  | .readEvent k cs => Sys2Proof.Machine.execReadEvent k s cs
  | .readTrack ordinal cs => Sys2Proof.Machine.execReadTrack ordinal s cs
  | .readPeer number cs => Sys2Proof.Machine.execReadPeer number s cs
  | .readStation cs => Sys2Proof.Machine.execReadStation s cs
  | .unknownCommand command argument cs => Sys2Proof.Machine.execUnknownCommand command argument s cs
  | .transactionCut bytes cs => Sys2Proof.Machine.execTransactionCut s bytes cs
  | .spoiledFrameDiscarded time => Sys2Proof.Machine.execSpoiledFrameDiscarded time s

end Sys2Proof.Machine
end

