-- ==== Sys2Proof/Machine/Step.lean ====
section
/-! DEFINITION. One step of the block, and how the host puts a command in front. -/

namespace Sys2Proof.Machine

/-- The block with no command waiting: one microsecond passes on its time base (DESIGN CHOICE, log 1), which stands while
the RESET pin is asserted (log 36). -/
def idle (s : State) : State := outsideReset (fun t => advanceTo (t.now + 1) t) s

/-- One step: the command at the front of the queue is executed on the state with the rest of the queue (log 1). -/
def step (s : State) : Host.Outcome State Fault Refusal :=
  match s.pending with
  | [] => .next (idle s)
  | c :: rest => exec c (s.setPending rest)

/-- The state with the command a word spells put at the front of the queue; unchanged where it spells none. -/
def State.withFetchWord (s : State) (nbits w : Nat) : State :=
  match decodeTableWord nbits w with
  | some c => s.setPending (c :: s.pending)
  | none => s

end Sys2Proof.Machine
end

