-- ==== Sys2Proof/Safety.lean ====
section
/-! DEFINITION. What the statements about runs are made of: which blocks a command leaves alone, and what a safe state is. -/

namespace Sys2Proof.Machine

/-! ## Frames -/

/-- The parts of the state, one for each field of `State`. -/
inductive Block where
  | station | leaving | now | store | run | line | track | eye | bid | feed | width | throat | outfeed | link | peers
  | port | fifo | pending
  deriving DecidableEq, Repr

/-- Two states have the same content in a block. -/
def Block.same (b : Block) (s t : State) : Prop :=
  match b with
  | .station => t.station = s.station
  | .leaving => t.leaving = s.leaving
  | .now => t.now = s.now
  | .store => t.store = s.store
  | .run => t.run = s.run
  | .line => t.line = s.line
  | .track => t.track = s.track
  | .eye => t.eye = s.eye
  | .bid => t.bid = s.bid
  | .feed => t.feed = s.feed
  | .width => t.width = s.width
  | .throat => t.throat = s.throat
  | .outfeed => t.outfeed = s.outfeed
  | .link => t.link = s.link
  | .peers => t.peers = s.peers
  | .port => t.port = s.port
  | .fifo => t.fifo = s.fifo
  | .pending => t.pending = s.pending

/-- `t` has the content of `s` in every block outside `l`. -/
def SameBut (l : List Block) (s t : State) : Prop := ∀ b, b ∉ l → b.same s t

/-- The blocks that the end of a step may write: a search takes a tag and queues a BID, a plan requests a spacer. -/
def settlingBlocks : List Block := [.track, .bid, .feed, .outfeed, .link]

/-- The blocks that a change of the track list and a recall of the own bid may touch. -/
abbrev listBlocks : List Block := [.track, .eye, .bid, .feed, .width, .outfeed, .link, .fifo]

/-! ## The valves (R112 to R114) -/

/-- GRIP and DROP stand as R112 and R114 give for the stage of the fire sequence: GRIP on and DROP off outside it,
and never both on. -/
def FeedSequencer.valvesSafe (f : FeedSequencer) : Prop :=
  match f.fire with
  | none => f.grip = true ∧ f.drop = false
  | some q =>
    match q.stage with
    | .beforeDrop => f.grip = false ∧ f.drop = false
    | .dropping => f.grip = false ∧ f.drop = true
    | .beforeGrip => f.grip = false ∧ f.drop = false

/-! ## The event FIFO (R184) -/

/-- The held sequences run on by one, modulo 65536, up to the counter: `n` is the sequence after the youngest. -/
def consecutive (n : BitVec 16) : List HeldEvent → Prop
  | [] => True
  | h :: hs => h.seq + BitVec.ofNat 16 (hs.length + 1) = n ∧ consecutive n hs

/-- The FIFO holds at most 32 events, with consecutive sequences (R184). -/
def EventFifo.ordered (f : EventFifo) : Prop := f.held.length ≤ Config.fifoCapacity ∧ consecutive f.next f.held

/-! ## The track list (R32) -/

/-- No tag appears twice, and no more than 64 records are held (R32). -/
def TrackList.within (t : TrackList) : Prop :=
  t.records.length ≤ Config.trackCapacity ∧ (t.records.map (fun r => r.desc.tag)).Nodup

/-! ## The hold set (R80, R169) -/

/-- The JAM cause stands exactly while the jamming set has a member, and the MISMATCH cause exactly while a peer entry
is MISMATCH (R80, R169). -/
def State.holdFollows (s : State) : Prop :=
  s.bid.hold.jam = (s.bid.jamming != 0) ∧ s.bid.hold.mismatch = s.peers.anyMismatch

/-! ## The outbox (R154) -/

/-- The outbox within its capacities: eight entries, six of classes 1 to 3, one SENDING (R154). -/
def LinkController.within (k : LinkController) : Prop :=
  k.outbox.length ≤ Config.outboxCapacity ∧ sharedCount k.outbox ≤ Config.outboxShared
    ∧ (k.outbox.filter (fun e => e.sending)).length ≤ 1

/-! ## Figures within their ranges (R2, R8 to R10, R99) -/

/-- The line counter's figures within the ranges of R2, R8, R9 and R10. -/
def LineCounter.within (c : LineCounter) : Prop :=
  c.slips ≤ 65535 ∧ -4000 ≤ c.speed ∧ c.speed ≤ 4000 ∧ c.lead ≤ 2000

/-- The passed-over count lies between 0 and the passed-over limit (R99). -/
def State.passedWithin (s : State) : Prop := s.bid.passedOver ≤ s.run.line.limit

/-- The station number, as written and as fixed at START, lies between 1 and 15 (R180, R182). -/
def State.numbered (s : State) : Prop :=
  1 ≤ s.number ∧ s.number ≤ 15 ∧ 1 ≤ s.store.station.number ∧ s.store.station.number ≤ 15

/-- A state that a run of the part may reach: every capacity kept, every cause held for its reason. -/
def State.safe (s : State) : Prop :=
  s.feed.valvesSafe ∧ s.fifo.ordered ∧ s.track.within ∧ s.holdFollows ∧ s.numbered ∧ s.link.within ∧ s.line.within
    ∧ s.passedWithin

/-! ## Words of the statements -/

/-- The station follows the line: JOINING, ACTIVE or FAULT. -/
def State.running (s : State) : Prop := s.station ≠ .setup

/-- An entry of the outbox is free for a message of class 0 (R155). -/
def State.roomFirst (s : State) : Prop := s.link.outbox.length + s.link.reserved < Config.outboxCapacity

/-- The event FIFO after one event more, raised in state `s`. -/
def State.withEvent (s : State) (e : Event) : EventFifo := s.fifo.enter s.store.station.mode e

/-- The event FIFO after these events, raised one after the other from state `s`. -/
def State.withEvents (s : State) (l : List Event) : EventFifo :=
  l.foldl (fun f e => f.enter s.store.station.mode e) s.fifo

/-- RECALLED of an own bid with a code and no value (R95). -/
def OwnBid.recalled (o : OwnBid) (code : Nat) : Event :=
  { kind := .recalled, tag := some o.desc.tag, article := some o.desc.article, lot := some o.desc.lot
    code := some code }

/-- The record under a tag as the bid engine's own removal leaves it: gone where its own flag is set (R48). -/
def State.withoutOwn (s : State) (tag : Tag) : Option Record := (s.record tag).filter (fun r => !r.own)

/-- From `s` to `t` the own bid is bumped by a record of station `owner`: it has ended, its record with it (R48), the
passed-over count unchanged, with RECALLED, code BUMPED, and a RECALL where an entry is free (R94, R95). -/
def State.bumped (s t : State) (o : OwnBid) (owner : Nat) : Prop :=
  t.bid.own ≠ some o ∧ t.record o.desc.tag = s.withoutOwn o.desc.tag ∧ t.bid.passedOver = s.bid.passedOver
    ∧ (s.roomFirst → Entry.fresh (.recall o.desc.tag) ∈ t.link.outbox)
    ∧ (s.roomFirst → (s.feed.positions.get o.serves).unloading = false →
        t.fifo = s.withEvent { o.recalled 7 with a := some owner })

/-- Record `r'`, as a step from `s` leaves it, is a change that bumps the own bid: it has entered SEEN or STRAY, or stands
there with another TL or another length used for gaps, and conflicts with the bid's claim (R94). -/
def State.bumpedBy (s : State) (r' : Record) (o : OwnBid) : Prop :=
  (r'.state = .seen ∨ r'.state = .stray)
    ∧ (∀ r, s.record r'.desc.tag = some r → r.tl ≠ r'.tl ∨ r.state ≠ r'.state
        ∨ r.gapLength s.line.highWater ≠ r'.gapLength s.line.highWater)
    ∧ conflict s.run (r'.span s.line.highWater) o.span = true

/-- From `s` to `t` the own bid is bumped where the record `r'` bumps it, and stands without event where not (R94). -/
def State.judgesBump (s t : State) (r' : Record) (o : OwnBid) : Prop :=
  (s.bumpedBy r' o → s.bumped t o r'.desc.tag.owner.toNat) ∧
    (¬ s.bumpedBy r' o → t.bid.own = some o ∧ t.fifo = s.fifo)

/-- The BID of the own bid can be withdrawn at once: it waits outside the outbox, or no BID is SENDING (R95, R156). -/
def State.bidWaits (s : State) : Prop :=
  s.link.waitingBid ≠ none ∨ ∀ e ∈ s.link.outbox, e.sending = true → e.msg.kind ≠ .bid

/-- The event of an own bid at a hold cause with a code: RECALLED, and none for a FIRED bid or for one whose withdrawal runs
already (R81). -/
def OwnBid.heldEvents (o : OwnBid) (code : Nat) : List Event :=
  if o.state = .fired ∨ (o.state = .queued ∧ o.cancelling = true) then [] else [o.recalled code]

/-- An entry is free for the RECALL that a SETTLING or GRANTED own bid sends, so that no message is dropped for it; a bid in
another state sends none (R95, R155). -/
def State.recallFits (s : State) (o : OwnBid) : Prop := o.state = .settling ∨ o.state = .granted → s.roomFirst

/-- From `s` to `t` a hold cause has joined and the own bid `o` has reacted to it (R81, R95): a SETTLING or GRANTED bid is
recalled, a QUEUED one withdrawn at once or marked cancelling, and a FIRED or cancelling one left alone. While the cause
stands no search follows, so the outbox and the positions hold nothing new but this. -/
structure HeldBack (s t : State) (o : OwnBid) : Prop where
  landing : o.state = .settling ∨ o.state = .granted →
    t.bid.own = none
      ∧ t.track.records = (if (s.record o.desc.tag).any (fun r => r.own) = true then
          s.track.records.filter (fun r => r.desc.tag != o.desc.tag) else s.track.records)
      ∧ (s.roomFirst → t.link.outbox = s.link.outbox ++ [Entry.fresh (.recall o.desc.tag)])
  waiting : o.state = .queued → o.cancelling = false → s.bidWaits →
    t.bid.own = none ∧ t.track.records = s.track.records ∧ t.link.waitingBid = none
      ∧ t.link.outbox = s.link.outbox.filter (fun e => e.msg.kind != .bid)
  sending : o.state = .queued → o.cancelling = false → ¬ s.bidWaits →
    t.bid.own = some { o with cancelling := true } ∧ t.track.records = s.track.records
      ∧ t.link.outbox = s.link.outbox.map (fun e => if e.msg.kind = .bid then { e with cancelling := true } else e)
  untouched : o.state = .fired ∨ (o.state = .queued ∧ o.cancelling = true) →
    t.bid.own = some o ∧ t.track.records = s.track.records ∧ t.link.outbox = s.link.outbox
  position : t.feed.positions =
    (if t.bid.own = none ∧ (s.feed.positions.get o.serves).state = .bidding then
      s.feed.positions.set o.serves (if (s.feed.positions.get o.serves).unloading = true then Position.none
        else { s.feed.positions.get o.serves with state := .loaded })
    else s.feed.positions)

/-- What the peer table raises at a HAIL of station `n` with figures `f`: PEER_JOINED with NEW, with RETURNED from SILENT, or
with MATCHED from MISMATCH, and PEER_MISMATCH with the first setting that differs, on becoming MISMATCH (R165, R167, R168;
log 21). -/
def State.hailEvents (s : State) (n : Nat) (f : Hailed) : List Event :=
  (match (s.peer n).map (fun x => x.state) with
    | none => [joinedEvent n (some f) 1]
    | some .silent => [joinedEvent n (some f) 2]
    | some .mismatch => if (firstDifference s.run f).isSome then [] else [joinedEvent n (some f) 3]
    | some .present => [])
  ++ (match firstDifference s.run f with
    | some (code, value) => if (s.peer n).any (fun x => x.state == .mismatch) then [] else
        [{ kind := .peerMismatch, a := some n, b := some value, code := some code }]
    | none => [])

/-- LINE_UP at a frame of station `n`, where LINE_DOWN is held (R158). -/
def State.lineUpEvents (s : State) (n : Nat) : List Event :=
  if s.bid.hold.lineDown then [{ kind := .lineUp, a := some n }] else []

/-- SHORT_GAP for a new object on stream `i`, first seen at `first`: the gap to the last closure of the stream is less
than required, and the record ahead is still held (R138). -/
def State.shortGap (s : State) (i : Fin 4) (d : Desc) (first : Count) : List Event :=
  match (s.outfeed.streams.get i).closure with
  | some (tag, last) =>
    match s.record tag with
    | some r =>
      if signedDiff first last < gap s.run r.desc d then
        [{ kind := .shortGap, tag := some d.tag, article := some d.article, lot := some d.lot
           a := some (signedDiff first last), b := some (gap s.run r.desc d), code := some tag.owner.toNat }]
      else []
    | none => []
  | none => []

/-- A record counts for a stack of this article and lot: a PIECE without a reject (R139). -/
def Record.counts (r : Record) (current : Nat × Nat) : Bool :=
  r.desc.kind == .piece && r.desc.reject == .none && (r.desc.article, r.desc.lot) == current

/-- The station transmits its own frame of message `m`, and this acceptance brings it back: header, payload length and
tag are those of the entry in flight. -/
def State.hearsOwn (s : State) (h : Heard) (m : Msg) (payload : List Byte) : Prop :=
  s.running ∧ h.sender ≠ 0 ∧ h.sender.toNat = s.number ∧ payload.length = payloadLength m.kind
    ∧ (∃ e, s.sending = some e ∧ e.msg = m) ∧ (m.tag? ≠ none → m.tag? = some (tagAt payload)) ∧ s.leaving = false

/-- The moment of its transaction that a host command stands for; none for the other commands. -/
def hostMoment (i : Instr) : Option Cs :=
  match i with
  | .configureStation _ cs | .configureLine _ cs | .configureArticle _ _ cs | .start _ _ cs | .leave cs | .reset cs
  | .load _ _ cs | .unload _ cs | .holdRequested cs | .holdReleased cs | .jamRelease cs | .purgeCommand cs
  | .ackEvents _ cs | .readEvent _ cs | .readTrack _ cs | .readPeer _ cs | .readStation cs
  | .unknownCommand _ _ cs | .transactionCut _ cs => some cs
  | _ => none

/-- The station takes the frame of a kind whose spoil window ends at `time`: its first start bit falls in no spoil
window of another frame, and before any attempt of its own (R145, R149, R150). -/
def State.takes (s : State) (k : MsgKind) (time : Nat) : Prop :=
  ∃ start, time = start + 20 * (payloadLength k + 5) + 20 ∧ s.link.listenFrom ≤ start
    ∧ (s.sending = none ∨ start < s.link.began)

/-- A frame of a kind from another station reaches this one: it follows the line, the sender is a station and not
itself, and the frame's first start bit is taken. -/
def State.hears (s : State) (h : Heard) (k : MsgKind) : Prop :=
  s.running ∧ h.sender ≠ 0 ∧ h.sender.toNat ≠ s.number ∧ s.takes k h.time

/-- The part stands in full reset under the asserted RESET pin: only READY's level and the waiting commands are free. -/
def State.inReset (s : State) : Prop := s = (fullReset s).setPort { LocalPort.reset with held := true }

/-- The four bytes from an offset of a reply, most significant first (R193). -/
def fourAt (l : List Byte) (i : Nat) : BitVec 32 := twoAt l i ++ twoAt l (i + 2)

/-- The sighting in progress that the eye of lane `k` is bound to, alone in its tag and in its lane (R60). -/
def State.bindsAlone (s : State) (k : Fin 4) (g : Sighting) : Prop :=
  g ∈ s.eye.sightings ∧ hasLane g.bound k = true
    ∧ ∀ x ∈ s.eye.sightings, x.tag = g.tag ∨ hasLane x.bound k = true → x = g

/-- UNLOADED of the position that an own bid served (R108). -/
def State.unloaded (s : State) (o : OwnBid) : Event :=
  { kind := .unloaded, tag := some o.desc.tag, article := some (s.feed.positions.get o.serves).article
    lot := some (s.feed.positions.get o.serves).lot, a := some (o.serves.val + 1) }

/-- LOST of a record at its second miss, told by a station (R43). -/
def Record.lost (r : Record) (reporter : Nat) : Event :=
  { kind := .lost, tag := some r.desc.tag, article := some r.desc.article, lot := some r.desc.lot, a := some reporter
    b := some r.reporter
    code := some (match r.state with | .bid => 1 | .seen => 2 | .spacer => 3 | .stray => 4) }

/-- Station `n` is PRESENT, no peer is MISMATCH and LINE_DOWN is not held, so that hearing it raises no event. -/
def State.knows (s : State) (n : Nat) : Prop :=
  (∃ q, s.peer n = some q ∧ q.state = .present) ∧ s.peers.anyMismatch = false ∧ s.bid.hold.lineDown = false

/-- Every entry is a BID just handed to the outbox: what the end of a step may append there (R85). -/
def freshBids (l : List Entry) : Prop := ∀ e ∈ l, ∃ d tl, e = Entry.fresh (.bid d tl)

/-- What the end of a step never changes in the blocks it may write: the records, the hold set and the counts of the
bid engine, an own bid it holds, the outputs, the figures of the link, and the entries that stand in the outbox. -/
structure KeepsSettled (s t : State) : Prop where
  records : t.track.records = s.track.records
  free : t.track.free = s.track.free
  hold : t.bid.hold = s.bid.hold
  passedOver : t.bid.passedOver = s.bid.passedOver
  jamming : t.bid.jamming = s.bid.jamming
  deferral : t.bid.deferral = s.bid.deferral
  own : ∀ o, s.bid.own = some o → t.bid.own = some o
  ready : t.feed.ready = s.feed.ready
  grip : t.feed.grip = s.feed.grip
  drop : t.feed.drop = s.feed.drop
  fire : t.feed.fire = s.feed.fire
  lastFilled : t.feed.lastFilled = s.feed.lastFilled
  returned : t.feed.returned = s.feed.returned
  strobe : t.outfeed.strobe = s.outfeed.strobe
  divert : t.outfeed.divert = s.outfeed.divert
  stackChange : t.outfeed.stackChange = s.outfeed.stackChange
  foldCode : t.outfeed.foldCode = s.outfeed.foldCode
  foldQueue : t.outfeed.foldQueue = s.outfeed.foldQueue
  underEye : t.outfeed.underEye = s.outfeed.underEye
  quiet : t.link.quiet = s.link.quiet
  frame : t.link.frame = s.link.frame
  lastSender : t.link.lastSender = s.link.lastSender
  health : t.link.health = s.link.health
  spoil : t.link.spoil = s.link.spoil
  listenFrom : t.link.listenFrom = s.link.listenFrom
  began : t.link.began = s.link.began
  outbox : ∃ l, t.link.outbox = s.link.outbox ++ l ∧ freshBids l

/-- The own bid, where there is one, is about another tag. -/
def State.ownElsewhere (s : State) (tag : Tag) : Prop := ∀ o, s.bid.own = some o → o.desc.tag ≠ tag

/-- No stream waits to be planned and no request waits to be handed on, as between steps (log 9). -/
def OutfeedDirector.quiet (o : OutfeedDirector) : Prop := o.planDue = 0 ∧ o.queue = []

/-- The blocks that an accepted frame of another station may write beside those that its message reaches. -/
def heardBlocks : List Block :=
  [.now, .line, .track, .eye, .bid, .feed, .width, .outfeed, .link, .peers, .fifo]

end Sys2Proof.Machine
end

