-- ==== Sys2Proof/WellFormed.lean ====
section
/-! DEFINITION. Which commands the part can be given at all. -/

namespace Sys2Proof

/-- A frame that can be accepted names a sender 1 to 15 (R145, R149). -/
def Heard.wellFormed (h : Heard) : Bool := h.sender != 0

/-- A run of bytes seen on the line holds a byte, and no frame is longer than 37 bytes (R145). -/
def Run.wellFormed (r : Run) : Bool := !r.bytes.isEmpty && decide (r.bytes.length ≤ 37)

/-- An accepted frame carries as many payload bytes as its kind has (R147, R149). -/
def fullPayload (k : MsgKind) (payload : List Byte) : Bool := payload.length == Machine.payloadLength k

/-- The bytes of a transaction that can be cut short: no whole header, or less than the data its command needs (R177). -/
def canBeCut : List Byte → Bool
  | command :: argument :: data => decide (data.length < Machine.dataBytes command argument)
  | _ => true

/-- A header that UNKNOWN_COMMAND is about names nothing (R176, R180, R186). -/
def namesNothing (command argument : Byte) : Bool :=
  !Machine.namesCommand command || Machine.namesNoSection command argument || Machine.namesNoHold command argument

/-- A command is well formed: its operands are ones the part can meet. -/
def Instr.wellFormed (i : Instr) : Bool :=
  match i with
  | .encoderStep _ _ _ => true
  | .excursion => true
  | .speedUpdate => true
  | .leadingEdge => true
  | .trailingEdge => true
  | .miss _ => true
  | .retirement _ => true
  | .fire => true
  | .fireDropOn => true
  | .fireDropOff => true
  | .fireGripOn => true
  | .widthStart _ => true
  | .widthSample _ => true
  | .restTimerExpiry _ => true
  | .readyRise => true
  | .readyFall => true
  | .retryTimerExpiry => true
  | .settleTimerExpiry => true
  | .spacerPassage _ => true
  | .strobeEnd => true
  | .divertPulseEnd => true
  | .stackChangePulseEnd _ => true
  | .jamCondition => true
  | .joinTravelComplete => true
  | .slotStart _ _ => true
  | .frameError run => run.wellFormed
  | .readbackMismatch _ => true
  | .attemptSpoiled _ => true
  | .bid heard payload => heard.wellFormed && fullPayload .bid payload
  | .sightingSeen heard payload measured => heard.wellFormed && fullPayload .sightingSeen (payload ++ measured)
  | .sightingMissed heard payload => heard.wellFormed && fullPayload .sightingMissed payload
  | .sightingStray heard payload => heard.wellFormed && fullPayload .sightingStray payload
  | .recall heard payload => heard.wellFormed && fullPayload .recall payload
  | .void heard payload => heard.wellFormed && fullPayload .void payload
  | .jam heard => heard.wellFormed
  | .jamReleaseAccepted heard => heard.wellFormed
  | .purge heard => heard.wellFormed
  | .hail heard payload => heard.wellFormed && fullPayload .hail payload
  | .duplicateNumber _ _ => true
  | .lineHealthTimeout => true
  | .peerTtlExpiry station => station != 0
  | .hailTimerExpiry => true
  | .bidEntersOutbox => true
  | .withdrawalCompletion _ _ => true
  | .leaveCompletion _ _ => true
  | .configureStation _ _ => true
  | .configureLine _ _ => true
  | .configureArticle _ _ _ => true
  | .start _ _ _ => true
  | .leave _ => true
  | .reset _ => true
  | .fullReset _ => true
  | .load _ _ _ => true
  | .unload _ _ => true
  | .holdRequested _ => true
  | .holdReleased _ => true
  | .jamRelease _ => true
  | .purgeCommand _ => true
  | .ackEvents _ _ => true
  | .readEvent _ _ => true
  | .readTrack _ _ => true
  | .readPeer _ _ => true
  | .readStation _ => true
  | .unknownCommand command argument _ => namesNothing command argument
  | .transactionCut bytes _ => canBeCut bytes
  | .spoiledFrameDiscarded _ => true

end Sys2Proof
end

