-- ==== Sys2Proof/Certificates/Slice0/Obligations.lean ====
section
/-! DEFINITION. The statements about the LT-16, family by family. -/

open Sys2Proof Sys2Proof.Machine

/-! ## The queue and the step -/

/-- A step runs the command at the front of the queue, with the queue's rest. The queue is the model's, log 1. -/
def Obligations.StepRunsFrontCommand : Prop :=
  ∀ (c : Instr) (rest : List Instr) (s : State),
    step (s.setPending (c :: rest)) = exec c (s.setPending rest)

/-! ## Line counter -/

/-- ENCODER_STEP with a reference pair: the count moves by one with a legal step, the high-water count rises with an
advance, an illegal step bumps the slip counter, and EXCURSION is entered and left as R6 and R16 give. An advance
outside SETUP is marked for the rows that wait for it (log 4), counts the join travel of a JOINING station (R171), and
samples every watched eye: a level that is not the eye's own begins a pending edge or keeps its count, and one that is
drops it (R57, R58). A change of the pair ends the instant of R110, log 46. Without a reference pair the pair is taken
and the counts stay (R1). At an advance every open stray that grows is re-checked against a SETTLING or GRANTED own bid,
and the first in list order that conflicts bumps it (R34, R94). That the length is the travel to the high-water count is
log 30, that the first in list order is named log 14, and that the bump by growth belongs to this step, before any FIRE of
the same advance, log 50. The RESET pin is not asserted. -/
def Obligations.EncoderStepMovesCount : Prop :=
  (∀ (s : State) (a b : Bool) (eyes : Lanes) (q : Bool × Bool) (advance : Bool), s.port.held = false →
    s.line.pair = some q →
    (advance = true ↔ (a, b) = nextPair q ∧ 0 < signedDiff (s.line.count + 1) s.line.highWater) →
    ∃ t, exec (.encoderStep a b eyes) s = .next t
      ∧ t.line.pair = some (a, b)
      ∧ t.line.count = (if (a, b) = nextPair q then s.line.count + 1
          else if (a, b) = prevPair q then s.line.count - 1 else s.line.count)
      ∧ t.line.slips = (if a ≠ q.1 ∧ b ≠ q.2 then min 65535 (s.line.slips + 1) else s.line.slips)
      ∧ t.line.highWater = (if advance = true then s.line.count + 1 else s.line.highWater)
      ∧ t.line.excursion = (if (a, b) = nextPair q ∧ s.line.count + 1 = s.line.highWater then false
          else if (a, b) = prevPair q ∧ s.station ≠ .setup ∧ s.line.excursion = false
            ∧ s.run.reverse < signedDiff s.line.highWater (s.line.count - 1) then true
          else s.line.excursion)
      ∧ t.line.atAdvance = (if (a, b) = q then s.line.atAdvance else advance && s.station != .setup)
      ∧ t.line.speed = s.line.speed ∧ t.line.lead = s.line.lead ∧ t.line.margin = s.line.margin
      ∧ t.line.speedRef = s.line.speedRef ∧ t.line.speedDue = s.line.speedDue
      ∧ t.peers = { s.peers with
          joined := if advance = true ∧ s.station = .joining then s.peers.joined + 1 else s.peers.joined }
      ∧ (∀ k, t.eye.eyes.get k = { s.eye.eyes.get k with
          edge := if advance = true ∧ s.station ≠ .setup ∧ hasLane s.run.lanes k = true
              ∧ (s.eye.eyes.get k).state ≠ .idle then
            (if hasLane eyes k = ((s.eye.eyes.get k).state == .blocked) then none
              else some ((s.eye.eyes.get k).edge.getD (s.line.count + 1)))
            else (s.eye.eyes.get k).edge })
      ∧ (s.bid.own = none → t.track.records = s.track.records ∧ t.eye.sightings = s.eye.sightings
          ∧ t.feed.returned = if (a, b) = q then s.feed.returned else none)
      ∧ SameBut [.line, .track, .eye, .bid, .feed, .width, .outfeed, .link, .peers, .fifo] s t) ∧
  (∀ (s : State) (a b : Bool) (eyes : Lanes), s.port.held = false → s.line.pair = none →
    ∃ t, exec (.encoderStep a b eyes) s = .next t ∧ t.line = { s.line with pair := some (a, b) }
      ∧ SameBut (.line :: settlingBlocks) s t) ∧
  (∀ (s : State) (a b : Bool) (eyes : Lanes) (q : Bool × Bool) (o : OwnBid) (grown : Record → Bool),
    s.port.held = false → s.running → s.track.within → s.line.pair = some q → (a, b) = nextPair q →
    0 < signedDiff (s.line.count + 1) s.line.highWater → s.bid.own = some o →
    o.state = .settling ∨ o.state = .granted →
    (∀ r, grown r = true ↔ r.openFrom ≠ none
      ∧ r.gapLength (s.line.count + 1) ≠ r.gapLength s.line.count ∧ (r.state = .seen ∨ r.state = .stray)
      ∧ r.desc.tag ≠ o.desc.tag ∧ conflict s.run (r.span (s.line.count + 1)) o.span = true) →
    ∃ t, exec (.encoderStep a b eyes) s = .next t
      ∧ (∀ r, s.track.records.find? grown = some r → s.bumped t o r.desc.tag.owner.toNat)
      ∧ ((∀ r ∈ s.track.records, grown r = false) → t.bid.own = some o ∧ t.fifo = s.fifo))

/-- EXCURSION: the backward step beyond the reverse limit enters EXCURSION and raises REVERSED once, with the speed
estimate and the slip counter. A SETTLING or GRANTED bid is recalled with code 9 after it, its record gone; any other
bid is left (R6, R7, R95). REVERSED, of the line counter, comes before RECALLED, of the bid engine: log 8. The RESET pin
is not asserted. -/
def Obligations.ExcursionRaisesReversed : Prop :=
  ∀ (s : State) (q : Bool × Bool), s.port.held = false → s.line.pair = some q → s.running → s.line.excursion = false →
    s.run.reverse < signedDiff s.line.highWater (s.line.count - 1) →
    ∃ t, exec .excursion s = .next t
      ∧ t.line = { s.line with pair := some (prevPair q), count := s.line.count - 1, excursion := true
                               atAdvance := false }
      ∧ ((∀ o, s.bid.own = some o → o.state = .queued ∨ o.state = .fired) →
          t.fifo = s.withEvent { kind := .reversed, a := some s.line.speed, b := some s.line.slips }
            ∧ t.track.records = s.track.records ∧ (∀ o, s.bid.own = some o → t.bid.own = some o))
      ∧ (∀ o, s.bid.own = some o → o.state = .settling ∨ o.state = .granted →
          t.bid.own ≠ some o ∧ t.record o.desc.tag = s.withoutOwn o.desc.tag
            ∧ (s.roomFirst → Entry.fresh (.recall o.desc.tag) ∈ t.link.outbox)
            ∧ (s.roomFirst → (s.feed.positions.get o.serves).unloading = false →
                t.fifo = s.withEvents [{ kind := .reversed, a := some s.line.speed, b := some s.line.slips },
                  o.recalled 9]))
      ∧ SameBut (.line :: listBlocks) s t

/-- SPEED_UPDATE: the change of count times 50, clamped to 4000, the lead and the margin rounded up, and the next update
20 ms on (R8, R9, R10). In SETUP the settings are those of the store (log 10). Time moves as log 3 gives. The RESET pin
is not asserted. -/
def Obligations.SpeedUpdateRecomputes : Prop :=
  ∀ s : State, s.port.held = false → ∃ t, exec .speedUpdate s = .next t
    ∧ t.line.speed = max (-4000) (min 4000 (signedDiff s.line.count s.line.speedRef * 50))
    ∧ t.line.speedRef = s.line.count
    ∧ t.line.lead = min 2000 ((t.line.speed.toNat
        * (if s.stationSettings.role = .feed then s.stationSettings.actuator else 0) + 999) / 1000)
    ∧ t.line.margin = (t.line.speed.toNat * (s.lineSettings.settle + 10) + 999) / 1000
    ∧ t.line.speedDue = s.line.speedDue + 20000
    ∧ t.now = max s.now s.line.speedDue
    ∧ t.line.count = s.line.count ∧ t.line.highWater = s.line.highWater ∧ t.line.pair = s.line.pair
    ∧ t.line.slips = s.line.slips ∧ t.line.excursion = s.line.excursion
    ∧ SameBut [.now, .line] s t

/-- The conversion of millimetres to counts rounds up, exactly (R12). -/
def Obligations.DistanceConversionRoundsUp : Prop :=
  (∀ (cpm : Nat) (mm : Int), mm * cpm ≤ mmToCounts cpm mm * 1000 ∧ mmToCounts cpm mm * 1000 < mm * cpm + 1000) ∧
  mmToCounts 1500 333 = 500 ∧ mmToCounts 1500 (-333) = -499 ∧ mmToCounts 1700 7 = 12
    ∧ mmToCounts 2000 6000 = 12000 ∧ (∀ cpm, mmToCounts cpm 0 = 0)

/-! ## Gaps and conflict -/

/-- The required gap by the kinds of two descriptions that share a lane, and 0 for two that share none (R28). -/
def Obligations.GapFollowsKinds : Prop :=
  ∀ (f : Figures) (a b : Desc),
    (share a.lanes b.lanes = false → gap f a b = 0) ∧
    (share a.lanes b.lanes = true →
      (a.kind = .piece → b.kind = .piece →
        gap f a b = max a.trail b.lead + (if a.lot ≠ b.lot then f.lotBreak else 0)) ∧
      (a.kind = .piece → b.kind = .stray → gap f a b = max a.trail f.strayGap) ∧
      (a.kind = .stray → b.kind = .piece → gap f a b = max f.strayGap b.lead) ∧
      (a.kind = .stray → b.kind = .stray → gap f a b = f.strayGap) ∧
      (a.kind = .spacer → gap f a b = 0) ∧ (b.kind = .spacer → gap f a b = 0))

/-- Two records conflict when they share a lane and neither stands at least the required gap behind the other, on the
signed difference; the relation is symmetric, and objects that share no lane do not conflict (R29). -/
def Obligations.ConflictIsSymmetric : Prop :=
  ∀ (f : Figures) (x y : Span),
    (conflict f x y = true ↔ share x.desc.lanes y.desc.lanes = true
      ∧ ¬ (0 ≤ signedDiff y.tl (plus x.tt (gap f x.desc y.desc)))
      ∧ ¬ (0 ≤ signedDiff x.tl (plus y.tt (gap f y.desc x.desc)))) ∧
    conflict f x y = conflict f y x ∧
    (y.tl = x.tt → gap f x.desc y.desc = 0 → conflict f x y = false)

/-! ## Eyes -/

/-- LEADING_EDGE with one edge due, absorbed by no sighting and matched to a record: the eye is BLOCKED, the record
takes the edge's place, its passed-own-eye flag and this reporter, and keeps the rest; a sighting opens (R46, R58, R64).
A SETTLING or GRANTED own bid about the same tag is set apart, since its piece has not been fired. An own piece is armed
at an IDLE width sampler, and is its pending start otherwise (R115, R118; log 19). At an OUTFEED station, whose own bid
is NONE, the gap ahead is judged (R138); a piece without reject and with an article is counted in its stream's stack,
which it begins or changes, and its fold program is strobed, queued or overrun (R134, R135); any other is diverted
(R135, log 39). SHORT_GAP comes before STACK_CLOSED, DIVERTED and FOLD_OVERRUN of the same object: log 8. An edge that a
sighting in progress absorbs binds its eye to that sighting and changes nothing else: the sighting's record has the
lane, the edge is not later than the limit, and of several sightings the one nearer in count is taken, then the one
whose record stands earlier (R62). The record matched is the candidate of smallest distance, the earliest of several
(R63). Of two edges of one advance the second is judged after the first, and the sighting that the first opens may
absorb it (R61). At a THROAT station every leading edge gives its lane the block base (R125). A SETTLING or GRANTED own
bid about another tag is re-checked against the matched record and bumped where that is in SEEN, has moved, and
conflicts; a record in BID bumps none (R94). Which record the gap ahead is judged against is the model's choice where
that of the closure was replaced, log 47. What 'not later' means for two counts exactly 2^31 apart is log 49. Outside an
advance, and in SETUP, the row has no effect, log 2. -/
def Obligations.LeadingEdgeMatchesRecord : Prop :=
  (∀ (s : State) (k : Fin 4) (n : Count) (r : Record), s.acting = true → s.leadingDue = [(k, n)] →
    s.absorber k n = none → s.bestCandidate k n = some r → s.record r.desc.tag = some r →
    (∀ o, s.bid.own = some o → o.desc.tag = r.desc.tag → o.state = .fired) →
    ∃ t, exec .leadingEdge s = .next t
      ∧ t.eye.eyes = s.eye.eyes.set k { state := .blocked, edge := none }
      ∧ t.record r.desc.tag = some { r with tl := plus n s.run.eye, passed := true, reporter := s.number }
      ∧ (∃ g ∈ t.eye.sightings, g.tag = r.desc.tag ∧ g.stray = false ∧ g.first = n
          ∧ g.limit = plus n s.run.tolerance ∧ g.bound = laneBit k)
      ∧ SameBut [.track, .eye, .bid, .feed, .width, .throat, .outfeed, .link, .fifo] s t) ∧
  (∀ (s : State) (k : Fin 4) (n : Count) (r : Record) (p : WidthPiece), s.acting = true → s.leadingDue = [(k, n)] →
    s.absorber k n = none → s.bestCandidate k n = some r →
    (∀ o, s.bid.own = some o → o.state = .fired) →
    p = { tag := r.desc.tag, article := r.desc.article, lot := r.desc.lot, lane := k
          start := plus n s.run.sample, edgeTaken := false } →
    ∃ t, exec .leadingEdge s = .next t
      ∧ (s.role = .feed → r.own = true → r.desc.kind = .piece →
          t.width = (if s.width.phase = .idle then { s.width with phase := .armed, piece := some p }
            else { s.width with pending := some p }))
      ∧ (¬ (s.role = .feed ∧ r.own = true ∧ r.desc.kind = .piece) → t.width = s.width)
      ∧ (s.role ≠ .outfeed → t.fifo = s.fifo)) ∧
  (∀ (s : State) (k : Fin 4) (n : Count) (r : Record) (i : Fin 4) (x : Stream) (change : Bool), s.acting = true →
    s.leadingDue = [(k, n)] → s.absorber k n = none → s.bestCandidate k n = some r → s.bid.own = none →
    s.record r.desc.tag = some r → s.role = .outfeed → s.outfeed.streamOf r.desc.lanes = some i →
    x = s.outfeed.streams.get i → r.desc.reject = .none → r.desc.article ≠ 0 →
    (change = true ↔ ∃ c, x.current = some c ∧ c ≠ (r.desc.article, r.desc.lot) ∧ 0 < x.passed) →
    ∃ t, exec .leadingEdge s = .next t
      ∧ (t.outfeed.streams.get i).current = some (r.desc.article, r.desc.lot)
      ∧ (t.outfeed.streams.get i).passed =
          (if x.current = some (r.desc.article, r.desc.lot) then min 255 (x.passed + 1) else 1)
      ∧ (t.outfeed.streams.get i).serial =
          (if x.current = some (r.desc.article, r.desc.lot) then x.serial else x.serial + 1)
      ∧ (t.outfeed.streams.get i).lastStack = (if change = true then .change else x.lastStack)
      ∧ t.outfeed.stackChange = (if change = true then s.outfeed.stackChange.set i (some (s.now + 100000))
          else s.outfeed.stackChange)
      ∧ t.outfeed.divert = s.outfeed.divert
      ∧ t.outfeed.underEye = s.outfeed.underEye ++
          [{ tag := r.desc.tag, stream := some i, serial := (t.outfeed.streams.get i).serial, counted := true }]
      ∧ t.outfeed.foldCode = (if s.outfeed.strobe = none then s.store.foldProgram r.desc.article
          else s.outfeed.foldCode)
      ∧ t.outfeed.strobe = (if s.outfeed.strobe = none then some (s.now + 10000) else s.outfeed.strobe)
      ∧ t.outfeed.foldQueue = (if s.outfeed.strobe ≠ none ∧ s.outfeed.foldQueue.length < 4 then
          s.outfeed.foldQueue ++ [s.store.foldProgram r.desc.article] else s.outfeed.foldQueue)
      ∧ t.fifo = s.withEvents (s.shortGap i r.desc n
          ++ (if change = true then [{ kind := .stackClosed, article := x.current.map Prod.fst
                                       lot := x.current.map Prod.snd, a := some x.passed
                                       b := some (i.val + 1), code := some 3 }] else [])
          ++ (if s.outfeed.strobe ≠ none ∧ 4 ≤ s.outfeed.foldQueue.length then
              [{ kind := .foldOverrun, tag := some r.desc.tag, article := some r.desc.article
                 lot := some r.desc.lot }] else []))) ∧
  (∀ (s : State) (k : Fin 4) (n : Count) (r : Record) (i : Fin 4) (x : Stream), s.acting = true →
    s.leadingDue = [(k, n)] → s.absorber k n = none → s.bestCandidate k n = some r → s.bid.own = none →
    s.record r.desc.tag = some r → s.role = .outfeed → s.outfeed.streamOf r.desc.lanes = some i →
    x = s.outfeed.streams.get i → r.desc.reject ≠ .none ∨ r.desc.article = 0 →
    ∃ t, exec .leadingEdge s = .next t
      ∧ (t.outfeed.streams.get i).current = x.current ∧ (t.outfeed.streams.get i).passed = x.passed
      ∧ (t.outfeed.streams.get i).serial = x.serial ∧ t.outfeed.stackChange = s.outfeed.stackChange
      ∧ t.outfeed.divert = some (s.now + 100000) ∧ t.outfeed.strobe = s.outfeed.strobe
      ∧ t.outfeed.underEye = s.outfeed.underEye ++
          [{ tag := r.desc.tag, stream := some i, serial := x.serial, counted := false }]
      ∧ t.fifo = s.withEvents (s.shortGap i r.desc n ++
          [{ kind := .diverted, code := some (if r.desc.reject = .none then 5 else rejectCode r.desc.reject) }])) ∧
  (∀ (s : State) (k : Fin 4) (n : Count) (g : Sighting), s.acting = true → s.leadingDue = [(k, n)] →
    s.absorber k n = some g →
    ∃ t, exec .leadingEdge s = .next t
      ∧ t.eye.eyes = s.eye.eyes.set k { state := .blocked, edge := none }
      ∧ t.eye.sightings = s.eye.sightings.map (fun x =>
          if x.tag = g.tag then { x with bound := x.bound ||| laneBit k } else x)
      ∧ t.track.records = s.track.records ∧ t.fifo = s.fifo ∧ t.width = s.width
      ∧ SameBut ([.eye, .throat] ++ settlingBlocks) s t) ∧
  (∀ (s : State) (k : Fin 4) (n : Count),
    (∀ g, s.absorbs k n g = true ↔ ∃ r, s.record g.tag = some r ∧ hasLane r.desc.lanes k = true
      ∧ 0 ≤ signedDiff g.limit n) ∧
    (s.absorber k n = none ↔ ∀ g ∈ s.eye.sightings, s.absorbs k n g = false) ∧
    (∀ g, s.absorber k n = some g → g ∈ s.eye.sightings ∧ s.absorbs k n g = true
      ∧ ∀ x ∈ s.eye.sightings, s.absorbs k n x = true →
          (signedDiff g.first n).natAbs < (signedDiff x.first n).natAbs
            ∨ ((signedDiff g.first n).natAbs = (signedDiff x.first n).natAbs
                ∧ s.track.records.findIdx (fun r => r.desc.tag == g.tag)
                    ≤ s.track.records.findIdx (fun r => r.desc.tag == x.tag)))) ∧
  (∀ (s : State) (k : Fin 4) (n : Count) (distance : Record → Nat),
    (∀ r, distance r = (signedDiff n (plus r.tl (-s.run.eye))).natAbs) →
    (∀ r, s.candidate k n r = true ↔ (r.state = .bid ∨ r.state = .seen) ∧ hasLane r.desc.lanes k = true
      ∧ r.passed = false ∧ (distance r : Int) ≤ s.run.tolerance) ∧
    (s.bestCandidate k n = none ↔ ∀ r ∈ s.track.records, s.candidate k n r = false) ∧
    (∀ r, s.bestCandidate k n = some r → ∃ before after, s.track.records = before ++ r :: after
      ∧ s.candidate k n r = true ∧ (∀ x ∈ before, s.candidate k n x = true → distance r < distance x)
      ∧ (∀ x ∈ after, s.candidate k n x = true → distance r ≤ distance x))) ∧
  (∀ (s : State) (k j : Fin 4) (n m : Count) (r : Record), s.acting = true → s.leadingDue = [(k, n), (j, m)] →
    s.absorber k n = none → s.bestCandidate k n = some r → s.record r.desc.tag = some r →
    (∀ o, s.bid.own = some o → o.desc.tag = r.desc.tag → o.state = .fired) →
    s.absorber j m = none → hasLane r.desc.lanes j = true → 0 ≤ signedDiff (plus n s.run.tolerance) m →
    ∃ t, exec .leadingEdge s = .next t
      ∧ t.record r.desc.tag = some { r with tl := plus n s.run.eye, passed := true, reporter := s.number }
      ∧ (∃ g ∈ t.eye.sightings, g.tag = r.desc.tag ∧ g.first = n ∧ g.bound = laneBit k ||| laneBit j)
      ∧ t.eye.sightings.length ≤ s.eye.sightings.length + 1) ∧
  (∀ s : State, s.acting = true →
    ∃ t, exec .leadingEdge s = .next t
      ∧ (∀ k n, (k, n) ∈ s.leadingDue → t.eye.eyes.get k = { state := .blocked, edge := none }
          ∧ t.throat.bases.get k = (if s.role = .throat then some n else s.throat.bases.get k))
      ∧ (∀ k, (∀ n, (k, n) ∉ s.leadingDue) → t.eye.eyes.get k = s.eye.eyes.get k
          ∧ t.throat.bases.get k = s.throat.bases.get k)
      ∧ t.throat.jammed = s.throat.jammed ∧ t.throat.relay = s.throat.relay
      ∧ SameBut [.track, .eye, .bid, .feed, .width, .throat, .outfeed, .link, .fifo] s t) ∧
  (∀ (s : State) (k : Fin 4) (n : Count) (r : Record) (o : OwnBid), s.acting = true → s.leadingDue = [(k, n)] →
    s.absorber k n = none → s.bestCandidate k n = some r → s.record r.desc.tag = some r → s.role ≠ .outfeed →
    s.bid.own = some o → o.state = .settling ∨ o.state = .granted → o.desc.tag ≠ r.desc.tag →
    ∃ t r', exec .leadingEdge s = .next t ∧ t.record r.desc.tag = some r'
      ∧ r' = { r with tl := plus n s.run.eye, passed := true, reporter := s.number } ∧ s.judgesBump t r' o) ∧
  (∀ s : State, s.acting = false → exec .leadingEdge s = .next s)

/-- LEADING_EDGE with one edge due that no sighting absorbs and no record matches: one open STRAY record is created with
a fresh tag, at the edge's count plus E, and a stray sighting opens (R27, R46, R65). At an OUTFEED station, whose own
bid is NONE, it is diverted with code STRAY, judged against the object ahead of it, and entered under the eye without a
count (R136, R138), SHORT_GAP before DIVERTED (log 8); which record the gap ahead is judged against is the model's choice where
that of the closure was replaced, log 47, and a closure kept under the very tag that the stray takes is set apart. At a full list the stray is dropped without a sighting: TRACK_FULL joins the hold set and is raised once (R51,
R65, R81). Several unmatched edges of one advance create one stray together, with one sighting bound to their eyes; its
lanes are theirs and every watched lane whose CLEAR eye holds a pending edge no later than the tolerance allows (R65); what
'no later' means for two counts exactly 2^31 apart is log 49. A SETTLING or GRANTED own bid that conflicts with the new stray is bumped (R94). -/
def Obligations.LeadingEdgeCreatesStray : Prop :=
  (∀ (s : State) (k : Fin 4) (n : Count), s.acting = true → s.leadingDue = [(k, n)] → s.absorber k n = none →
    s.bestCandidate k n = none → s.track.records.length < 64 → s.ownElsewhere s.nextTag →
    ∃ t r, exec .leadingEdge s = .next t
      ∧ s.record s.nextTag = none
      ∧ t.record s.nextTag = some r
      ∧ r.desc.kind = .stray ∧ r.desc.article = 0 ∧ r.desc.lot = 0 ∧ r.desc.length = 1 ∧ r.desc.reject = .stray
      ∧ r.desc.rank = .normal ∧ r.desc.lead = s.run.strayGap ∧ r.desc.trail = s.run.strayGap
      ∧ hasLane r.desc.lanes k = true
      ∧ r.tl = plus n s.run.eye ∧ r.state = .stray ∧ r.own = true ∧ r.passed = true ∧ r.missed = false
      ∧ r.reporter = s.number ∧ r.measured = none ∧ r.openFrom = some n
      ∧ (∃ g ∈ t.eye.sightings, g.tag = s.nextTag ∧ g.stray = true ∧ g.first = n ∧ g.bound = laneBit k)
      ∧ (s.bid.own = none → s.role ≠ .outfeed → t.fifo = s.fifo)
      ∧ (s.bid.own = none → s.role = .outfeed →
          (∀ i c, (s.outfeed.streams.get i).closure = some c → c.1 ≠ s.nextTag) →
          t.outfeed.divert = some (s.now + 100000)
            ∧ t.outfeed.underEye = s.outfeed.underEye ++
                [{ tag := s.nextTag, stream := s.outfeed.streamOf r.desc.lanes
                   serial := ((s.outfeed.streamOf r.desc.lanes).map
                     (fun i => (s.outfeed.streams.get i).serial)).getD 0
                   counted := false }]
            ∧ t.fifo = s.withEvents (((s.outfeed.streamOf r.desc.lanes).elim [] (fun i => s.shortGap i r.desc n))
                ++ [{ kind := .diverted, tag := some s.nextTag, code := some 4 }]))
      ∧ SameBut [.track, .eye, .bid, .feed, .width, .throat, .outfeed, .link, .fifo] s t) ∧
  (∀ (s : State) (k : Fin 4) (n : Count), s.acting = true → s.leadingDue = [(k, n)] → s.absorber k n = none →
    s.bestCandidate k n = none → 64 ≤ s.track.records.length → s.bid.own = none →
    ∃ t, exec .leadingEdge s = .next t
      ∧ t.track = { s.track with counter := s.nextTag.seq + 1 }
      ∧ t.eye.eyes = s.eye.eyes.set k { state := .blocked, edge := none } ∧ t.eye.sightings = s.eye.sightings
      ∧ t.bid.own = none ∧ t.bid.hold = { s.bid.hold with trackFull := true }
      ∧ t.fifo = (if s.bid.hold.trackFull = true then s.fifo else
          s.withEvent { kind := .trackFull, tag := some s.nextTag, article := some 0, lot := some 0
                        a := some 64, code := some 4 })
      ∧ SameBut [.track, .eye, .bid, .throat, .outfeed, .fifo] s t) ∧
  (∀ (s : State) (n : Count), s.acting = true → s.leadingDue ≠ [] →
    (∀ p ∈ s.leadingDue, p.2 = n ∧ s.absorber p.1 n = none ∧ s.bestCandidate p.1 n = none) →
    s.track.records.length < 64 → s.ownElsewhere s.nextTag →
    ∃ t r g, exec .leadingEdge s = .next t
      ∧ t.record s.nextTag = some r ∧ r.tl = plus n s.run.eye
      ∧ (∀ x ∈ t.track.records, x = r ∨ x ∈ s.track.records)
      ∧ (∀ j, hasLane r.desc.lanes j = true ↔ (j, n) ∈ s.leadingDue ∨
          (hasLane s.run.lanes j = true ∧ (s.eye.eyes.get j).state = .clear
            ∧ ∃ c, (s.eye.eyes.get j).edge = some c ∧ 0 ≤ signedDiff (plus n s.run.tolerance) c))
      ∧ g ∈ t.eye.sightings ∧ g.tag = s.nextTag ∧ g.stray = true ∧ g.first = n
      ∧ (∀ j, hasLane g.bound j = true ↔ (j, n) ∈ s.leadingDue)
      ∧ (∀ x ∈ t.eye.sightings, x = g ∨ x ∈ s.eye.sightings)) ∧
  (∀ (s : State) (k : Fin 4) (n : Count) (o : OwnBid), s.acting = true → s.leadingDue = [(k, n)] →
    s.absorber k n = none → s.bestCandidate k n = none → s.track.records.length < 64 → s.ownElsewhere s.nextTag →
    s.role ≠ .outfeed → s.bid.own = some o → o.state = .settling ∨ o.state = .granted →
    ∃ t r, exec .leadingEdge s = .next t ∧ t.record s.nextTag = some r ∧ s.judgesBump t r o)

/-- TRAILING_EDGE, once no leading edge is due (R61), with one edge due at an eye bound to a sighting in progress: the
eye is CLEAR (R58, R66). At its last bound eye the sighting is closed. A sighting opened by a match gives its record the
measured length, this reporter, SEEN where it was BID, and the reject combined with the length verdict and the width
verdict held for an own piece (R25, R47, R67, R68); one opened as a stray ends its record's growth at the measured
length (R47, R67). In ACTIVE the SIGHTING takes the free entry (R68, R71). At an OUTFEED station the closed object
leaves the table under the eye, its stream keeps the closure, and a piece that was counted and now has a reject is
diverted late (R137). An eye that is not the last only leaves the sighting (R66). At a THROAT station every trailing
edge drops the block base of its lane (R125). A sighting of the piece that the width sampler has in hand is the subject
of another statement. A SETTLING or GRANTED own bid about another tag is re-checked against the closed record, and
bumped where that has entered SEEN or changed its length used for gaps, and conflicts (R94). While a leading edge is due
the row has no effect, log 2. -/
def Obligations.TrailingEdgeClosesSighting : Prop :=
  (∀ (s : State) (k : Fin 4) (n : Count) (g : Sighting) (r : Record), s.acting = true → s.leadingDue = [] →
    s.trailingDue = [(k, n)] →
    s.bindsAlone k g → g.stray = false → g.bound = laneBit k → s.record g.tag = some r →
    (∀ o, s.bid.own = some o → o.desc.tag = g.tag → o.state = .fired) →
    ∃ t r', exec .trailingEdge s = .next t
      ∧ t.eye.eyes = s.eye.eyes.set k { state := .clear, edge := none }
      ∧ (∀ x ∈ t.eye.sightings, x ∈ s.eye.sightings ∧ x.tag ≠ g.tag)
      ∧ (∀ x ∈ s.eye.sightings, x.tag ≠ g.tag → s.ownElsewhere x.tag → x ∈ t.eye.sightings)
      ∧ t.record g.tag = some r'
      ∧ r'.measured = some (max 1 (min 18000 (signedDiff n g.first))).toNat
      ∧ r'.state = (if r.state = .bid then .seen else r.state)
      ∧ r'.reporter = s.number ∧ r'.tl = r.tl ∧ r'.passed = r.passed ∧ r'.missed = r.missed ∧ r'.own = r.own
      ∧ r'.openFrom = r.openFrom
      ∧ ((∀ p, s.width.piece = some p → p.tag ≠ g.tag) →
          r'.desc = { r.desc with reject :=
            if r.desc.reject = .stray then .stray
            else if r.desc.reject = .double
              ∨ (s.expectedLength r.desc : Int) + s.run.tolerance < signedDiff n g.first then .double
            else if s.role = .feed ∧ r.own = true ∧ r.desc.kind = .piece then
              (match g.width with | some .narrow => .narrow | some .wide => .wide | _ => r.desc.reject)
            else r.desc.reject })
      ∧ SameBut [.track, .eye, .bid, .feed, .width, .throat, .outfeed, .link, .fifo] s t) ∧
  (∀ (s : State) (k : Fin 4) (n : Count) (g : Sighting) (r : Record), s.acting = true → s.leadingDue = [] →
    s.trailingDue = [(k, n)] → s.bindsAlone k g → g.bound = laneBit k → s.record g.tag = some r →
    (∀ o, s.bid.own = some o → o.state = .fired) →
    ∃ t r' l, exec .trailingEdge s = .next t ∧ t.record g.tag = some r' ∧ freshBids l
      ∧ (g.stray = true →
          r' = { r with desc := { r.desc with length := (max 1 (min 18000 (signedDiff n g.first))).toNat }
                        measured := some (max 1 (min 18000 (signedDiff n g.first))).toNat
                        reporter := s.number, openFrom := none })
      ∧ t.eye.sightings.map (fun x => x.tag) = (s.eye.sightings.map (fun x => x.tag)).filter (fun x => x != g.tag)
      ∧ (s.station ≠ .active → t.link = s.link)
      ∧ SameBut [.track, .eye, .bid, .feed, .width, .throat, .outfeed, .link, .fifo] s t
      ∧ (s.station = .active → s.roomLater = true → t.link.outbox = s.link.outbox ++
          [Entry.fresh (if g.stray = true then .stray { r'.desc with rank := .normal } (plus g.first s.run.eye)
            else .seen { r'.desc with rank := .normal } (plus g.first s.run.eye)
              (max 1 (min 18000 (signedDiff n g.first))).toNat)] ++ l)) ∧
  (∀ (s : State) (k : Fin 4) (n : Count) (g : Sighting), s.acting = true → s.leadingDue = [] →
    s.trailingDue = [(k, n)] → s.bindsAlone k g → g.bound ≠ laneBit k →
    (∀ p, s.width.piece = some p → p.tag ≠ g.tag) →
    ∃ t, exec .trailingEdge s = .next t
      ∧ t.eye.eyes = s.eye.eyes.set k { state := .clear, edge := none }
      ∧ t.eye.sightings = s.eye.sightings.map (fun x =>
          if x = g then { g with bound := g.bound &&& ~~~(laneBit k), lastTrail := some n } else x)
      ∧ t.track.records = s.track.records ∧ t.fifo = s.fifo ∧ t.outfeed.underEye = s.outfeed.underEye
      ∧ SameBut ([.eye, .width, .throat] ++ settlingBlocks) s t) ∧
  (∀ (s : State) (k : Fin 4) (n : Count) (g : Sighting) (r' : Record) (e : UnderEye) (i : Fin 4) (t : State)
    (late : Bool),
    s.acting = true → s.leadingDue = [] → s.trailingDue = [(k, n)] → s.bindsAlone k g → g.bound = laneBit k →
    (s.record g.tag).isSome = true → s.bid.own = none → s.role = .outfeed → s.width.piece = none →
    s.station ≠ .active ∨ s.roomLater = true →
    s.outfeed.underEye.find? (fun u => u.tag == g.tag) = some e → e.stream = some i →
    exec .trailingEdge s = .next t → t.record g.tag = some r' →
    (late = true ↔ e.counted = true ∧ r'.desc.reject ≠ .none) →
    t.outfeed.underEye = s.outfeed.underEye.filter (fun u => u.tag != g.tag)
      ∧ (t.outfeed.streams.get i).closure = some (g.tag, n)
      ∧ (t.outfeed.streams.get i).passed = (s.outfeed.streams.get i).passed
          - (if late = true ∧ (s.outfeed.streams.get i).serial = e.serial then 1 else 0)
      ∧ t.outfeed.divert = (if late = true then some (s.now + 100000) else s.outfeed.divert)
      ∧ t.fifo = (if late = true then
          s.withEvent { kind := .diverted, code := some (rejectCode r'.desc.reject)
                        b := some (if (s.outfeed.streams.get i).serial = e.serial
                          ∧ 0 < (s.outfeed.streams.get i).passed then 1 else 0) }
        else s.fifo)) ∧
  (∀ s : State, s.acting = true → s.leadingDue = [] →
    ∃ t, exec .trailingEdge s = .next t
      ∧ (∀ k n, (k, n) ∈ s.trailingDue → t.eye.eyes.get k = { state := .clear, edge := none }
          ∧ t.throat.bases.get k = (if s.role = .throat then none else s.throat.bases.get k))
      ∧ (∀ k, (∀ n, (k, n) ∉ s.trailingDue) → t.eye.eyes.get k = s.eye.eyes.get k
          ∧ t.throat.bases.get k = s.throat.bases.get k)
      ∧ t.throat.jammed = s.throat.jammed ∧ t.throat.relay = s.throat.relay) ∧
  (∀ s : State, s.leadingDue ≠ [] → exec .trailingEdge s = .next s) ∧
  (∀ (s : State) (k : Fin 4) (n : Count) (g : Sighting) (o : OwnBid), s.acting = true → s.leadingDue = [] →
    s.trailingDue = [(k, n)] → s.bindsAlone k g → g.bound = laneBit k → (s.record g.tag).isSome = true →
    (∀ p, s.width.piece = some p → p.tag ≠ g.tag) → (∀ u ∈ s.outfeed.underEye, u.tag = g.tag → u.counted = false) →
    s.station ≠ .active ∨ (s.link.outbox.length < 6 ∧ s.roomLater = true) →
    s.bid.own = some o → o.state = .settling ∨ o.state = .granted → o.desc.tag ≠ g.tag →
    ∃ t r', exec .trailingEdge s = .next t ∧ t.record g.tag = some r'
      ∧ (s.bumpedBy r' o → s.bumped t o r'.desc.tag.owner.toNat)
      ∧ (s.role ≠ .outfeed → ¬ s.bumpedBy r' o → t.bid.own = some o ∧ t.fifo = s.fifo))

/-- MISS, once every edge of the advance is taken (R61): in JOINING and FAULT a first miss is counted at once, with this
station as last reporter, and a second one removes the record with LOST, and with UNCONFIRMED where it is the fired one:
LOST, of the track list, before UNCONFIRMED, of the bid engine, is the model's choice, log 8; in ACTIVE the record of
anything but an own piece is reported instead, and its missed count stays (R47, R69, R70). A miss of the fired record
queues VOID, fills the deferral set with the FEED peers that are PRESENT, and raises VOIDED; the record stays (R70, R98,
R100, R170). A miss of an own piece whose own bid is not FIRED about it queues VOID and fills the deferral set as well, and
raises no VOIDED: the own bid, where there is one, stands (R70; log 17). A record is missed where R69 says so: it is no SPACER, a watched lane is among its lanes, its flag is
clear, the high-water count is later than the end of its match span, and no pending leading edge that could still match
it defers the miss; what 'no later' means there for two counts exactly 2^31 apart is log 49. Before the edges are taken the
row has no effect, log 2. The record under the fired tag is the fired one, log 51. -/
def Obligations.MissCountedOrReported : Prop :=
  (∀ (s : State) (tag : Tag) (r : Record), s.acting = true → s.edgesTaken = true → s.record tag = some r →
    s.missedNow r = true → s.station ≠ .active → r.missed = false →
    ∃ t, exec (.miss tag) s = .next t
      ∧ t.track.records = s.track.records.map (fun x => if x.desc.tag = tag then
          { x with passed := true, missed := true, reporter := s.number } else x)
      ∧ SameBut [.track, .bid, .outfeed] s t) ∧
  (∀ (s : State) (tag : Tag) (r : Record), s.acting = true → s.edgesTaken = true → s.record tag = some r →
    s.missedNow r = true → s.station ≠ .active → r.missed = true →
    ∃ t, exec (.miss tag) s = .next t
      ∧ t.record tag = none
      ∧ (∀ x ∈ t.track.records, x ∈ s.track.records)
      ∧ (∀ x ∈ s.track.records, x.desc.tag ≠ tag → s.ownElsewhere x.desc.tag → x ∈ t.track.records)
      ∧ (s.bid.own = none → t.fifo = s.withEvent (r.lost s.number))
      ∧ (∀ o, s.bid.own = some o → o.state = .fired → o.desc.tag = tag →
          (s.feed.positions.get o.serves).state ≠ .bidding →
          t.bid.own = none ∧ t.fifo = s.withEvents [r.lost s.number, { kind := .unconfirmed, code := some 2 }])
      ∧ SameBut listBlocks s t) ∧
  (∀ (s : State) (r : Record) (last : Count), last = plus (plus r.tl (-s.run.eye)) s.run.tolerance →
    (s.missedNow r = true ↔ r.state ≠ .spacer ∧ share r.desc.lanes s.run.lanes = true ∧ r.passed = false
      ∧ 0 < signedDiff s.line.highWater last
      ∧ ∀ k c, hasLane r.desc.lanes k = true → hasLane s.run.lanes k = true → (s.eye.eyes.get k).state = .clear →
          (s.eye.eyes.get k).edge = some c → signedDiff last c < 0)) ∧
  (∀ (s : State) (n : Nat), 1 ≤ n → n ≤ 15 →
    (hasStation s.feedPeers n = true ↔ ∃ q ∈ s.peers.entries, q.number = n ∧ q.state = .present
      ∧ ∃ f, q.hailed = some f ∧ f.role = some .feed)) ∧
  (∀ (s : State) (tag : Tag) (r : Record), s.acting = true → s.edgesTaken = true → s.record tag = some r →
    s.missedNow r = true → s.station = .active → ¬ (r.own = true ∧ r.desc.kind = .piece) → s.roomLater = true →
    ∃ t, exec (.miss tag) s = .next t
      ∧ t.track.records = s.track.records.map (fun x => if x.desc.tag = tag then { x with passed := true } else x)
      ∧ Entry.fresh (.missed { r.desc with rank := .normal } r.tl) ∈ t.link.outbox
      ∧ SameBut settlingBlocks s t) ∧
  (∀ (s : State) (tag : Tag) (r : Record) (o : OwnBid), s.acting = true → s.edgesTaken = true →
    s.station = .active → s.record tag = some r → s.missedNow r = true → r.own = true → r.desc.kind = .piece →
    s.bid.own = some o → o.state = .fired → o.desc.tag = tag →
    (s.feed.positions.get o.serves).state ≠ .bidding → s.roomFirst →
    ∃ t, exec (.miss tag) s = .next t
      ∧ Entry.fresh (.void tag) ∈ t.link.outbox
      ∧ t.bid.deferral = s.feedPeers
      ∧ t.fifo = s.withEvent { kind := .voided }
      ∧ (∃ r', t.record tag = some r' ∧ r'.passed = true ∧ r'.missed = r.missed)
      ∧ t.bid.own ≠ some o
      ∧ SameBut (.fifo :: settlingBlocks) s t) ∧
  (∀ (s : State) (tag : Tag) (r : Record), s.acting = true → s.edgesTaken = true → s.station = .active →
    s.record tag = some r → s.missedNow r = true → r.own = true → r.desc.kind = .piece →
    (∀ o, s.bid.own = some o → o.desc.tag = tag → o.state ≠ .fired) → s.roomFirst →
    ∃ t l, exec (.miss tag) s = .next t ∧ freshBids l
      ∧ t.link.outbox = s.link.outbox ++ [Entry.fresh (.void tag)] ++ l
      ∧ t.bid.deferral = s.feedPeers
      ∧ t.track.records = s.track.records.map (fun x => if x.desc.tag = tag then { x with passed := true } else x)
      ∧ (∀ o, s.bid.own = some o → t.bid.own = some o)
      ∧ SameBut settlingBlocks s t) ∧
  (∀ (s : State) (tag : Tag), s.edgesTaken = false → exec (.miss tag) s = .next s)

/-- RETIREMENT, of a record that is no open stray, whose retirement distance is reached, and which has passed the eye,
is a SPACER or shares no watched lane (R50), removes the record, and touches no other record but that of an own bid it
ends (R50, R140). With no own bid it clears the TRACK_FULL cause where it leaves 56 records or fewer (R52), and raises
nothing; where the record is the fired one, the own bid ends with UNCONFIRMED, code 1 (R98). The
record under the fired tag is the fired one, log 51. -/
def Obligations.RetirementRemovesRecord : Prop :=
  (∀ (s : State) (tag : Tag) (r : Record), s.acting = true → s.record tag = some r → s.retiresNow r = true →
    ∃ t, exec (.retirement tag) s = .next t
      ∧ t.record tag = none
      ∧ (∀ x ∈ t.track.records, x ∈ s.track.records)
      ∧ (∀ x ∈ s.track.records, x.desc.tag ≠ tag → s.ownElsewhere x.desc.tag → x ∈ t.track.records)
      ∧ (s.bid.own = none → t.fifo = s.fifo
          ∧ t.bid.hold = { s.bid.hold with trackFull :=
              s.bid.hold.trackFull && decide (56 < t.track.records.length) })
      ∧ SameBut listBlocks s t) ∧
  (∀ (s : State) (tag : Tag) (r : Record) (o : OwnBid), s.acting = true → s.record tag = some r →
    s.retiresNow r = true → s.bid.own = some o → o.state = .fired → o.desc.tag = tag →
    (s.feed.positions.get o.serves).state ≠ .bidding →
    ∃ t, exec (.retirement tag) s = .next t
      ∧ t.bid.own ≠ some o ∧ t.fifo = s.withEvent { kind := .unconfirmed, code := some 1 }) ∧
  (∀ (s : State) (r : Record), s.retiresNow r = true ↔ r.openFrom = none
    ∧ 0 ≤ signedDiff s.line.highWater (plus (plus r.tl (r.measured.getD r.desc.length))
        (-s.run.eye + r.desc.trail + s.run.tolerance))
    ∧ (r.passed = true ∨ r.desc.kind = .spacer ∨ share r.desc.lanes s.run.lanes = false))

/-! ## Feed station -/

/-- FIRE: at an advance, with a GRANTED bid whose landing count lies within the lead, GRIP is switched off, the head is
FIRING, the own bid is FIRED, the passed-over count is 0, and FIRED carries the landing distance and the lead (R97,
R112). A running sequence shuts a second fire out (log 18). -/
def Obligations.FireOpensClamp : Prop :=
  ∀ (s : State) (o : OwnBid), s.bid.own = some o → o.state = .granted → s.line.atAdvance = true →
    s.station = .active → s.role = .feed → s.bid.hold = HoldSet.empty → s.feed.fire = none →
    signedDiff o.landing s.line.highWater ≤ s.line.lead →
    ∃ t, exec .fire s = .next t
      ∧ t.feed.grip = false ∧ t.feed.drop = s.feed.drop
      ∧ t.feed.positions = s.feed.positions.set o.serves { s.feed.positions.get o.serves with state := .firing }
      ∧ t.feed.fire = some { stage := .beforeDrop, due := s.now + s.run.station.dead * 1000
                             dead := s.run.station.dead, pulse := s.run.station.pulse, position := some o.serves }
      ∧ t.feed.ready = s.feed.ready ∧ t.feed.lastFilled = s.feed.lastFilled
      ∧ t.bid = { s.bid with own := some { o with state := .fired }, passedOver := 0 }
      ∧ t.fifo = s.withEvent { kind := .fired, tag := some o.desc.tag, article := some o.desc.article
                               lot := some o.desc.lot, a := some (signedDiff o.landing s.line.highWater)
                               b := some s.line.lead }
      ∧ SameBut [.bid, .feed, .fifo] s t

/-- The fire sequence: DROP on after the dead time, off after the release pulse, GRIP on after the second dead time; at
its end the position is EMPTY. Each step comes at its time. At DROP on and DROP off nothing else of the feed sequencer
moves; at GRIP on the READY level and the last-filled position stand, and every other position stands but for a LOADED
head that a search makes BIDDING in that step (R78, R107, R112). The dead time and the pulse are those of the sequence, as
they stood at its fire, log 32. Time moves as log 3 gives. -/
def Obligations.FireSequenceRuns : Prop :=
  ∀ (s : State) (q : FireSequence), s.feed.fire = some q →
    (q.stage = .beforeDrop →
      ∃ t, exec .fireDropOn s = .next t ∧ t.now = max s.now q.due
        ∧ t.feed = { s.feed with
            grip := false, drop := true, fire := some { q with stage := .dropping, due := q.due + q.pulse * 1000 } }
        ∧ SameBut [.now, .line, .feed] s t) ∧
    (q.stage = .dropping →
      ∃ t, exec .fireDropOff s = .next t ∧ t.now = max s.now q.due
        ∧ t.feed = { s.feed with
            drop := false, fire := some { q with stage := .beforeGrip, due := q.due + q.dead * 1000 } }
        ∧ SameBut [.now, .line, .feed] s t) ∧
    (q.stage = .beforeGrip →
      ∃ t, exec .fireGripOn s = .next t ∧ t.now = max s.now q.due
        ∧ t.feed.grip = true ∧ t.feed.drop = false ∧ t.feed.fire = none
        ∧ (∀ i, q.position = some i → (s.feed.positions.get i).state = .firing → t.feed.positions.get i = Position.none)
        ∧ t.feed.ready = s.feed.ready ∧ t.feed.lastFilled = s.feed.lastFilled
        ∧ (∀ i, q.position ≠ some i → t.feed.positions.get i = s.feed.positions.get i
            ∨ ((s.feed.positions.get i).state = .loaded
                ∧ t.feed.positions.get i = { s.feed.positions.get i with state := .bidding }))
        ∧ SameBut ([.now, .line] ++ settlingBlocks) s t)

/-- The width sampler: an ARMED one that has reached its start count begins with its first code; a code is added each
millisecond; the eighth gives the width by R116, the verdict of R117 for the piece's sighting, and the rest of R118. A
width is NARROW below the nominal width minus the tolerance, WIDE above their sum, and OK otherwise. The trailing edge
of the eye that opened the piece's sighting aborts a sampler that has the piece in hand: an ARMED one returns to IDLE
with WIDTH_UNMEASURED code 1 and no code counted, its pending start standing (R115; log 37); a CONVERTING one rests, its
sum discarded, with code 2 and the codes it had taken (R118, R119). The last width stays. Time moves as log 3 gives. -/
def Obligations.WidthConversionRuns : Prop :=
  (∀ (s : State) (p : WidthPiece) (code : BitVec 12), s.width.piece = some p → s.width.phase = .armed →
    s.acting = true → 0 ≤ signedDiff s.line.highWater p.start →
    ∃ t, exec (.widthStart code) s = .next t
      ∧ t.width = { s.width with phase := .converting, sum := code.toNat, samples := 1, due := s.now + 1000 }
      ∧ SameBut [.width] s t) ∧
  (∀ (s : State) (p : WidthPiece) (code : BitVec 12), s.width.piece = some p → s.width.phase = .converting →
    s.width.samples < 7 →
    ∃ t, exec (.widthSample code) s = .next t
      ∧ t.width = { s.width with
          sum := s.width.sum + code.toNat, samples := s.width.samples + 1, due := s.width.due + 1000 }
      ∧ t.now = max s.now s.width.due
      ∧ SameBut [.now, .line, .width] s t) ∧
  (∀ (s : State) (p : WidthPiece) (code : BitVec 12), s.width.piece = some p → s.width.phase = .converting →
    s.width.samples = 7 →
    ∃ t, exec (.widthSample code) s = .next t
      ∧ t.width.phase = .resting ∧ t.width.due = max s.now s.width.due + 2000
      ∧ t.width.last = ((s.width.sum + code.toNat + 4) / 8 * s.run.station.curtain + 2047) / 4095
      ∧ t.width.pending = s.width.pending
      ∧ t.eye.eyes = s.eye.eyes
      ∧ t.eye.sightings = s.eye.sightings.map (fun g => if g.tag = p.tag then
          { g with width := some (widthVerdict (s.ownArticle p.article) t.width.last) } else g)
      ∧ SameBut [.now, .line, .eye, .width] s t) ∧
  (∀ (a : Article) (w : Nat),
    (widthVerdict a w = .narrow ↔ (w : Int) < a.width - a.tolerance) ∧
    (widthVerdict a w = .wide ↔ a.width + a.tolerance < w) ∧
    (widthVerdict a w = .ok ↔ ((a.width : Int) - a.tolerance ≤ w ∧ w ≤ a.width + a.tolerance))) ∧
  (∀ (s : State) (k : Fin 4) (n : Count) (g : Sighting) (p : WidthPiece), s.acting = true → s.leadingDue = [] →
    s.trailingDue = [(k, n)] → s.eye.sightings = [g] → hasLane g.bound k = true → g.stray = false →
    s.role = .feed → (∀ o, s.bid.own = some o → o.state = .fired) → s.width.piece = some p → p.tag = g.tag →
    p.lane = k →
    s.width.phase = .armed ∨ s.width.phase = .converting → s.outfeed.underEye = [] →
    s.station ≠ .active ∨ s.roomLater = true →
    ∃ t, exec .trailingEdge s = .next t
      ∧ t.width = { s.width with
          phase := if s.width.phase = .armed then .idle else .resting, piece := none
          sum := if s.width.phase = .armed then s.width.sum else 0
          due := if s.width.phase = .armed then s.width.due else s.now + 2000
          pending := s.width.pending.map (fun q =>
            if q.tag = g.tag ∧ q.lane = k then { q with edgeTaken := true } else q) }
      ∧ t.fifo = s.withEvent { kind := .widthUnmeasured, tag := some p.tag, article := some p.article, lot := some p.lot
                               a := some (if s.width.phase = .armed then 0 else s.width.samples)
                               code := some (if s.width.phase = .armed then 1 else 2) })

/-- REST_TIMER_EXPIRY: without a pending start the sampler is IDLE; a pending piece that has passed is UNMEASURED with
WIDTH_UNMEASURED code REST; one still under the eye is taken up, CONVERTING at once when its start count is reached and
ARMED otherwise. The last width stays (R118). Time moves as log 3 gives. -/
def Obligations.RestEndsByPendingStart : Prop :=
  ∀ (s : State) (code : BitVec 12), s.width.phase = .resting →
    ∃ t, exec (.restTimerExpiry code) s = .next t
      ∧ t.width.last = s.width.last ∧ t.width.pending = none
      ∧ t.now = max s.now s.width.due
      ∧ (s.width.pending = none → t.width.phase = .idle ∧ t.width.piece = none ∧ t.fifo = s.fifo ∧ t.eye = s.eye) ∧
        (∀ p, s.width.pending = some p →
          (p.edgeTaken = true → t.width.phase = .idle ∧ t.width.piece = none
            ∧ t.fifo = s.withEvent { kind := .widthUnmeasured, tag := some p.tag, article := some p.article
                                     lot := some p.lot, a := some 0, code := some 3 }) ∧
          (p.edgeTaken = false → t.width.piece = some p ∧ t.fifo = s.fifo ∧ t.eye = s.eye ∧
            (if 0 ≤ signedDiff s.line.count p.start then t.width.phase = .converting ∧ t.width.sum = code.toNat
              ∧ t.width.samples = 1 else t.width.phase = .armed)))
      ∧ SameBut [.now, .line, .eye, .width, .fifo] s t

/-- LOAD at a FEED station in JOINING or ACTIVE: the article check first, then the position after the newest occupied
one, or the one after the last filled where none is occupied; a full chain gives FULL (R20, R106). The data are the
article and the lot, and bytes beyond them are ignored; with fewer than three the transaction is cut short (R176, R177).
The filled position carries no mark of a bid that ended (log 46). The head is the first occupied position of the chain
and the newest the last (R105), the chain taken from the position after the last filled, log 33. Elsewhere it is refused
with WRONG STATE (R179). -/
def Obligations.LoadFillsNextPosition : Prop :=
  (∀ (s : State) (article lot rest : List Byte) (a b c : Byte) (i : Fin 4), article ++ lot = a :: b :: c :: rest →
    s.port.held = false →
    s.role = .feed → s.station = .joining ∨ s.station = .active → s.loadable a.toNat = true →
    s.feed.room = some i →
    ∃ t, exec (.load article lot) s = .next t
      ∧ t.port.last = .ok ∧ t.feed.lastFilled = i
      ∧ (t.feed.positions.get i).article = a.toNat ∧ (t.feed.positions.get i).lot = 256 * b.toNat + c.toNat
      ∧ (t.feed.positions.get i).unloading = false ∧ (t.feed.positions.get i).occupied = true
      ∧ (∀ j, j ≠ i → (t.feed.positions.get j).article = (s.feed.positions.get j).article
          ∧ (t.feed.positions.get j).lot = (s.feed.positions.get j).lot)
      ∧ (∀ n, t.feed.returned ≠ some (i, n))
      ∧ SameBut (.port :: settlingBlocks) s t) ∧
  (∀ (s : State) (article lot rest : List Byte) (a b c : Byte) (r : Result), article ++ lot = a :: b :: c :: rest →
    s.port.held = false →
    r = (if s.role = .feed ∧ (s.station = .joining ∨ s.station = .active) then
      (if s.loadable a.toNat = true then .full else .badArticle) else .wrongState) →
    (r = .full → s.feed.room = none) →
    ∃ t, exec (.load article lot) s = .next t ∧ t.port.last = r ∧ SameBut [.port] s t) ∧
  (∀ (s : State) (article lot : List Byte), s.port.held = false → (article ++ lot).length < 3 →
    ∃ t, exec (.load article lot) s = .next t ∧ SameBut [.port] s t
      ∧ (if s.role = .feed ∧ (s.station = .joining ∨ s.station = .active) then
          t.port.cut = true ∧ t.port.last = s.port.last else t.port.cut = false ∧ t.port.last = .wrongState)) ∧
  (∀ (s : State) (n : Nat), s.loadable n = true ↔
    ∃ a, 1 ≤ n ∧ s.store.articles[n - 1]? = some a ∧ a.enabled = true
      ∧ (a.fullWidth = true → s.run.lanes = s.run.lineLanes)) ∧
  (∀ f : FeedSequencer, f.newest = none → f.room = some (f.lastFilled + 1)) ∧
  (∀ (f : FeedSequencer) (i : Fin 4), f.newest = some i →
    f.room = if (f.positions.get (i + 1)).occupied = true then none else some (i + 1)) ∧
  (∀ (f : FeedSequencer) (place : Fin 4 → Nat), (∀ i, place i = (i - (f.lastFilled + 1)).val) →
    (∀ i, (f.positions.get i).occupied = true ↔ (f.positions.get i).state ≠ .empty) ∧
    (∀ i, f.head = some i ↔ (f.positions.get i).state ≠ .empty
      ∧ ∀ j, place j < place i → (f.positions.get j).state = .empty) ∧
    (∀ i, f.newest = some i ↔ (f.positions.get i).state ≠ .empty
      ∧ ∀ j, place i < place j → (f.positions.get j).state = .empty))

/-- UNLOAD at a FEED station outside SETUP: an EMPTY position or a number outside 1 to 4 gives NOT FOUND, a FIRING one
TOO LATE; a LOADED position is emptied at once with UNLOADED, and where it was the head the wait for its window ends:
the next head is searched for (R78, R105, R108). The BIDDING head of a SETTLING or GRANTED bid is emptied after its
recall, with RECALLED and then UNLOADED (R108). The head of a QUEUED bid is marked: a BID that waits is withdrawn at
once, with RECALLED and then UNLOADED; one that is SENDING is cancelled, with RECALLED alone; a withdrawal that runs
already only takes the mark (R95, R109). Where another event ended the head's bid in the same instant, the head is
LOADED to the UNLOAD: it is emptied with UNLOADED alone, without a tag and with no RECALLED for code UNLOAD (R110). The
model's search has queued a new bid in that event's step, and takes it back without event while its BID waits: the mark
of the instant is the model's choice, log 46. A bid ended by LATE and an UNLOAD behind it show the two steps. Elsewhere
UNLOAD is refused (R179). -/
def Obligations.UnloadFollowsPosition : Prop :=
  (∀ (s : State) (i : Fin 4), s.port.held = false → s.role = .feed → s.running →
    (s.feed.positions.get i).state = .loaded →
    ∃ t, exec (.unload (BitVec.ofNat 8 (i.val + 1))) s = .next t
      ∧ t.port.last = .ok ∧ t.feed.positions.get i = Position.none
      ∧ t.fifo = s.withEvent { kind := .unloaded, article := some (s.feed.positions.get i).article
                               lot := some (s.feed.positions.get i).lot, a := some (i.val + 1) }
      ∧ (s.feed.head = some i → t.bid.retry = none ∨ t.bid.retry = some (s.now + 100000))
      ∧ SameBut (.port :: .fifo :: settlingBlocks) s t) ∧
  (∀ (s : State) (i j : Fin 4) (w : Count), s.port.held = false → s.role = .feed → s.station = .active →
    s.bid.hold = HoldSet.empty → s.bid.own = none → s.feed.ready = true →
    s.feed.head = some i → (s.feed.positions.get i).state = .loaded →
    (s.setPosition i .none).feed.head = some j → j ≠ i → (s.feed.positions.get j).state = .loaded →
    (s.setPosition i .none).findWindow (.head j) = some w →
    ∃ t o, exec (.unload (BitVec.ofNat 8 (i.val + 1))) s = .next t
      ∧ t.bid.own = some o ∧ o.state = .queued ∧ o.serves = j ∧ o.window = w ∧ t.bid.retry = none
      ∧ (t.feed.positions.get j).state = .bidding) ∧
  (∀ (s : State) (i : Fin 4) (o : OwnBid), s.port.held = false → s.role = .feed → s.running →
    (s.feed.positions.get i).state = .bidding → s.bid.own = some o → o.state = .settling ∨ o.state = .granted →
    o.serves = i →
    ∃ t, exec (.unload (BitVec.ofNat 8 (i.val + 1))) s = .next t
      ∧ t.port.last = .ok ∧ t.feed.positions.get i = Position.none
      ∧ t.record o.desc.tag = s.withoutOwn o.desc.tag
      ∧ t.bid.own ≠ some o
      ∧ (s.roomFirst → (s.feed.positions.get i).unloading = false →
          Entry.fresh (.recall o.desc.tag) ∈ t.link.outbox
            ∧ t.fifo = s.withEvents [o.recalled 10, s.unloaded o])
      ∧ SameBut (.port :: listBlocks) s t) ∧
  (∀ (s : State) (i : Fin 4) (o : OwnBid), s.port.held = false → s.role = .feed → s.running →
    (s.feed.positions.get i).state = .bidding → s.bid.own = some o → o.state = .queued → o.serves = i →
    o.cancelling = false → s.bidWaits → s.feed.returned ≠ some (i, s.now) →
    ∃ t l, exec (.unload (BitVec.ofNat 8 (i.val + 1))) s = .next t
      ∧ t.port.last = .ok ∧ t.feed.positions.get i = Position.none
      ∧ (∀ o', t.bid.own = some o' → o'.serves ≠ i)
      ∧ t.link.outbox = s.link.outbox.filter (fun e => e.msg.kind != .bid) ++ l ∧ freshBids l
      ∧ t.fifo = s.withEvents [o.recalled 10, s.unloaded o]
      ∧ SameBut ([.port, .fifo] ++ settlingBlocks) s t) ∧
  (∀ (s : State) (i : Fin 4) (o : OwnBid), s.port.held = false → s.role = .feed → s.running →
    (s.feed.positions.get i).state = .bidding → s.bid.own = some o → o.state = .queued → o.serves = i →
    o.cancelling = false → s.bidWaits → s.feed.returned = some (i, s.now) →
    ∃ t l, exec (.unload (BitVec.ofNat 8 (i.val + 1))) s = .next t
      ∧ t.port.last = .ok ∧ t.feed.positions.get i = Position.none
      ∧ (∀ o', t.bid.own = some o' → o'.serves ≠ i)
      ∧ t.link.outbox = s.link.outbox.filter (fun e => e.msg.kind != .bid) ++ l ∧ freshBids l
      ∧ t.fifo = s.withEvent { s.unloaded o with tag := none }
      ∧ SameBut ([.port, .fifo] ++ settlingBlocks) s t) ∧
  (∀ (s : State) (i : Fin 4) (o : OwnBid), s.port.held = false → s.role = .feed → s.running →
    s.bid.own = some o → o.state = .settling → o.desc.kind ≠ .spacer → o.serves = i →
    (s.feed.positions.get i).state = .bidding → (s.feed.positions.get i).unloading = false →
    signedDiff o.landing s.line.count < s.line.lead → s.roomFirst →
    (∀ e ∈ s.link.outbox, e.sending = true → e.msg.kind ≠ .bid) →
    ∃ t u, exec .settleTimerExpiry s = .next t ∧ exec (.unload (BitVec.ofNat 8 (i.val + 1))) t = .next u
      ∧ u.port.last = .ok ∧ u.feed.positions.get i = Position.none
      ∧ (∀ o', u.bid.own = some o' → o'.serves ≠ i)
      ∧ u.fifo = s.withEvents [o.recalled 6, { s.unloaded o with tag := none }]) ∧
  (∀ (s : State) (i : Fin 4) (o : OwnBid), s.port.held = false → s.role = .feed → s.running →
    (s.feed.positions.get i).state = .bidding → s.bid.own = some o → o.state = .queued → o.serves = i →
    o.cancelling = true ∨ ¬ s.bidWaits →
    ∃ t, exec (.unload (BitVec.ofNat 8 (i.val + 1))) s = .next t
      ∧ t.port.last = .ok ∧ t.bid.own = some { o with cancelling := true }
      ∧ t.feed.positions = s.feed.positions.set i { s.feed.positions.get i with unloading := true }
      ∧ t.link = (if o.cancelling = true then s.link else { s.link with
          outbox := s.link.outbox.map (fun e => if e.msg.kind = .bid then { e with cancelling := true } else e) })
      ∧ t.fifo = (if o.cancelling = true then s.fifo else s.withEvent (o.recalled 10))
      ∧ SameBut ([.port, .fifo] ++ settlingBlocks) s t) ∧
  (∀ (s : State) (n : Byte) (r : Result), s.port.held = false →
    ((¬ (s.role = .feed ∧ s.running) ∧ r = .wrongState) ∨
      (s.role = .feed ∧ s.running ∧ (n.toNat = 0 ∨ 4 < n.toNat) ∧ r = .notFound) ∨
      (∃ i : Fin 4, s.role = .feed ∧ s.running ∧ n.toNat = i.val + 1 ∧
        (((s.feed.positions.get i).state = .empty ∧ r = .notFound) ∨
          ((s.feed.positions.get i).state = .firing ∧ r = .tooLate)))) →
    ∃ t, exec (.unload n) s = .next t ∧ t.port.last = r ∧ SameBut [.port] s t)

/-! ## Bid engine -/

/-- READY_RISE sets the level. Where it completes the eligibility of a FEED station whose search finds a window, the BID
is queued at once: a fresh tag, the window and its landing count, the rank of R86, the head BIDDING, and the BID in the
outbox or waiting for an entry (R78, R85, R111). The search runs at the end of the step, log 9. The rank is OVERDUE at
the passed-over limit, DEFERRED below it while the deferral set has a member, and NORMAL otherwise (R86); the
description holds the article's figures in counts, with the lanes of R22 (R23). -/
def Obligations.ReadyRiseQueuesBid : Prop :=
  (∀ s : State, ∃ t, exec .readyRise s = .next t ∧ t.feed.ready = true ∧ t.feed.grip = s.feed.grip
    ∧ t.feed.drop = s.feed.drop ∧ t.feed.fire = s.feed.fire ∧ t.feed.lastFilled = s.feed.lastFilled
    ∧ t.track.records = s.track.records ∧ t.bid.hold = s.bid.hold ∧ t.bid.passedOver = s.bid.passedOver
    ∧ SameBut settlingBlocks s t) ∧
  (∀ (s : State) (i : Fin 4) (w : Count), s.station = .active → s.role = .feed →
    s.bid.hold = HoldSet.empty → s.bid.own = none → s.bid.retry = none → s.outfeed.quiet →
    s.feed.head = some i → (s.feed.positions.get i).state = .loaded →
    s.findWindow (.head i) = some w →
    ∃ t o, exec .readyRise s = .next t ∧ t.bid.own = some o
      ∧ o.state = .queued ∧ o.cancelling = false ∧ o.window = w ∧ o.serves = i
      ∧ o.landing = plus w (-(s.run.eye + s.run.landing))
      ∧ o.desc = s.pieceDesc (s.feed.positions.get i) s.nextTag s.feedRank
      ∧ t.track.counter = s.nextTag.seq + 1
      ∧ (t.feed.positions.get i).state = .bidding
      ∧ (sharedRoom s.link.outbox = true → t.link.outbox = s.link.outbox ++ [.fresh (.bid o.desc w)])
      ∧ (sharedRoom s.link.outbox = false → t.link.waitingBid = some (.bid o.desc w))) ∧
  (∀ s : State, s.feedRank = (if s.run.line.limit ≤ s.bid.passedOver then .overdue
    else if s.bid.deferral = 0 then .normal else .deferred)) ∧
  (∀ (s : State) (p : Position) (tag : Tag) (rank : Rank) (a : Article), 1 ≤ p.article →
    s.store.articles[p.article - 1]? = some a → a.enabled = true →
    s.pieceDesc p tag rank =
      { tag := tag, kind := .piece, lanes := if a.fullWidth = true then lanesUpTo s.run.line.lanes else s.run.lanes
        article := p.article, lot := p.lot, length := (mmToCounts s.run.line.cpm a.length).toNat
        lead := (mmToCounts s.run.line.cpm a.feedGap).toNat, trail := (mmToCounts s.run.line.cpm a.foldGap).toNat
        reject := .none, rank := rank })

/-- READY_FALL clears the level. At a FEED station it recalls a SETTLING or GRANTED own bid with code READY: the own bid
is NONE, its record is gone, its position is no longer BIDDING, and a RECALL takes the free entry (R95, R96, R111). No
other own bid is affected. -/
def Obligations.ReadyFallRecallsLanding : Prop :=
  (∀ (s : State) (o : OwnBid), s.role = .feed → s.feed.ready = true → s.bid.own = some o →
    o.state = .settling ∨ o.state = .granted →
    ∃ t, exec .readyFall s = .next t
      ∧ t.feed.ready = false ∧ t.bid.own = none ∧ t.bid.rivals = [] ∧ t.bid.passedOver = s.bid.passedOver
      ∧ t.record o.desc.tag = s.withoutOwn o.desc.tag
      ∧ (t.feed.positions.get o.serves).state ≠ .bidding
      ∧ (s.roomFirst → Entry.fresh (.recall o.desc.tag) ∈ t.link.outbox)
      ∧ (s.roomFirst → (s.feed.positions.get o.serves).unloading = false →
          t.fifo = s.withEvent { kind := .recalled, tag := some o.desc.tag, article := some o.desc.article
                                 lot := some o.desc.lot, code := some 8 })
      ∧ SameBut listBlocks s t) ∧
  (∀ s : State, (∀ o, s.bid.own = some o → o.state = .queued ∨ o.state = .fired) →
    ∃ t, exec .readyFall s = .next t ∧ t.bid.own = s.bid.own
      ∧ t.feed = { s.feed with ready := false }
      ∧ t.track.records = s.track.records ∧ t.fifo = s.fifo
      ∧ (s.role = .feed → SameBut [.bid, .feed, .outfeed] s t) ∧ (s.role ≠ .feed → SameBut [.feed] s t))

/-- RETRY_TIMER_EXPIRY: a new search; where it finds no window the own bid stays NONE and the timer starts again for 100
ms (R84). Time moves as log 3 gives. -/
def Obligations.RetryTimerSearchesAgain : Prop :=
  ∀ (s : State) (due : Nat) (target : Target), s.bid.retry = some due → s.eligible = some target → s.outfeed.quiet →
    (s.findWindow target = none →
      ∃ t, exec .retryTimerExpiry s = .next t
        ∧ t.bid = { s.bid with retry := some (max s.now due + 100000), changed := false }
        ∧ t.now = max s.now due
        ∧ SameBut [.now, .line, .bid, .outfeed] s t) ∧
    (∀ w, s.findWindow target = some w →
      ∃ t o, exec .retryTimerExpiry s = .next t ∧ t.bid.own = some o ∧ o.state = .queued ∧ o.window = w
        ∧ o.desc = s.targetDesc target ∧ t.bid.retry = none)

/-- SETTLE_TIMER_EXPIRY: a piece whose landing is not closer than the lead is GRANTED; one that is closer is recalled
with code LATE, its record gone and the passed-over count unchanged (R93). The position that returns to LOADED carries
the mark of the instant, which is the model's own (R110, log 46). Time moves as log 3 gives. -/
def Obligations.SettleExpiryGrantsOrRecalls : Prop :=
  ∀ (s : State) (o : OwnBid), s.bid.own = some o → o.state = .settling → o.desc.kind ≠ .spacer →
    (s.line.lead ≤ signedDiff o.landing s.line.count →
      ∃ t, exec .settleTimerExpiry s = .next t
        ∧ t.bid.own = some { o with state := .granted }
        ∧ t.now = max s.now (o.accepted + s.run.line.settle * 1000)
        ∧ t.bid.hold = s.bid.hold ∧ t.bid.passedOver = s.bid.passedOver
        ∧ SameBut [.now, .line, .bid, .outfeed] s t) ∧
    (signedDiff o.landing s.line.count < s.line.lead →
      ∃ t, exec .settleTimerExpiry s = .next t
        ∧ t.bid.own ≠ some o ∧ t.record o.desc.tag = s.withoutOwn o.desc.tag
        ∧ t.bid.passedOver = s.bid.passedOver
        ∧ (s.roomFirst → (s.feed.positions.get o.serves).unloading = false →
          t.fifo = s.withEvent { kind := .recalled, tag := some o.desc.tag, article := some o.desc.article
                                 lot := some o.desc.lot, code := some 6 })
        ∧ ((s.feed.positions.get o.serves).state = .bidding → (s.feed.positions.get o.serves).unloading = false →
          t.feed.returned = some (o.serves, t.now))
        ∧ SameBut ([.now, .line] ++ listBlocks) s t)

/-- SETTLE_TIMER_EXPIRY of a spacer bid: the stream's spacer is PLACED with the spacer's tag, and its count and stack
stay as they are (R93, R101, R141). That it is PLACED where the spacer's record has already left the list is the model's
choice, log 48. -/
def Obligations.SettleExpiryPlacesSpacer : Prop :=
  ∀ (s : State) (o : OwnBid), s.bid.own = some o → o.state = .settling → o.desc.kind = .spacer →
    ∃ t, exec .settleTimerExpiry s = .next t
      ∧ t.outfeed.streams.get o.serves = { s.outfeed.streams.get o.serves with spacer := .placed o.desc.tag }
      ∧ t.bid.own ≠ some o
      ∧ t.track.records = s.track.records
      ∧ SameBut ([.now, .line, .fifo] ++ settlingBlocks) s t

/-- A window the search finds conflicts with no record of the list, and lies within the bid horizon of TL0 (R83, R84).
-/
def Obligations.WindowSearchFindsFreeSpan : Prop :=
  ∀ (f : Figures) (hw : Count) (p : Desc) (rs : List Record) (tl0 w : Count),
    windowSearch f hw p rs tl0 = some w →
    (∀ r ∈ rs, conflict f (r.span hw) { desc := p, tl := w, tt := plus w p.length } = false)
      ∧ (w = tl0 ∨ signedDiff w tl0 ≤ f.horizon)

/-- Precedence: a higher rank first, then the lower owner number; of two bids of different owners exactly one stands
higher (R87). -/
def Obligations.PrecedenceDecides : Prop :=
  (∀ (x y : Rank) (m n : Nat), precedes x m y n = true ↔ y.level < x.level ∨ (x = y ∧ m < n)) ∧
  (Rank.level .deferred < Rank.level .normal ∧ Rank.level .normal < Rank.level .overdue) ∧
  (∀ (x y : Rank) (m n : Nat), m ≠ n → (precedes x m y n = true ↔ precedes y n x m = false))

/-- In the 2 ms band a bid of strictly higher precedence that comes after another is beaten by the second condition at
its own station, and beats the other by the first condition at the other's station: both owners yield (R90). -/
def Obligations.BandMakesBothYield : Prop :=
  ∀ (sx sy : State) (x y : OwnBid) (rx ry : Record),
    sx.record y.desc.tag = some ry → sy.record x.desc.tag = some rx →
    conflict sx.run (ry.span sx.line.highWater) x.span = true →
    conflict sy.run (rx.span sy.line.highWater) y.span = true →
    sx.run.line.settle = sy.run.line.settle →
    y.accepted + (sx.run.line.settle * 1000 - 2000) ≤ x.accepted →
    x.accepted < y.accepted + sx.run.line.settle * 1000 →
    y.accepted < x.accepted →
    precedes x.desc.rank x.desc.tag.owner.toNat y.desc.rank y.desc.tag.owner.toNat = true →
    sx.beatCode x { tag := y.desc.tag, rank := y.desc.rank, accepted := y.accepted } = some 2 ∧
    sy.beatCode y { tag := x.desc.tag, rank := x.desc.rank, accepted := x.accepted } = some 1

/-! ## Throat -/

/-- JAM_CONDITION, once every edge of the advance is taken, for the lowest-numbered lane whose blocked distance exceeds
its limit: JAMMED, the relay on, JAM raised; in ACTIVE the mark is set and JAM takes the free entry (R127, R128). The
limit of a lane bound to a matched sighting is the record's nominal length plus the jam allowance, and that of any other
lane the unbound jam length plus the allowance; the blocked distance is the high-water count minus the block base (R126,
R127). JAM carries the record of a matched sighting with code BOUND, and no tag with UNBOUND otherwise, with the lane
and the blocked distance (R128). With an edge still to take the row has no effect, log 2. What JAM shows for a stray's
sighting is inferred, log 41. -/
def Obligations.JamConditionDeclaresJam : Prop :=
  (∀ (s : State) (k : Fin 4) (x : Int), s.acting = true → s.edgesTaken = true → s.role = .throat →
    s.throat.jammed = false →
    s.blockedDistance k = some x → s.jamLimit k < x → (∀ j, j < k → s.jamAt j = none) →
    ∃ t, exec .jamCondition s = .next t
      ∧ t.throat = { s.throat with
          jammed := true, relay := true, announced := s.throat.announced || s.station == .active }
      ∧ (s.station ≠ .active ∨ s.roomFirst → t.fifo = s.withEvent (s.jamEvent k x))
      ∧ (s.station = .active → s.roomFirst → Entry.fresh .jam ∈ t.link.outbox)
      ∧ t.track.records = s.track.records
      ∧ SameBut ([.throat, .fifo] ++ settlingBlocks) s t) ∧
  (∀ s : State, s.edgesTaken = false → exec .jamCondition s = .next s) ∧
  (∀ (s : State) (k : Fin 4) (g : Sighting) (r : Record) (x : Int), s.bindsAlone k g → g.stray = false →
    s.record g.tag = some r → 0 ≤ s.run.eye →
    s.jamLimit k = r.desc.length + s.run.jam
      ∧ s.jamEvent k x = { kind := .jam, tag := some r.desc.tag, article := some r.desc.article, lot := some r.desc.lot
                           a := some (k.val + 1), b := some x, code := some 1 }) ∧
  (∀ (s : State) (k : Fin 4) (x : Int),
    (∀ g ∈ s.eye.sightings, hasLane g.bound k = true → g.stray = true ∨ s.record g.tag = none) →
    s.jamLimit k = s.run.unbound + s.run.jam
      ∧ s.jamEvent k x = { kind := .jam, a := some (k.val + 1), b := some x, code := some 2 }) ∧
  (∀ (s : State) (k : Fin 4),
    (s.throat.bases.get k = none → s.blockedDistance k = none ∧ s.jamAt k = none) ∧
    (∀ base, s.throat.bases.get k = some base → s.blockedDistance k = some (signedDiff s.line.highWater base)
      ∧ (s.jamAt k = none ↔ signedDiff s.line.highWater base ≤ s.jamLimit k)))

/-- JAM_RELEASE at a JAMMED THROAT outside SETUP: OK, CLEAR, the relay off, every BLOCKED lane rebased, and in ACTIVE a
JAM RELEASE takes the free entry. Anywhere else it is refused with WRONG STATE (R129, R179). -/
def Obligations.JamReleaseClearsThroat : Prop :=
  (∀ s : State, s.port.held = false → s.role = .throat → s.running → s.throat.jammed = true →
    ∃ t, exec .jamRelease s = .next t
      ∧ t.port.last = .ok ∧ t.throat.jammed = false ∧ t.throat.relay = false ∧ t.throat.announced = false
      ∧ (∀ k, t.throat.bases.get k = if (s.eye.eyes.get k).state = .blocked then some s.line.highWater else none)
      ∧ (s.station = .active → s.roomFirst → Entry.fresh .jamRelease ∈ t.link.outbox)
      ∧ t.bid.jamming = s.bid.jamming
      ∧ SameBut ([.throat, .port, .fifo] ++ settlingBlocks) s t) ∧
  (∀ s : State, s.port.held = false → ¬ (s.role = .throat ∧ s.running ∧ s.throat.jammed = true) →
    ∃ t, exec .jamRelease s = .next t ∧ t.port.last = .wrongState ∧ SameBut [.port] s t)

/-! ## Outfeed -/

/-- SPACER_PASSAGE, once every edge of the advance is taken: a stack-change pulse, STACK_CLOSED with the passed count
and FULL or ODD, and the stream counts afresh under the next serial, keeping its article and lot (R141). The stream
plans again: a reached stack size requests a spacer, and the request goes to a bid engine that holds none (R139, R140;
the end of the step, log 9). The plan by R139: a stream that counts an article requests its spacer with no end piece
where the passed count has reached the stack size, and otherwise behind the piece of its list at which the count of the
pieces that will be stacked first reaches it, where neither a spacer nor a piece of another article or lot comes before
that piece; a spacer that has passed and not yet retired stops it too, log 44. The passage is tested on the record that
holds the spacer's tag, log 43. With an edge still to take the row has no effect, log 2. -/
def Obligations.SpacerPassageClosesStack : Prop :=
  (∀ (s : State) (i : Fin 4) (tag : Tag) (r : Record) (article lot : Nat), s.acting = true → s.edgesTaken = true →
    s.role = .outfeed →
    (s.outfeed.streams.get i).spacer = .placed tag → s.record tag = some r →
    0 < signedDiff s.line.highWater (plus r.tl (-s.run.eye)) →
    (s.outfeed.streams.get i).current = some (article, lot) →
    ∃ t, exec (.spacerPassage i) s = .next t
      ∧ (t.outfeed.streams.get i).passed = 0
      ∧ (t.outfeed.streams.get i).serial = (s.outfeed.streams.get i).serial + 1
      ∧ (t.outfeed.streams.get i).closure = none
      ∧ (t.outfeed.streams.get i).current = some (article, lot)
      ∧ (t.outfeed.streams.get i).spacer ≠ .placed tag
      ∧ (t.outfeed.streams.get i).lastStack =
          (if (s.outfeed.streams.get i).passed = s.store.stackSize article then .full else .odd)
      ∧ t.outfeed.stackChange.get i = some (s.now + 100000)
      ∧ t.fifo = s.withEvent { kind := .stackClosed, tag := some tag, article := some article, lot := some lot
                               a := some (s.outfeed.streams.get i).passed, b := some (i.val + 1)
                               code := some (if (s.outfeed.streams.get i).passed = s.store.stackSize article
                                 then 1 else 2) }
      ∧ t.track.records = s.track.records
      ∧ SameBut (.fifo :: settlingBlocks) s t) ∧
  (∀ (s : State) (i : Fin 4) (u : State) (tag : Tag) (r : Record), s.acting = true → s.edgesTaken = true →
    s.role = .outfeed →
    (s.outfeed.streams.get i).spacer = .placed tag → s.record tag = some r →
    0 < signedDiff s.line.highWater (plus r.tl (-s.run.eye)) →
    u = s.setStream i { s.outfeed.streams.get i with passed := 0, spacer := .none } →
    ∃ t, exec (.spacerPassage i) s = .next t
      ∧ (t.outfeed.streams.get i).spacer = (match u.plan i with | some e => .requested e | none => .none)
      ∧ (s.outfeed.quiet → s.bid.request = none → s.bid.own = none →
          t.outfeed.queue = [] ∧ t.bid.request = (u.plan i).map (fun e =>
            { stream := i, lanes := (s.outfeed.streams.get i).lanes, length := s.run.stack, endPiece := e }))) ∧
  (∀ (s : State) (i : Fin 4) (c : Nat × Nat), (s.outfeed.streams.get i).current = some c →
    (s.outfeed.streams.get i).lanes ≠ 0 → (s.outfeed.streams.get i).spacer = .none →
    (s.store.stackSize c.1 ≤ (s.outfeed.streams.get i).passed → s.plan i = some none) ∧
    ((s.outfeed.streams.get i).passed < s.store.stackSize c.1 → s.plan i ≠ some none ∧
      ∀ tag, s.plan i = some (some tag) ↔ ∃ before r after, s.ahead i = before ++ r :: after
        ∧ r.desc.tag = tag ∧ r.state ≠ .spacer ∧ r.counts c = true
        ∧ (∀ x ∈ before, x.state ≠ .spacer ∧ (x.desc.kind = .piece → x.desc.reject = .none → x.counts c = true))
        ∧ (s.outfeed.streams.get i).passed + (before.filter (fun x => x.counts c)).length + 1
            = s.store.stackSize c.1)) ∧
  (∀ (s : State) (i : Fin 4), s.edgesTaken = false → exec (.spacerPassage i) s = .next s)

/-- The pulses: STROBE_END takes the oldest queued program or ends the strobe, DIVERT_PULSE_END and
STACK_CHANGE_PULSE_END end theirs, each at its time (R134). Time moves as log 3 gives. -/
def Obligations.OutfeedPulsesEnd : Prop :=
  (∀ (s : State) (x : Nat), s.outfeed.strobe = some x → s.outfeed.foldQueue = [] →
    ∃ t, exec .strobeEnd s = .next t ∧ t.outfeed = { s.outfeed with strobe := none } ∧ t.now = max s.now x
      ∧ SameBut [.now, .line, .outfeed] s t) ∧
  (∀ (s : State) (x p : Nat) (rest : List Nat), s.outfeed.strobe = some x → s.outfeed.foldQueue = p :: rest →
    ∃ t, exec .strobeEnd s = .next t
      ∧ t.outfeed = { s.outfeed with foldCode := p, foldQueue := rest, strobe := some (x + 10000) }
      ∧ t.now = max s.now x ∧ SameBut [.now, .line, .outfeed] s t) ∧
  (∀ (s : State) (x : Nat), s.outfeed.divert = some x →
    ∃ t, exec .divertPulseEnd s = .next t ∧ t.outfeed = { s.outfeed with divert := none } ∧ t.now = max s.now x
      ∧ SameBut [.now, .line, .outfeed] s t) ∧
  (∀ (s : State) (i : Fin 4) (x : Nat), s.outfeed.stackChange.get i = some x →
    ∃ t, exec (.stackChangePulseEnd i) s = .next t ∧ t.outfeed.stackChange.get i = none
      ∧ (∀ j, j ≠ i → t.outfeed.stackChange.get j = s.outfeed.stackChange.get j)
      ∧ t.outfeed.streams = s.outfeed.streams ∧ t.outfeed.strobe = s.outfeed.strobe
      ∧ t.outfeed.divert = s.outfeed.divert ∧ t.outfeed.foldCode = s.outfeed.foldCode
      ∧ t.now = max s.now x ∧ SameBut [.now, .line, .outfeed] s t)

/-! ## Peers and joining -/

/-- JOIN_TRAVEL_COMPLETE: the station becomes ACTIVE with the event ACTIVE, which counts the records and the PRESENT
peers; a throat JAMMED while joining queues JAM and sets the mark (R131, R171, R172). -/
def Obligations.JoinTravelActivates : Prop :=
  ∀ s : State, s.line.atAdvance = true → s.station = .joining → s.run.join ≤ s.peers.joined →
    ∃ t, exec .joinTravelComplete s = .next t
      ∧ t.station = .active
      ∧ (s.throat.jammed = false ∨ s.throat.announced = true ∨ s.roomFirst →
          t.fifo = s.withEvent { kind := .active, a := some s.track.records.length
                                 b := some (s.peers.entries.filter (fun p => p.state == .present)).length })
      ∧ t.throat = { s.throat with announced := s.throat.announced || s.throat.jammed }
      ∧ (s.throat.jammed = true → s.throat.announced = false → s.roomFirst → Entry.fresh .jam ∈ t.link.outbox)
      ∧ t.track.records = s.track.records
      ∧ SameBut ([.station, .throat, .fifo] ++ settlingBlocks) s t

/-- A frame accepted from another station, of any of the ten kinds: the sender is recorded, the grid starts again, the
line-health timer is reloaded, LINE_DOWN leaves, and the sender's entry has a fresh TTL and is not SILENT (R150, R151,
R158, R165, R167). A frame whose first start bit fell in a spoil window, or after an own attempt began, is not taken,
and its row has no effect (R149, log 2). Time moves as log 3 gives. -/
def Obligations.PeerFrameHeard : Prop :=
  ∀ (s : State) (h : Heard) (c : Instr) (k : MsgKind), s.running → h.sender ≠ 0 → h.sender.toNat ≠ s.number →
    ((∃ p, c = .bid h p ∧ p.length = 16 ∧ k = .bid)
      ∨ (∃ p n, c = .sightingSeen h p n ∧ (p ++ n).length = 18 ∧ k = .sightingSeen)
      ∨ (∃ p, c = .sightingMissed h p ∧ p.length = 16 ∧ k = .sightingMissed)
      ∨ (∃ p, c = .sightingStray h p ∧ p.length = 16 ∧ k = .sightingStray)
      ∨ (∃ p, c = .recall h p ∧ p.length = 2 ∧ k = .recall) ∨ (∃ p, c = .void h p ∧ p.length = 2 ∧ k = .void)
      ∨ (c = .jam h ∧ k = .jam) ∨ (c = .jamReleaseAccepted h ∧ k = .jamRelease) ∨ (c = .purge h ∧ k = .purge)
      ∨ (∃ p, c = .hail h p ∧ p.length = 13 ∧ k = .hail)) →
    (¬ s.takes k h.time → exec c s = .next s) ∧
    (s.takes k h.time → ∃ t q, exec c s = .next t
      ∧ t.now = max s.now h.time
      ∧ t.link.lastSender = some h.sender.toNat
      ∧ t.link.quiet = some (t.now + 20)
      ∧ t.link.health = some (t.now + 1000000)
      ∧ t.bid.hold.lineDown = false
      ∧ t.bid.hold.mismatch = t.peers.anyMismatch
      ∧ t.peer h.sender.toNat = some q ∧ q.ttlEnds = t.now + 1000000 ∧ q.state ≠ .silent
      ∧ (∀ n, n ≠ h.sender.toNat → t.peer n = s.peer n)
      ∧ t.line.count = s.line.count ∧ t.line.highWater = s.line.highWater
      ∧ SameBut (.throat :: heardBlocks) s t)

/-- HAIL from another station: its entry holds the figures its 13 payload bytes carry, it is MISMATCH exactly when one
of the five settings differs, and PRESENT otherwise; nothing else acts on it, so a list with no own bid to withdraw
stays (R168, R169). A role byte that names no role leaves the role absent, as R168 says. With no own bid the events are,
in this order: PEER_JOINED with NEW, with RETURNED from SILENT, or with MATCHED from MISMATCH (R165, R167, R168);
PEER_MISMATCH with the first setting that differs, on becoming MISMATCH (R168); LINE_UP where LINE_DOWN was held (R158).
Log 21 gives PEER_JOINED its role, with every code. LINE_UP comes after the events of the peer table: log 8. The five
settings are examined in the order of R164, with the codes 1 to 5, and value B is the peer's (R168). Where MISMATCH joins
the hold set, a SETTLING or GRANTED own bid is recalled and a QUEUED one withdrawn, with RECALLED code 4 after the events
of the peer table and before LINE_UP (R81, R95; the order is log 8); a FIRED or cancelling one stands, and so does any own
bid where the cause held already or does not join. The station's own HAIL, accepted, leaves the outbox, and its sender is
recorded; it touches no peer entry and not the line-health timer (R150, R152, R158). -/
def Obligations.HailUpdatesPeer : Prop :=
  (∀ (s : State) (h : Heard) (p : List Byte) (f : Hailed), s.hears h .hail → p.length = 13 →
    f = { role := roleOf (hailAt p).role, lanes := (hailAt p).lanes, eye := (hailAt p).eye.toInt
          cpm := (hailAt p).cpm.toNat, lineLanes := (hailAt p).lineLanes.toNat
          lotBreak := (hailAt p).lotBreak.toNat, strayGap := (hailAt p).strayGap.toNat
          settle := (hailAt p).settle.toNat } →
    ∃ t q, exec (.hail h p) s = .next t
      ∧ t.peer h.sender.toNat = some q
      ∧ q.hailed = some f
      ∧ (q.differs = true ↔ f.cpm ≠ s.run.line.cpm ∨ f.lineLanes ≠ s.run.line.lanes
          ∨ f.lotBreak ≠ s.run.line.lotBreak ∨ f.strayGap ≠ s.run.line.strayGap ∨ f.settle ≠ s.run.line.settle)
      ∧ q.state = (if q.differs then .mismatch else .present)
      ∧ (q.differs = true → t.bid.hold.mismatch = true)
      ∧ (s.bid.own = none → t.track.records = s.track.records
          ∧ t.fifo = s.withEvents (s.hailEvents h.sender.toNat f ++ s.lineUpEvents h.sender.toNat))
      ∧ (∀ o, s.bid.own = some o → q.differs = true → s.bid.hold.mismatch = false → HeldBack s t o
          ∧ ((s.feed.positions.get o.serves).unloading = false → s.recallFits o →
              t.fifo = s.withEvents (s.hailEvents h.sender.toNat f ++ o.heldEvents 4
                ++ s.lineUpEvents h.sender.toNat)))
      ∧ (∀ o, s.bid.own = some o → s.bid.hold.mismatch = true ∨ t.peers.anyMismatch = false →
          t.bid.own = some o ∧ t.track.records = s.track.records
            ∧ t.fifo = s.withEvents (s.hailEvents h.sender.toNat f ++ s.lineUpEvents h.sender.toNat))
      ∧ SameBut heardBlocks s t) ∧
  (∀ (s : State) (h : Heard) (p : List Byte), s.hearsOwn h .hail p →
    ∃ t l, exec (.hail h p) s = .next t ∧ freshBids l
      ∧ t.link.outbox = s.link.outbox.filter (fun e => !e.sending) ++ l ∧ t.sending = none
      ∧ t.link.lastSender = some s.number ∧ t.link.quiet = some (t.now + 20) ∧ t.link.health = s.link.health
      ∧ t.track.records = s.track.records ∧ (∀ o, s.bid.own = some o → t.bid.own = some o)
      ∧ SameBut ([.now, .line] ++ settlingBlocks) s t) ∧
  (∀ (n : Nat) (f : Hailed) (code : Nat),
    joinedEvent n (some f) code = { kind := .peerJoined, a := some n, code := some code
                                    b := match f.role with
                                      | none => none | some .feed => some 1 | some .throat => some 2
                                      | some .outfeed => some 3 }) ∧
  (∀ (x : Figures) (f : Hailed) (pairs : List (Nat × Nat × Nat)),
    pairs = [(1, f.cpm, x.line.cpm), (2, f.lineLanes, x.line.lanes), (3, f.lotBreak, x.line.lotBreak),
      (4, f.strayGap, x.line.strayGap), (5, f.settle, x.line.settle)] →
    (firstDifference x f = none ↔ ∀ p ∈ pairs, p.2.1 = p.2.2) ∧
    (∀ code value, firstDifference x f = some (code, value) ↔ ∃ before own after,
      pairs = before ++ (code, value, own) :: after ∧ value ≠ own ∧ ∀ p ∈ before, p.2.1 = p.2.2))

/-- The timers of the line: LINE_HEALTH_TIMEOUT puts LINE_DOWN in the hold set and raises LINE_DOWN with the last sender
(R158); HAIL_TIMER_EXPIRY queues a HAIL where an entry is free and none is queued, and restarts (R163); PEER_TTL_EXPIRY
makes the entry SILENT and takes the peer out of the deferral set (R166). Where LINE_DOWN joins the hold set, a SETTLING or
GRANTED own bid is recalled and a QUEUED one withdrawn, with RECALLED code 3 before the event LINE_DOWN (R81, R95; the
order is log 8); a FIRED or cancelling one stands, and so does any own bid where the cause held already. Time moves as log
3 gives. -/
def Obligations.LineTimersExpire : Prop :=
  (∀ (s : State) (x : Nat), s.link.health = some x →
    ∃ t, exec .lineHealthTimeout s = .next t
      ∧ t.link.health = none ∧ t.bid.hold.lineDown = true ∧ t.now = max s.now x
      ∧ t.bid.hold.operator = s.bid.hold.operator ∧ t.bid.hold.jam = s.bid.hold.jam
      ∧ (s.bid.own = none → t.fifo = s.withEvent { kind := .lineDown, a := some (s.link.lastSender.getD 0) }
          ∧ t.track.records = s.track.records)
      ∧ (∀ o, s.bid.own = some o → s.bid.hold.lineDown = false → HeldBack s t o
          ∧ ((s.feed.positions.get o.serves).unloading = false → s.recallFits o →
              t.fifo = s.withEvents (o.heldEvents 3 ++ [{ kind := .lineDown, a := some (s.link.lastSender.getD 0) }])))
      ∧ (∀ o, s.bid.own = some o → s.bid.hold.lineDown = true →
          t.bid.own = some o ∧ t.track.records = s.track.records
            ∧ t.fifo = s.withEvent { kind := .lineDown, a := some (s.link.lastSender.getD 0) })
      ∧ SameBut ([.now, .line] ++ listBlocks) s t) ∧
  (∀ (s : State) (x : Nat), s.peers.hailTimer = some x → s.station = .joining ∨ s.station = .active →
    ∃ t, exec .hailTimerExpiry s = .next t
      ∧ t.peers = { s.peers with hailTimer := some (x + 250000) } ∧ t.now = max s.now x
      ∧ t.link = { s.link with outbox :=
          if s.roomLater = true ∧ (∀ e ∈ s.link.outbox, e.msg ≠ .hail) then s.link.outbox ++ [Entry.fresh .hail]
          else s.link.outbox }
      ∧ SameBut [.now, .line, .peers, .link] s t) ∧
  (∀ (s : State) (n : BitVec 4) (p : Peer), s.peer n.toNat = some p → s.running → p.state ≠ .silent →
    ∃ t, exec (.peerTtlExpiry n) s = .next t
      ∧ t.peer n.toNat = some { p with state := .silent } ∧ t.now = max s.now p.ttlEnds
      ∧ t.bid.deferral = s.bid.deferral &&& ~~~(stationBit n.toNat)
      ∧ t.bid.hold.mismatch = t.peers.anyMismatch
      ∧ (∀ m, m ≠ n.toNat → t.peer m = s.peer m)
      ∧ (s.bid.own = none → t.track.records = s.track.records
          ∧ t.fifo = s.withEvent { kind := .peerSilent, a := some n.toNat
                                   code := some (if p.state = .mismatch then 3 else 1) })
      ∧ SameBut ([.now, .line, .peers] ++ listBlocks) s t)

/-- DUPLICATE_NUMBER: the station enters FAULT with the event FAULT and the frame's kind; every entry but a SENDING one
is cancelled, the own bid is NONE and the HAIL timer stopped. The own bid ends with RECALLED code 12, a FIRED one with
UNCONFIRMED code 3; the record of a SETTLING or GRANTED one goes, and the position of one that was not FIRED is LOADED
again, or emptied with UNLOADED where it was marked. In FAULT already, only the grid starts again. A frame that was not
taken is none of these (R102, R109, R149, R151, R159, R163). Time moves as log 3 gives. The end of the window is an
operand, log 11. That the row of a frame not taken has no effect is log 2. FAULT comes before the events of the own bid:
log 8. -/
def Obligations.DuplicateEntersFault : Prop :=
  (∀ (s : State) (time : Nat) (kind : MsgKind), s.running → s.station ≠ .fault → s.takes kind time →
    ∃ t, exec (.duplicateNumber time kind) s = .next t
      ∧ t.station = .fault ∧ t.bid.own = none ∧ t.bid.jamming = s.bid.jamming
      ∧ t.bid.hold = { s.bid.hold with trackFull := t.bid.hold.trackFull }
      ∧ t.link.outbox = s.link.outbox.filter (fun e => e.sending) ∧ t.link.waitingBid = none
      ∧ t.peers = { s.peers with hailTimer := none }
      ∧ t.link.quiet = some (max s.now time + 20) ∧ t.now = max s.now time
      ∧ (s.bid.own = none → t.track.records = s.track.records ∧ t.feed.positions = s.feed.positions
          ∧ t.fifo = s.withEvent { kind := .fault, code := some (kindValue kind) })
      ∧ (∀ o, s.bid.own = some o → (o.state = .queued → o.cancelling = false) →
          t.fifo = s.withEvents ({ kind := .fault, code := some (kindValue kind) }
              :: (if o.state = .fired then { kind := .unconfirmed, code := some 3 } else o.recalled 12)
              :: (if (s.feed.positions.get o.serves).state = .bidding
                    ∧ (s.feed.positions.get o.serves).unloading = true then [s.unloaded o] else []))
            ∧ t.feed.positions = (if (s.feed.positions.get o.serves).state = .bidding then
                s.feed.positions.set o.serves (if (s.feed.positions.get o.serves).unloading = true then Position.none
                  else { s.feed.positions.get o.serves with state := .loaded })
                else s.feed.positions)
            ∧ (o.state = .queued ∨ o.state = .fired → t.track.records = s.track.records)
            ∧ (o.state = .settling ∨ o.state = .granted →
                t.track.records = (if (s.record o.desc.tag).any (fun r => r.own) = true then
                  s.track.records.filter (fun r => r.desc.tag != o.desc.tag) else s.track.records)))
      ∧ SameBut ([.station, .now, .line, .peers] ++ listBlocks) s t) ∧
  (∀ (s : State) (time : Nat) (kind : MsgKind), s.station = .fault → s.takes kind time →
    ∃ t, exec (.duplicateNumber time kind) s = .next t
      ∧ t.link = { s.link with quiet := some (max s.now time + 20), listenFrom := max s.now time }
      ∧ t.now = max s.now time
      ∧ SameBut [.now, .line, .link] s t) ∧
  (∀ (s : State) (time : Nat) (kind : MsgKind), ¬ s.takes kind time → exec (.duplicateNumber time kind) s = .next s)

/-! ## Messages accepted -/

/-- BID from another station, for a tag that the list holds or has room for: the record is filed whole, at this
station's line count plus the distance carried, with the sender as reporter, not own and not missed (R37, R39, R40). Its
passed-own-eye flag is set where the sender's eye, as its HAIL gave it, lies downstream of this one, or where the line
count is beyond the end of the match span (R37, R170). An owner byte above 15 is no description, log 15. At a full list,
with no own bid, a description under an unknown tag is dropped: TRACK_FULL joins the hold set and is raised once (R51,
R81). The station's own BID, accepted, leaves the outbox, and its own bid is SETTLING from that time with its record
filed (R40, R88, R154). The four ends of R88 are tried in their order: a rival that beats it (BEATEN, R91, R99); a SEEN
or STRAY record that conflicts (RECALLED code 7, with the owner; the first in list order, log 14); the full list
(RECALLED code 5, after TRACK_FULL once); READY low (RECALLED code 8). Each leaves a RECALL in the outbox and no own bid
but one that a new search has queued. TRACK_FULL comes before RECALLED: log 8. Time moves as log 3 gives. -/
def Obligations.BidFilesRecord : Prop :=
  (∀ (s : State) (h : Heard) (p : List Byte) (d : Desc) (tl : Count) (passed : Bool), s.hears h .bid → p.length = 16 →
    readBid s.run.lineLanes h.sender.toNat (placedAt p).desc = some d →
    tl = plus s.line.count (placedAt p).distance.toInt →
    (passed = true ↔ (∃ q f, s.peer h.sender.toNat = some q ∧ q.hailed = some f
        ∧ f.eye < (if s.role = .throat then 0 else s.run.station.eye))
      ∨ 0 < signedDiff s.line.count (plus tl (s.run.tolerance - s.run.eye))) →
    ((s.record d.tag).isSome = true ∨ s.track.records.length < 64) → s.ownElsewhere d.tag →
    ∃ t, exec (.bid h p) s = .next t
      ∧ t.record d.tag = some
          { desc := d, tl := tl
            state := if d.kind = .spacer then .spacer else .bid, missed := false
            passed := passed
            own := false, reporter := h.sender.toNat, measured := none, openFrom := none }
      ∧ d.tag.owner.toNat = h.sender.toNat ∧ d.kind ≠ .stray
      ∧ SameBut heardBlocks s t) ∧
  (∀ (s : State) (h : Heard) (p : List Byte) (d : Desc), s.holdFollows → s.hears h .bid → p.length = 16 →
    s.knows h.sender.toNat →
    readBid s.run.lineLanes h.sender.toNat (placedAt p).desc = some d → s.record d.tag = none →
    64 ≤ s.track.records.length → s.bid.own = none →
    ∃ t, exec (.bid h p) s = .next t
      ∧ t.track.records = s.track.records ∧ t.bid.hold = { s.bid.hold with trackFull := true, lineDown := false }
      ∧ t.fifo = (if s.bid.hold.trackFull then s.fifo else
          s.withEvent { kind := .trackFull, tag := some d.tag, article := some d.article, lot := some d.lot
                        a := some 64, code := some 1 })
      ∧ SameBut heardBlocks s t) ∧
  (∀ (s : State) (h : Heard) (p : List Byte) (o o1 : OwnBid), s.hearsOwn h (.bid o.desc o.window) p →
    s.bid.own = some o → o.state = .queued → o.cancelling = false → s.record o.desc.tag = none →
    (∀ y ∈ s.bid.rivals, y.tag ≠ o.desc.tag) → s.link.waitingBid = none →
    (s.link.outbox.filter (fun e => !e.sending)).length < 8 → (s.feed.positions.get o.serves).unloading = false →
    o1 = { o with state := .settling, accepted := max s.now h.time } →
    ∃ t, exec (.bid h p) s = .next t
      ∧ t.now = max s.now h.time ∧ t.sending = none ∧ t.link.lastSender = some s.number
      ∧ t.link.quiet = some (t.now + 20)
      ∧ (s.firstBeater o1 s.bid.rivals = none → (∀ r ∈ s.track.records, bumps s o1 r = false) →
          s.track.records.length < 64 → (s.role = .feed → s.feed.ready = true) →
          t.bid.own = some o1 ∧ t.bid.rivals = []
            ∧ t.record o.desc.tag = some
                { desc := o.desc, tl := o.window, state := if o.desc.kind = .spacer then .spacer else .bid
                  missed := false, passed := false, own := true, reporter := s.number, measured := none
                  openFrom := none }
            ∧ t.link.outbox = s.link.outbox.filter (fun e => !e.sending) ∧ t.fifo = s.fifo
            ∧ SameBut ([.now, .line] ++ settlingBlocks) s t)
      ∧ (s.firstBeater o1 s.bid.rivals ≠ none ∨ (∃ r ∈ s.track.records, bumps s o1 r = true)
            ∨ 64 ≤ s.track.records.length ∨ (s.role = .feed ∧ s.feed.ready = false) →
          (∀ o', t.bid.own = some o' → o'.state = .queued) ∧ t.record o.desc.tag = none
            ∧ Entry.fresh (.recall o.desc.tag) ∈ t.link.outbox)
      ∧ (s.track.records.length < 64 → ∀ y c, s.firstBeater o1 s.bid.rivals = some (y, c) →
          t.bid.passedOver = (if s.run.line.limit ≤ s.bid.passedOver then s.bid.passedOver else s.bid.passedOver + 1)
            ∧ t.fifo = s.withEvent { kind := .beaten, tag := some o.desc.tag, article := some o.desc.article
                                     lot := some o.desc.lot, a := some y.tag.owner.toNat
                                     b := some t.bid.passedOver, code := some c })
      ∧ (s.track.records.length < 64 → s.firstBeater o1 s.bid.rivals = none →
          ∀ r, s.track.records.find? (bumps s o1) = some r →
          t.fifo = s.withEvent { o.recalled 7 with a := some r.desc.tag.owner.toNat }
            ∧ t.bid.passedOver = s.bid.passedOver)
      ∧ (64 ≤ s.track.records.length → s.firstBeater o1 s.bid.rivals = none →
          (∀ r ∈ s.track.records, bumps s o1 r = false) →
          t.fifo = s.withEvents ((if s.bid.hold.trackFull then [] else
              [{ kind := .trackFull, tag := some o.desc.tag, article := some o.desc.article
                 lot := some o.desc.lot, a := some 64, code := some 1 }]) ++ [o.recalled 5])
            ∧ t.bid.hold.trackFull = true ∧ t.track.records = s.track.records)
      ∧ (s.track.records.length < 64 → s.firstBeater o1 s.bid.rivals = none →
          (∀ r ∈ s.track.records, bumps s o1 r = false) → s.role = .feed → s.feed.ready = false →
          t.fifo = s.withEvent (o.recalled 8)))

/-- A peer BID under a fresh tag and the own bid: a QUEUED own bid takes it in the rival list in place of its owner's
earlier entry (R89); a SETTLING one that it conflicts with, of lower precedence, is beaten by the first condition, with
BEATEN, a RECALL and a passed-over count that stops at the limit (R90, R91, R99). It stands without conflict, and with
one where the peer's bid has no strictly higher precedence or comes after the settle interval; a GRANTED or FIRED bid is
not judged at all (R90). Of several rivals the first in the list is named, log 14. The acceptance time is that of log 3.
-/
def Obligations.PeerBidJudgesOwn : Prop :=
  ∀ (s : State) (h : Heard) (p : List Byte) (d : Desc) (o : OwnBid) (tl : Count), s.hears h .bid → p.length = 16 →
    readBid s.run.lineLanes h.sender.toNat (placedAt p).desc = some d → s.record d.tag = none →
    s.track.records.length < 64 →
    s.bid.own = some o → o.desc.tag ≠ d.tag → s.knows h.sender.toNat →
    tl = plus s.line.count (placedAt p).distance.toInt →
    (o.state = .queued →
      ∃ t, exec (.bid h p) s = .next t ∧ t.bid.own = some o
        ∧ t.bid.rivals = s.bid.rivals.filter (fun r => r.tag.owner != d.tag.owner)
            ++ [{ tag := d.tag, rank := d.rank, accepted := max s.now h.time }]) ∧
    (o.state = .settling → conflict s.run { desc := d, tl := tl, tt := plus tl d.length } o.span = true →
      max s.now h.time < o.accepted + s.run.line.settle * 1000 →
      precedes d.rank d.tag.owner.toNat o.desc.rank o.desc.tag.owner.toNat = true →
      (s.feed.positions.get o.serves).unloading = false → s.roomFirst →
      ∃ t, exec (.bid h p) s = .next t ∧ t.bid.own ≠ some o ∧ t.record o.desc.tag = s.withoutOwn o.desc.tag
        ∧ t.bid.passedOver =
            (if s.run.line.limit ≤ s.bid.passedOver then s.bid.passedOver else s.bid.passedOver + 1)
        ∧ Entry.fresh (.recall o.desc.tag) ∈ t.link.outbox
        ∧ t.fifo = s.withEvent { kind := .beaten, tag := some o.desc.tag, article := some o.desc.article
                                 lot := some o.desc.lot, a := some d.tag.owner.toNat
                                 b := some t.bid.passedOver, code := some 1 }) ∧
    (o.state = .settling → conflict s.run { desc := d, tl := tl, tt := plus tl d.length } o.span = false →
      ∃ t, exec (.bid h p) s = .next t ∧ t.bid.own = some o ∧ t.fifo = s.fifo) ∧
    (o.state = .settling → o.accepted ≤ max s.now h.time →
      ¬ (max s.now h.time < o.accepted + s.run.line.settle * 1000
        ∧ precedes d.rank d.tag.owner.toNat o.desc.rank o.desc.tag.owner.toNat = true) →
      ∃ t, exec (.bid h p) s = .next t ∧ t.bid.own = some o ∧ t.fifo = s.fifo) ∧
    (o.state = .granted ∨ o.state = .fired →
      ∃ t, exec (.bid h p) s = .next t ∧ t.bid.own = some o ∧ t.fifo = s.fifo)

/-- SIGHTING SEEN and SIGHTING STRAY from another station: a held record takes the sender's place, measured length and
report, its missed count cleared, its reject combined, BID becoming SEEN; an unknown tag makes a record, with the
passed-own-eye flag that R37 and R170 give it; a held SPACER stands; and a peer's SEEN about its own tag ends its
deferral (R25, R41, R42, R100). Where R25 has no column the reject is the model's free value where that does not lower
the field, and a held DOUBLE stays (log 16). The station's own SIGHTING SEEN about its fired tag ends the own bid with
CONFIRMED, which gives the measured length and the reject (R98). Either SIGHTING about another tag bumps a SETTLING or
GRANTED own bid where the record it leaves in SEEN or STRAY is new there or changed, and conflicts; otherwise the bid
stands (R94). At a full list, with no own bid, a SIGHTING under an unknown tag is dropped: TRACK_FULL joins the hold set and
is raised once, with code 2 or 3 (R51). The station's own SIGHTING SEEN and SIGHTING STRAY, accepted, do the same here with
the throat count they were composed with and this station as reporter, end no deferral, and leave the outbox (R39, R41,
R42, R152). An open stray of this station that a frame reaches stays open, log 31. The two operands of SIGHTING_SEEN are its
payload wherever it is divided. Time moves as log 3 gives. -/
def Obligations.SightingsFileRecords : Prop :=
  (∀ (s : State) (h : Heard) (p front back : List Byte) (hi lo : Byte) (d : Desc) (tl : Count) (passed : Bool),
    s.hears h .sightingSeen → p.length = 16 → front ++ back = p ++ [hi, lo] →
    readDesc s.run.lineLanes (placedAt p).desc = some d → s.ownElsewhere d.tag →
    tl = plus s.line.count (placedAt p).distance.toInt →
    (passed = true ↔ (∃ q f, s.peer h.sender.toNat = some q ∧ q.hailed = some f
        ∧ f.eye < (if s.role = .throat then 0 else s.run.station.eye))
      ∨ 0 < signedDiff s.line.count (plus tl (s.run.tolerance - s.run.eye))) →
    ∃ t, exec (.sightingSeen h front back) s = .next t
      ∧ (∀ r, s.record d.tag = some r → r.state = .spacer → t.record d.tag = some r)
      ∧ (∀ r, s.record d.tag = some r → r.state ≠ .spacer →
          t.record d.tag = some { r with
            desc := { r.desc with reject :=
              if r.desc.reject = .stray then .stray
              else if r.desc.reject = .double then .double
              else if d.reject = .none then r.desc.reject
              else if d.reject ≠ .stray then d.reject
              else if r.desc.reject ≠ .none ∧ Config.freeReject s.track.free = .none then r.desc.reject
              else Config.freeReject s.track.free }
            tl := tl, measured := some (256 * hi.toNat + lo.toNat)
            state := if r.state = .bid then .seen else r.state
            missed := false, reporter := h.sender.toNat })
      ∧ (s.record d.tag = none → d.kind ≠ .spacer → s.track.records.length < 64 →
          t.record d.tag = some
            { desc := { d with rank := .normal, reject := if d.kind = .stray then .stray
                               else if d.reject = .stray then Config.freeReject s.track.free else d.reject }
              tl := tl, state := if d.kind = .stray then .stray else .seen
              missed := false, passed := passed, own := false
              reporter := h.sender.toNat, measured := some (256 * hi.toNat + lo.toNat), openFrom := none })
      ∧ t.bid.deferral = (if d.tag.owner.toNat = h.sender.toNat
          then s.bid.deferral &&& ~~~(stationBit h.sender.toNat) else s.bid.deferral)
      ∧ SameBut heardBlocks s t) ∧
  (∀ (s : State) (h : Heard) (p : List Byte) (d : Desc) (tl : Count) (passed : Bool), s.hears h .sightingStray →
    p.length = 16 → readStray s.run.lineLanes (placedAt p).desc = some d → s.ownElsewhere d.tag →
    tl = plus s.line.count (placedAt p).distance.toInt →
    (passed = true ↔ (∃ q f, s.peer h.sender.toNat = some q ∧ q.hailed = some f
        ∧ f.eye < (if s.role = .throat then 0 else s.run.station.eye))
      ∨ 0 < signedDiff s.line.count (plus tl (s.run.tolerance - s.run.eye))) →
    ((s.record d.tag).isSome = true ∨ s.track.records.length < 64) →
    ∃ t, exec (.sightingStray h p) s = .next t
      ∧ (∀ r, s.record d.tag = some r → r.state = .stray →
          t.record d.tag = some { r with
            desc := { r.desc with length := d.length }, tl := tl, measured := some d.length, missed := false
            reporter := h.sender.toNat })
      ∧ ((∀ r, s.record d.tag = some r → r.state ≠ .stray) →
          t.record d.tag = some
            { desc := { d with reject := .stray, rank := .normal }, tl := tl, state := .stray, missed := false
              passed := passed, own := false, reporter := h.sender.toNat
              measured := some d.length, openFrom := none })
      ∧ SameBut heardBlocks s t) ∧
  (∀ (s : State) (h : Heard) (p measured : List Byte) (d : Desc) (tl : Count) (n : Nat) (o : OwnBid),
    s.hearsOwn h (.seen d tl n) (p ++ measured) → s.bid.own = some o → o.state = .fired →
    o.desc.tag = d.tag → (s.record d.tag).isSome = true → (s.feed.positions.get o.serves).state ≠ .bidding →
    ∃ t, exec (.sightingSeen h p measured) s = .next t
      ∧ (∀ o', t.bid.own = some o' → o'.state = .queued) ∧ t.sending = none
      ∧ t.fifo = s.withEvent { kind := .confirmed, a := some n, code := some (rejectCode d.reject) }
      ∧ t.link.lastSender = some s.number
      ∧ SameBut ([.now, .line] ++ settlingBlocks ++ [.fifo]) s t) ∧
  (∀ (s : State) (h : Heard) (front back : List Byte) (d : Desc) (tl : Count) (n : Nat) (passed : Bool),
    s.hearsOwn h (.seen d tl n) (front ++ back) →
    (∀ o, s.bid.own = some o → o.desc.tag = d.tag → o.state = .queued ∨ o.state = .fired) →
    (passed = true ↔ (∃ q f, s.peer s.number = some q ∧ q.hailed = some f
        ∧ f.eye < (if s.role = .throat then 0 else s.run.station.eye))
      ∨ 0 < signedDiff s.line.count (plus tl (s.run.tolerance - s.run.eye))) →
    ∃ t, exec (.sightingSeen h front back) s = .next t
      ∧ (∀ r, s.record d.tag = some r → r.state = .spacer → t.record d.tag = some r)
      ∧ (∀ r, s.record d.tag = some r → r.state ≠ .spacer →
          t.record d.tag = some { r with
            desc := { r.desc with reject := combine (Config.freeReject s.track.free) r.desc.reject d.reject }
            tl := tl, measured := some n, state := if r.state = .bid then .seen else r.state
            missed := false, reporter := s.number })
      ∧ (s.record d.tag = none → d.kind ≠ .spacer → s.track.records.length < 64 →
          t.record d.tag = some
            { desc := { d with rank := .normal, reject := if d.kind = .stray then .stray
                               else combine (Config.freeReject s.track.free) .none d.reject }
              tl := tl, state := if d.kind = .stray then .stray else .seen
              missed := false, passed := passed, own := false
              reporter := s.number, measured := some n, openFrom := none })
      ∧ t.bid.deferral = s.bid.deferral ∧ t.link.health = s.link.health
      ∧ t.sending = none ∧ t.link.lastSender = some s.number
      ∧ SameBut ([.now, .line] ++ listBlocks) s t) ∧
  (∀ (s : State) (h : Heard) (p : List Byte) (d : Desc) (tl : Count) (passed : Bool), s.hearsOwn h (.stray d tl) p →
    s.ownElsewhere d.tag →
    (passed = true ↔ (∃ q f, s.peer s.number = some q ∧ q.hailed = some f
        ∧ f.eye < (if s.role = .throat then 0 else s.run.station.eye))
      ∨ 0 < signedDiff s.line.count (plus tl (s.run.tolerance - s.run.eye))) →
    ((s.record d.tag).isSome = true ∨ s.track.records.length < 64) →
    ∃ t, exec (.sightingStray h p) s = .next t
      ∧ (∀ r, s.record d.tag = some r → r.state = .stray →
          t.record d.tag = some { r with
            desc := { r.desc with length := d.length }, tl := tl, measured := some d.length, missed := false
            reporter := s.number })
      ∧ ((∀ r, s.record d.tag = some r → r.state ≠ .stray) →
          t.record d.tag = some
            { desc := { d with reject := .stray, rank := .normal }, tl := tl, state := .stray, missed := false
              passed := passed, own := false, reporter := s.number, measured := some d.length, openFrom := none })
      ∧ t.bid.deferral = s.bid.deferral ∧ t.link.health = s.link.health
      ∧ t.sending = none ∧ t.link.lastSender = some s.number
      ∧ SameBut ([.now, .line] ++ listBlocks) s t) ∧
  (∀ (s u : State) (h : Heard) (c : Instr) (p front back : List Byte) (d : Desc) (code : Nat), s.holdFollows →
    (∃ hi lo, c = .sightingSeen h front back ∧ s.hears h .sightingSeen ∧ p.length = 16 ∧ front ++ back = p ++ [hi, lo]
        ∧ readDesc s.run.lineLanes (placedAt p).desc = some d ∧ d.kind ≠ .spacer ∧ s.knows h.sender.toNat ∧ u = s
        ∧ code = 2) ∨
      (c = .sightingStray h p ∧ s.hears h .sightingStray ∧ p.length = 16
        ∧ readStray s.run.lineLanes (placedAt p).desc = some d ∧ s.knows h.sender.toNat ∧ u = s ∧ code = 3) ∨
      (∃ tl n, c = .sightingSeen h front back ∧ s.hearsOwn h (.seen d tl n) (front ++ back) ∧ d.kind ≠ .spacer
        ∧ u = s.setOutbox (s.link.outbox.filter (fun e => !e.sending)) ∧ code = 2) ∨
      (∃ tl, c = .sightingStray h p ∧ s.hearsOwn h (.stray d tl) p
        ∧ u = s.setOutbox (s.link.outbox.filter (fun e => !e.sending)) ∧ code = 3) →
    s.record d.tag = none → 64 ≤ s.track.records.length → s.bid.own = none →
    ∃ t, exec c s = .next t
      ∧ t.track.records = s.track.records ∧ t.bid.hold = { s.bid.hold with trackFull := true }
      ∧ t.bid.own = none ∧ t.link.outbox = u.link.outbox
      ∧ t.fifo = (if s.bid.hold.trackFull = true then s.fifo else
          s.withEvent { kind := .trackFull, tag := some d.tag, article := some d.article, lot := some d.lot
                        a := some 64, code := some code })) ∧
  (∀ (s : State) (h : Heard) (c : Instr) (p front back : List Byte) (d : Desc) (o : OwnBid),
    (∃ hi lo, c = .sightingSeen h front back ∧ s.hears h .sightingSeen ∧ s.knows h.sender.toNat ∧ p.length = 16
        ∧ front ++ back = p ++ [hi, lo] ∧ readDesc s.run.lineLanes (placedAt p).desc = some d) ∨
      (c = .sightingStray h p ∧ s.hears h .sightingStray ∧ s.knows h.sender.toNat ∧ p.length = 16
        ∧ readStray s.run.lineLanes (placedAt p).desc = some d) ∨
      (∃ tl n, c = .sightingSeen h front back ∧ s.hearsOwn h (.seen d tl n) (front ++ back)) ∨
      (∃ tl, c = .sightingStray h p ∧ s.hearsOwn h (.stray d tl) p) →
    (s.record d.tag).isSome = true ∨ (d.kind ≠ .spacer ∧ s.track.records.length < 64) →
    (∀ i, (s.outfeed.streams.get i).spacer ≠ .requested (some d.tag)) →
    s.bid.own = some o → o.state = .settling ∨ o.state = .granted → o.desc.tag ≠ d.tag →
    ∃ t r', exec c s = .next t ∧ t.record d.tag = some r' ∧ s.judgesBump t r' o)

/-- SIGHTING MISSED from another station, or the station's own, accepted, which is where an ACTIVE station counts its miss:
the first miss of a record is counted with its reporter, the second removes the record with LOST, and with UNCONFIRMED code
2 where it is the FIRED record; a SPACER and an unknown tag are left alone (R43, R47, R98). LOST, of the track list, comes
before UNCONFIRMED, of the bid engine: log 8. Any other own bid stands where no requested spacer names the record. The own
frame leaves the outbox, its sender is recorded, and no peer entry and no line-health timer moves (R152, R158). The record
under the FIRED tag is the FIRED one, log 51. Time moves as log 3 gives. -/
def Obligations.MissedReportCounted : Prop :=
  (∀ (s : State) (h : Heard) (p : List Byte) (d : Desc),
    (s.hears h .sightingMissed ∧ p.length = 16 ∧ readDesc s.run.lineLanes (placedAt p).desc = some d) ∨
      (∃ tl, s.hearsOwn h (.missed d tl) p) →
    (∀ o, s.bid.own = some o → o.desc.tag = d.tag → o.state = .settling ∨ o.state = .granted →
      s.knows h.sender.toNat ∨ h.sender.toNat = s.number) →
    ∃ t, exec (.sightingMissed h p) s = .next t
      ∧ (∀ r, s.record d.tag = some r → r.state ≠ .spacer → r.missed = false →
          t.record d.tag = some { r with missed := true, reporter := h.sender.toNat })
      ∧ (∀ r, s.record d.tag = some r → r.state ≠ .spacer → r.missed = true → t.record d.tag = none)
      ∧ (∀ r, s.record d.tag = some r → r.state = .spacer → t.record d.tag = some r)
      ∧ (s.record d.tag = none → t.record d.tag = none)
      ∧ (∀ x ∈ s.track.records, x.desc.tag ≠ d.tag → s.ownElsewhere x.desc.tag → x ∈ t.track.records)
      ∧ SameBut heardBlocks s t
      ∧ (h.sender.toNat = s.number → t.sending = none ∧ t.link.lastSender = some s.number
          ∧ t.link.health = s.link.health ∧ t.peers = s.peers)) ∧
  (∀ (s : State) (h : Heard) (p : List Byte) (d : Desc),
    (s.hears h .sightingMissed ∧ s.knows h.sender.toNat ∧ p.length = 16
        ∧ readDesc s.run.lineLanes (placedAt p).desc = some d) ∨
      (∃ tl, s.hearsOwn h (.missed d tl) p) →
    ∃ t, exec (.sightingMissed h p) s = .next t
      ∧ ((∀ r, s.record d.tag = some r → r.state = .spacer ∨ r.missed = false) →
          t.fifo = s.fifo ∧ ∀ o, s.bid.own = some o → t.bid.own = some o)
      ∧ (∀ r, s.record d.tag = some r → r.state ≠ .spacer → r.missed = true →
          (s.bid.own = none → t.fifo = s.withEvent (r.lost h.sender.toNat))
            ∧ (∀ o, s.bid.own = some o → o.state = .fired → o.desc.tag = d.tag →
                (s.feed.positions.get o.serves).state ≠ .bidding →
                t.bid.own ≠ some o ∧ t.fifo = s.withEvents [r.lost h.sender.toNat, { kind := .unconfirmed, code := some 2 }])
            ∧ (∀ o, s.bid.own = some o → (o.state = .fired → o.desc.tag ≠ d.tag) →
                (∀ i, (s.outfeed.streams.get i).spacer ≠ .requested (some d.tag)) →
                t.bid.own = some o ∧ t.fifo = s.withEvent (r.lost h.sender.toNat))))

/-- RECALL and VOID from another station: the record goes when the tag's owner sends it, and no other record but that of
an own bid; from anyone else it stays (R44). The station's own RECALL and VOID, accepted, do the same here and leave the
outbox (R44, R152). The removal of a held record discards its sighting, whose eyes stay as they are, and takes it from
the pieces under the outfeed eye (R72); the width sampler drops it in hand and pending, without event (R120); a PLACED
spacer of its tag returns its stream to NONE (R141), and a REQUESTED one that names it is withdrawn, with RECALLED code
WITHDRAWN where the bid engine bids for it, before either may plan anew in the same step (R96, R140; log 9). The pending
start of another piece stands where an ARMED sampler returns to IDLE, log 37. Time moves as log 3 gives. -/
def Obligations.OwnerWithdrawsRecord : Prop :=
  (∀ (s : State) (h : Heard) (tag : Tag) (c : Instr),
    (c = .recall h [tag.owner, tag.seq] ∧ s.hears h .recall) ∨ (c = .void h [tag.owner, tag.seq] ∧ s.hears h .void) →
    ∃ t, exec c s = .next t
      ∧ (tag.owner.toNat = h.sender.toNat → t.record tag = none)
      ∧ (tag.owner.toNat ≠ h.sender.toNat → s.ownElsewhere tag → t.record tag = s.record tag)
      ∧ (∀ x ∈ t.track.records, x ∈ s.track.records)
      ∧ (∀ x ∈ s.track.records, x.desc.tag ≠ tag → s.ownElsewhere x.desc.tag → x ∈ t.track.records)
      ∧ SameBut heardBlocks s t) ∧
  (∀ (s : State) (h : Heard) (tag : Tag) (c : Instr),
    (c = .recall h [tag.owner, tag.seq] ∧ s.hearsOwn h (.recall tag) [tag.owner, tag.seq]) ∨
      (c = .void h [tag.owner, tag.seq] ∧ s.hearsOwn h (.void tag) [tag.owner, tag.seq]) →
    ∃ t l, exec c s = .next t ∧ freshBids l
      ∧ (tag.owner.toNat = s.number → t.record tag = none)
      ∧ (tag.owner.toNat ≠ s.number → t.track.records = s.track.records)
      ∧ (∀ x ∈ t.track.records, x ∈ s.track.records)
      ∧ (∀ x ∈ s.track.records, x.desc.tag ≠ tag → s.ownElsewhere x.desc.tag → x ∈ t.track.records)
      ∧ (s.bid.own = none → t.link.outbox = s.link.outbox.filter (fun e => !e.sending) ++ l ∧ t.fifo = s.fifo)
      ∧ t.sending = none ∧ t.link.lastSender = some s.number
      ∧ SameBut ([.now, .line] ++ listBlocks) s t) ∧
  (∀ (s : State) (h : Heard) (tag : Tag) (c : Instr),
    (c = .recall h [tag.owner, tag.seq] ∧ s.hears h .recall) ∨ (c = .void h [tag.owner, tag.seq] ∧ s.hears h .void) →
    tag.owner.toNat = h.sender.toNat → (s.record tag).isSome = true → s.knows h.sender.toNat →
    (∀ o, s.bid.own = some o → o.state ≠ .settling) →
    ∃ t, exec c s = .next t
      ∧ t.eye.eyes = s.eye.eyes ∧ t.eye.sightings = s.eye.sightings.filter (fun g => g.tag != tag)
      ∧ t.outfeed.underEye = s.outfeed.underEye.filter (fun e => e.tag != tag)
      ∧ t.width.last = s.width.last
      ∧ t.width.pending = (if s.width.pending.any (fun p => p.tag == tag) = true then none else s.width.pending)
      ∧ ((∀ p, s.width.piece = some p → p.tag ≠ tag) → t.width.piece = s.width.piece
          ∧ t.width.phase = s.width.phase ∧ t.width.sum = s.width.sum ∧ t.width.due = s.width.due)
      ∧ (∀ p, s.width.piece = some p → p.tag = tag → s.width.phase = .armed →
          t.width.piece = none ∧ t.width.phase = .idle)
      ∧ (∀ p, s.width.piece = some p → p.tag = tag → s.width.phase = .converting →
          t.width.piece = none ∧ t.width.phase = .resting ∧ t.width.sum = 0 ∧ t.width.due = max s.now h.time + 2000)
      ∧ (∀ i, (s.outfeed.streams.get i).spacer = .placed tag → (t.outfeed.streams.get i).spacer ≠ .placed tag)
      ∧ (∀ i, (s.outfeed.streams.get i).spacer = .requested (some tag) →
          (t.outfeed.streams.get i).spacer ≠ .requested (some tag))
      ∧ (∀ i, (s.outfeed.streams.get i).spacer ≠ .placed tag →
          (s.outfeed.streams.get i).spacer ≠ .requested (some tag) → (s.outfeed.streams.get i).spacer ≠ .none →
          (t.outfeed.streams.get i).spacer = (s.outfeed.streams.get i).spacer)) ∧
  (∀ (s : State) (h : Heard) (tag : Tag) (c : Instr) (o : OwnBid) (q : SpacerRequest),
    (c = .recall h [tag.owner, tag.seq] ∧ s.hears h .recall) ∨ (c = .void h [tag.owner, tag.seq] ∧ s.hears h .void) →
    tag.owner.toNat = h.sender.toNat → (s.record tag).isSome = true → s.knows h.sender.toNat →
    s.bid.request = some q → (s.outfeed.streams.get q.stream).spacer = .requested (some tag) →
    s.bid.own = some o → o.serves = q.stream → o.desc.tag ≠ tag →
    (s.feed.positions.get o.serves).unloading = false →
    (o.state = .settling →
      ∃ t, exec c s = .next t ∧ t.bid.own ≠ some o ∧ t.record o.desc.tag = s.withoutOwn o.desc.tag
        ∧ (s.roomFirst → Entry.fresh (.recall o.desc.tag) ∈ t.link.outbox ∧ t.fifo = s.withEvent (o.recalled 11))) ∧
    (o.state = .queued → o.cancelling = false →
      ∃ t, exec c s = .next t ∧ t.fifo = s.withEvent (o.recalled 11)
        ∧ (¬ s.bidWaits → t.bid.own = some { o with cancelling := true })))

/-- JAM and JAM RELEASE from another station: the sender joins and leaves the jamming set, JAM_HELD and JAM_RELEASED are
raised for a change alone, and the JAM cause stands from the first member to the last (R80, R130). The station's own JAM
and JAM RELEASE, accepted, do the same here with its own number, and leave the outbox (R80, R152). Where JAM joins the hold
set, by either, a SETTLING or GRANTED own bid is recalled and a QUEUED one withdrawn, with RECALLED code 2 after JAM_HELD
(R81, R95; the order is log 8); a FIRED or cancelling one stands, and so does any own bid where the cause held already. -/
def Obligations.JamMembersHold : Prop :=
  (∀ (s : State) (h : Heard), s.hears h .jam → hasStation s.bid.jamming h.sender.toNat = false →
    ∃ t, exec (.jam h) s = .next t
      ∧ t.bid.jamming = s.bid.jamming ||| stationBit h.sender.toNat ∧ t.bid.hold.jam = true
      ∧ (s.knows h.sender.toNat → s.bid.own = none →
          t.fifo = s.withEvent { kind := .jamHeld, a := some h.sender.toNat } ∧ t.track.records = s.track.records)
      ∧ SameBut heardBlocks s t) ∧
  (∀ (s : State) (h : Heard), s.hears h .jamRelease → hasStation s.bid.jamming h.sender.toNat = true →
    ∃ t, exec (.jamReleaseAccepted h) s = .next t
      ∧ t.bid.jamming = s.bid.jamming &&& ~~~(stationBit h.sender.toNat)
      ∧ (t.bid.jamming = 0 → t.bid.hold.jam = false)
      ∧ (t.bid.jamming ≠ 0 → t.bid.hold.jam = s.bid.hold.jam)
      ∧ (s.knows h.sender.toNat →
          t.fifo = s.withEvent { kind := .jamReleased, a := some h.sender.toNat }
            ∧ t.track.records = s.track.records)
      ∧ SameBut heardBlocks s t) ∧
  (∀ (s : State) (h : Heard) (c : Instr), s.knows h.sender.toNat →
    (c = .jam h ∧ s.hears h .jam ∧ hasStation s.bid.jamming h.sender.toNat = true) ∨
      (c = .jamReleaseAccepted h ∧ s.hears h .jamRelease ∧ hasStation s.bid.jamming h.sender.toNat = false) →
    ∃ t, exec c s = .next t ∧ t.bid.jamming = s.bid.jamming ∧ t.bid.hold.jam = s.bid.hold.jam ∧ t.fifo = s.fifo) ∧
  (∀ (s : State) (h : Heard) (joined : Bool), s.hearsOwn h .jam [] → joined = !hasStation s.bid.jamming s.number →
    1 ≤ s.number → s.number ≤ 15 →
    ∃ t, exec (.jam h) s = .next t
      ∧ t.bid.jamming = s.bid.jamming ||| stationBit s.number
      ∧ t.bid.hold.jam = (s.bid.hold.jam || joined)
      ∧ (s.bid.own = none → t.track.records = s.track.records
          ∧ t.fifo = (if joined = true then s.withEvent { kind := .jamHeld, a := some s.number } else s.fifo))
      ∧ t.sending = none ∧ t.link.lastSender = some s.number
      ∧ SameBut ([.now, .line] ++ listBlocks) s t) ∧
  (∀ (s : State) (h : Heard) (member : Bool), s.hearsOwn h .jamRelease [] → member = hasStation s.bid.jamming s.number →
    ∃ t, exec (.jamReleaseAccepted h) s = .next t
      ∧ t.bid.jamming = s.bid.jamming &&& ~~~(stationBit s.number)
      ∧ t.bid.hold.jam = (if member = true ∧ t.bid.jamming = 0 then false else s.bid.hold.jam)
      ∧ t.fifo = (if member = true then s.withEvent { kind := .jamReleased, a := some s.number } else s.fifo)
      ∧ t.track.records = s.track.records ∧ t.sending = none ∧ t.link.lastSender = some s.number
      ∧ SameBut ([.now, .line, .fifo] ++ settlingBlocks) s t) ∧
  (∀ (s u : State) (h : Heard) (o : OwnBid),
    (s.hears h .jam ∧ s.knows h.sender.toNat ∧ u = s) ∨
      (s.hearsOwn h .jam [] ∧ u = s.setOutbox (s.link.outbox.filter (fun e => !e.sending))) →
    hasStation s.bid.jamming h.sender.toNat = false → s.bid.own = some o →
    ∃ t, exec (.jam h) s = .next t ∧ t.bid.hold.jam = true
      ∧ (s.bid.hold.jam = false → HeldBack u t o
          ∧ ((s.feed.positions.get o.serves).unloading = false → u.recallFits o →
              t.fifo = s.withEvents ({ kind := .jamHeld, a := some h.sender.toNat } :: o.heldEvents 2)))
      ∧ (s.bid.hold.jam = true → t.bid.own = some o ∧ t.track.records = s.track.records
          ∧ t.fifo = s.withEvent { kind := .jamHeld, a := some h.sender.toNat }))

/-- PURGE from a known station, or the station's own, accepted and out of the outbox: the track list, the sightings and
the jamming set are empty, the passed-over count and the deferral set are cleared, JAM and TRACK_FULL leave, the throat
is CLEAR and the streams count from nothing; the messages of R161 are cancelled, so that the outbox holds what is left
and then only a BID of a new search; PURGED names the sender. A QUEUED own bid whose BID is SENDING stays and is
cancelling; any other ends without an event, its position LOADED again, or EMPTY with UNLOADED after PURGED (log 8)
where it was marked; the other positions, the last-filled one and a fire sequence stand (R103, R109, R123). A search of
the same step may make a LOADED head BIDDING (R78). The width sampler drops what it has in hand and pending, an ARMED
one to IDLE and a CONVERTING one to its rest (R120, R123); a throat's BLOCKED lanes take the high-water count as block
base (R132). The line count and the last width stay (R45, R75, R143, R161). Time moves as log 3 gives. -/
def Obligations.PurgeEmptiesLists : Prop :=
  ∀ (s u : State) (h : Heard),
    (s.hears h .purge ∧ s.knows h.sender.toNat ∧ u = s) ∨
      (s.hearsOwn h .purge [] ∧ u = s.setLink { s.link with outbox := s.link.outbox.filter (fun e => !e.sending) }) →
    ∃ t l, exec (.purge h) s = .next t ∧ freshBids l
      ∧ t.track.records = [] ∧ t.eye.sightings = [] ∧ t.eye.eyes = s.eye.eyes
      ∧ t.bid.rivals = [] ∧ t.bid.request = none ∧ t.bid.passedOver = 0 ∧ t.bid.deferral = 0 ∧ t.bid.jamming = 0
      ∧ t.bid.hold = { s.bid.hold with
          jam := false, trackFull := false
          mismatch := if h.sender.toNat = s.number then s.bid.hold.mismatch else false }
      ∧ t.throat.jammed = false ∧ t.throat.announced = false ∧ t.throat.relay = false
      ∧ t.outfeed = { s.outfeed with
          streams := s.outfeed.streams.mapAt (fun _ x =>
            { x with current := none, passed := 0, spacer := .none, closure := none })
          queue := [], underEye := [], planDue := 0 }
      ∧ t.link.outbox = purgeOutbox u.link.outbox ++ l
      ∧ (s.bid.own = none → t.fifo = s.withEvent { kind := .purged, a := some h.sender.toNat })
      ∧ (∀ o, s.bid.own = some o → o.state = .queued → ¬ u.bidWaits →
          t.bid.own = some { o with cancelling := true } ∧ t.feed.positions = s.feed.positions
            ∧ t.fifo = s.withEvent { kind := .purged, a := some h.sender.toNat })
      ∧ (∀ o, s.bid.own = some o → o.state ≠ .queued ∨ u.bidWaits →
          (∀ o', t.bid.own = some o' → o'.state = .queued)
            ∧ ((s.feed.positions.get o.serves).state = .bidding → (s.feed.positions.get o.serves).unloading = true →
                t.feed.positions.get o.serves = Position.none
                  ∧ t.fifo = s.withEvents [{ kind := .purged, a := some h.sender.toNat }, s.unloaded o])
            ∧ ((s.feed.positions.get o.serves).state ≠ .bidding ∨ (s.feed.positions.get o.serves).unloading = false →
                t.fifo = s.withEvent { kind := .purged, a := some h.sender.toNat })
            ∧ ((s.feed.positions.get o.serves).state = .bidding → (s.feed.positions.get o.serves).unloading = false →
                t.feed.positions.get o.serves = { s.feed.positions.get o.serves with
                  state := if (t.bid.own.any (fun o' => o'.serves == o.serves)) = true then .bidding else .loaded }))
      ∧ (∀ i, (∀ o, s.bid.own = some o → o.serves ≠ i) →
          t.feed.positions.get i = s.feed.positions.get i
            ∨ ((s.feed.positions.get i).state = .loaded
                ∧ t.feed.positions.get i = { s.feed.positions.get i with state := .bidding }))
      ∧ t.feed.lastFilled = s.feed.lastFilled ∧ t.feed.fire = s.feed.fire ∧ t.feed.grip = s.feed.grip
      ∧ t.feed.drop = s.feed.drop
      ∧ t.width = { s.width with
          phase := (match s.width.phase with | .armed => .idle | .converting => .resting | x => x)
          piece := if s.width.phase = .armed ∨ s.width.phase = .converting then none else s.width.piece
          sum := if s.width.phase = .converting then 0 else s.width.sum
          due := if s.width.phase = .converting then max s.now h.time + 2000 else s.width.due
          pending := none }
      ∧ (∀ k, t.throat.bases.get k = if s.role = .throat then
          (if (s.eye.eyes.get k).state = .blocked then some s.line.highWater else none) else s.throat.bases.get k)
      ∧ t.line.count = s.line.count ∧ t.line.highWater = s.line.highWater ∧ t.width.last = s.width.last
      ∧ SameBut (.throat :: heardBlocks) s t

/-! ## The link -/

/-- SLOT_START: the oldest WAITING entry of the slot becomes the SENDING one, and its frame is written with the throat
distance of this moment; the slot begins a whole number of 1,024 µs rounds after its place in the grid (R151, R153). No
other entry changes or moves. The slot of a message is 16 times its class plus the station's number, and 64 more where
the station sent the last accepted frame (R147, R151). Where a start bit of another station has been seen since quiet
began, nothing begins and the grid stops until the end of its frame (R151; the start bit seen is an operand, log 27).
BID_ENTERS_OUTBOX: the waiting BID takes the freed entry as the youngest (R155). Time moves as log 3 gives. -/
def Obligations.SlotStartSendsEntry : Prop :=
  (∀ (s : State) (slot : Fin 128) (q : Nat) (e : Entry), s.link.quiet = some q → s.waitingFor slot.val = some e →
    s.station = .joining ∨ s.station = .active → s.sending = none →
    ∃ t, exec (.slotStart slot) s = .next t
      ∧ e ∈ s.link.outbox ∧ e.sending = false ∧ s.slotOf e.msg = slot.val
      ∧ t.sending = some { e with sending := true }
      ∧ t.link.outbox.length = s.link.outbox.length
      ∧ (∃ before after, s.link.outbox = before ++ e :: after
          ∧ (∀ x ∈ before, x.sending = true ∨ s.slotOf x.msg ≠ slot.val)
          ∧ t.link.outbox = before ++ { e with sending := true } :: after)
      ∧ t.link.quiet = none
      ∧ t.link.frame = frameOf e.msg.kind s.number (e.msg.payload s.run s.line.count)
      ∧ t.link.waitingBid = s.link.waitingBid ∧ t.link.lastSender = s.link.lastSender
      ∧ t.link.health = s.link.health ∧ t.link.spoil = s.link.spoil ∧ t.link.listenFrom = s.link.listenFrom
      ∧ t.link.began = t.now
      ∧ s.now ≤ t.now ∧ (∃ m, t.now = q + 8 * slot.val + 1024 * m ∧ (m = 0 ∨ t.now < s.now + 1024))
      ∧ SameBut [.now, .line, .link] s t) ∧
  (∀ (s : State) (slot : Fin 128),
    exec (.slotStart slot true) s = .next (s.setLink { s.link with quiet := none })) ∧
  (∀ (s : State) (m : Msg), s.slotOf m = 16 * (match m with
      | .recall _ | .void _ | .jam | .jamRelease | .purge => 0
      | .bid _ _ => 1
      | .seen _ _ _ | .missed _ _ | .stray _ _ => 2
      | .hail => 3) + s.number + (if s.link.lastSender = some s.number then 64 else 0)) ∧
  (∀ (s : State) (slot : Nat),
    s.waitingFor slot = none ↔ ∀ x ∈ s.link.outbox, x.sending = true ∨ s.slotOf x.msg ≠ slot) ∧
  (∀ (s : State) (m : Msg), s.link.waitingBid = some m → sharedRoom s.link.outbox = true →
    ∃ t, exec .bidEntersOutbox s = .next t
      ∧ t.link = { s.link with outbox := s.link.outbox ++ [Entry.fresh m], waitingBid := none }
      ∧ SameBut [.link] s t)

/-- FRAME_ERROR outside SETUP, for a frame whose start bit does not fall in a spoil window: a station in JOINING or
ACTIVE drives the line low for 12 µs from 4 µs after the error is found, one in FAULT drives nothing; no start bit is
taken before the end of the frame's spoil window, and the grid starts again after it. A run that begins before that, or
after an own attempt began, is no frame (R148, R149, R151). The frame ends at its second CRC byte, which its length byte
alone places, whatever follows it; where the run is shorter, it breaks off 4 µs after its last byte (R145). A wrong sync
byte and a low stop bit are framing errors at the byte that shows them; a header of no kind or of sender 0, and a length
byte that is not the kind's, are length errors at theirs; a run that is shorter breaks off; and a wrong check value is
found at the frame's end (R146, R149). SPOILED_FRAME_DISCARDED starts the grid again and does nothing else (R150). Time
moves as log 3 gives. That the length byte counts where an error is found before it is inferred, log 25. A run that is
not taken leaves the row without effect, log 2. -/
def Obligations.DamagedFrameSpoiled : Prop :=
  (∀ (s : State) (run : Run) (f : FoundFault), judge run.bytes = some f → s.running →
    s.link.listenFrom ≤ run.start → s.sending = none ∨ run.start < s.link.began →
    ∃ t, exec (.frameError run) s = .next t
      ∧ t.link = { s.link with
          spoil := if s.station = .fault then s.link.spoil
            else some { start := foundTime run.start f + 4, stop := foundTime run.start f + 16 }
          listenFrom := frameEnd run + 20
          quiet := some (frameEnd run + 40) }
      ∧ t.now = max s.now (frameEnd run) ∧ SameBut [.now, .line, .link] s t) ∧
  (∀ (s : State) (run : Run), run.start < s.link.listenFrom ∨ (s.sending ≠ none ∧ s.link.began ≤ run.start) →
    exec (.frameError run) s = .next s) ∧
  (∀ (start : Nat) (sync header len : Byte × Bool) (rest : List (Byte × Bool)),
    frameEnd { start := start, bytes := sync :: header :: len :: rest } =
      (if len.1.toNat + 2 ≤ rest.length then start + 20 * (len.1.toNat + 5) else start + 20 * (rest.length + 3) + 4)) ∧
  (∀ (start : Nat) (bytes : List (Byte × Bool)), bytes.length < 3 →
    frameEnd { start := start, bytes := bytes } = start + 20 * bytes.length + 4) ∧
  (∀ (start : Nat) (k : MsgKind) (n : Nat) (payload : List Byte) (rest : List (Byte × Bool)), 1 ≤ n → n ≤ 15 →
    payload.length = payloadLength k →
    frameEnd { start := start, bytes := (frameOf k n payload).map (fun b => (b, true)) ++ rest }
      = start + 20 * (payloadLength k + 5)) ∧
  (∀ (s : State) (p : Pulse), s.link.spoil = some p → (s.drivesSpoil = true ↔ p.start ≤ s.now ∧ s.now < p.stop)) ∧
  (∀ (b : Byte) (stop : Bool) (rest : List (Byte × Bool)), b ≠ 0xB6 →
    judge ((b, stop) :: rest) = some { fault := .framing, bytes := 1, broken := false }) ∧
  (∀ (start : Nat) (f : FoundFault),
    foundTime start f = start + 20 * f.bytes + (if f.broken = true then 4 else 0)) ∧
  (∀ (header len : Byte) (rest : List (Byte × Bool)),
    judge ((0xB6, false) :: rest) = some { fault := .framing, bytes := 1, broken := false } ∧
    judge [(0xB6, true)] = some { fault := .framing, bytes := 1, broken := true } ∧
    judge ((0xB6, true) :: (header, false) :: rest) = some { fault := .framing, bytes := 2, broken := false } ∧
    ((∀ k, kindValue k ≠ header.toNat / 16) ∨ header.toNat % 16 = 0 →
      judge ((0xB6, true) :: (header, true) :: rest) = some { fault := .length, bytes := 2, broken := false }) ∧
    (∀ k, kindValue k = header.toNat / 16 → header.toNat % 16 ≠ 0 →
      judge [(0xB6, true), (header, true)] = some { fault := .framing, bytes := 2, broken := true } ∧
      judge ((0xB6, true) :: (header, true) :: (len, false) :: rest)
        = some { fault := .framing, bytes := 3, broken := false } ∧
      (len.toNat ≠ payloadLength k →
        judge ((0xB6, true) :: (header, true) :: (len, true) :: rest)
          = some { fault := .length, bytes := 3, broken := false }))) ∧
  (∀ (k : MsgKind) (header len b : Byte) (body : List Byte) (rest : List (Byte × Bool)),
    kindValue k = header.toNat / 16 → header.toNat % 16 ≠ 0 → len.toNat = payloadLength k →
    (body.length < len.toNat + 2 →
      judge (([0xB6, header, len] ++ body).map (fun x => (x, true)) ++ (b, false) :: rest)
        = some { fault := .framing, bytes := body.length + 4, broken := false } ∧
      judge (([0xB6, header, len] ++ body).map (fun x => (x, true)))
        = some { fault := .framing, bytes := body.length + 3, broken := true }) ∧
    (body.length = len.toNat + 2 →
      judge (([0xB6, header, len] ++ body).map (fun x => (x, true)) ++ rest)
        = if twoAt body len.toNat = crc (header :: len :: body.take len.toNat) then none
          else some { fault := .crc, bytes := body.length + 3, broken := false })) ∧
  (∀ (s : State) (time : Nat), s.running →
    ∃ t, exec (.spoiledFrameDiscarded time) s = .next t
      ∧ t.link = { s.link with quiet := some (max s.now time + 20), listenFrom := max s.now time }
      ∧ t.now = max s.now time ∧ SameBut [.now, .line, .link] s t)

/-- ATTEMPT_SPOILED and READBACK_MISMATCH: the entry returns to WAITING with one attempt more, at its place; at the
eighth it leaves with MSG_DROPPED; a cancelling entry leaves without an event. What the end of the step appends to the
outbox is a BID of a new search alone. A BID of the own bid dropped at the eighth attempt leaves the own bid NONE and
its position LOADED (R157); a SIGHTING SEEN about the fired tag, dropped, confirms with code UNSENT (R98, R157). Nothing
stays SENDING, and quiet begins 20 µs after the spoil window, which after a mismatch follows the 4 µs break (R151, R152,
R156). Time moves as log 3 gives. The times are operands, log 24. MSG_DROPPED comes before CONFIRMED: log 8. -/
def Obligations.SpoiledAttemptRetriesOrDrops : Prop :=
  (∀ (s : State) (e : Entry) (c : Instr) (time wait : Nat), s.sending = some e → s.leaving = false →
    (c = .attemptSpoiled time ∧ wait = 20) ∨ (c = .readbackMismatch time ∧ wait = 44) →
    ∃ t l, exec c s = .next t ∧ freshBids l
      ∧ t.now = max s.now time ∧ t.sending = none ∧ t.link.frame = []
      ∧ t.link.quiet = some (max s.now time + wait)
      ∧ t.link.outbox = (if e.cancelling = false ∧ e.attempts < 7 then s.link.outbox.map (fun x =>
          if x.sending then { x with sending := false, attempts := x.attempts + 1 } else x)
        else s.link.outbox.filter (fun x => !x.sending)) ++ l
      ∧ (e.cancelling = false → e.attempts < 7 → t.fifo = s.fifo)
      ∧ (e.cancelling = false → 7 ≤ e.attempts → (∀ o, s.bid.own = some o → e.msg.tag? ≠ some o.desc.tag) →
          t.fifo = s.withEvent { kind := .msgDropped, tag := e.msg.tag?, article := e.msg.desc?.map Desc.article
                                 lot := e.msg.desc?.map Desc.lot, a := some (kindValue e.msg.kind)
                                 b := some 8, code := some 1 })
      ∧ (e.cancelling = true → (∀ o, s.bid.own = some o → e.msg.tag? ≠ some o.desc.tag) → t.fifo = s.fifo)
      ∧ t.track.records = s.track.records
      ∧ SameBut ([.now, .line, .fifo] ++ settlingBlocks) s t) ∧
  (∀ (s : State) (e : Entry) (o : OwnBid) (tl : Count) (time : Nat) (dropped : Event), s.sending = some e →
    s.leaving = false → e.cancelling = false → 7 ≤ e.attempts → e.msg = .bid o.desc tl → s.bid.own = some o →
    o.state = .queued → s.role = .feed → s.feed.ready = false → (s.feed.positions.get o.serves).unloading = false →
    dropped = { kind := .msgDropped, tag := some o.desc.tag, article := some o.desc.article
                lot := some o.desc.lot, a := some 6, b := some 8, code := some 1 } →
    ∃ t, exec (.attemptSpoiled time) s = .next t
      ∧ t.bid.own = none ∧ t.fifo = s.withEvent dropped
      ∧ ((s.feed.positions.get o.serves).state = .bidding → (t.feed.positions.get o.serves).state = .loaded)) ∧
  (∀ (s : State) (e : Entry) (o : OwnBid) (d : Desc) (tl : Count) (n time : Nat) (dropped : Event),
    s.sending = some e → s.leaving = false → e.cancelling = false → 7 ≤ e.attempts → e.msg = .seen d tl n →
    s.bid.own = some o → o.state = .fired → o.desc.tag = d.tag → (s.feed.positions.get o.serves).state ≠ .bidding →
    dropped = { kind := .msgDropped, tag := some d.tag, article := some d.article
                lot := some d.lot, a := some 7, b := some 8, code := some 1 } →
    ∃ t, exec (.attemptSpoiled time) s = .next t
      ∧ (∀ o', t.bid.own = some o' → o'.state = .queued)
      ∧ t.fifo = s.withEvents [dropped, { kind := .confirmed, code := some 15 }])

/-- WITHDRAWAL_COMPLETION, for a cancelling own BID in flight while the station is held: spoiled, the entry leaves and
the own bid is NONE; accepted, the BID is filed, recalled and removed, a RECALL takes the free entry and the own bid is
NONE. Either way its position is no longer BIDDING (R88, R95, R156). Time moves as log 3 gives. How the attempt ended is
an operand, log 24. -/
def Obligations.WithdrawalCompletes : Prop :=
  ∀ (s : State) (o : OwnBid) (e : Entry) (tl : Count) (time : Nat) (clean : Bool), s.bid.own = some o →
    o.state = .queued → o.cancelling = true → s.sending = some e → e.msg = .bid o.desc tl → e.cancelling = true →
    s.leaving = false → s.bid.hold.operator = true →
    ∃ t, exec (.withdrawalCompletion time clean) s = .next t
      ∧ t.bid.own = none ∧ t.sending = none ∧ t.now = max s.now time
      ∧ (t.feed.positions.get o.serves).state ≠ .bidding
      ∧ (clean = true → t.record o.desc.tag = none ∧ t.link.lastSender = some s.number
          ∧ ((s.link.outbox.filter (fun x => !x.sending)).length < 7 →
              Entry.fresh (.recall o.desc.tag) ∈ t.link.outbox))
      ∧ (clean = false → t.track.records = s.track.records ∧ t.link.lastSender = s.link.lastSender
          ∧ t.link.outbox = s.link.outbox.filter (fun x => !x.sending))
      ∧ SameBut ([.now, .line] ++ listBlocks) s t

/-! ## The host commands -/

/-- LEAVE with nothing SENDING takes the station to SETUP with LEFT; with an entry SENDING the station waits in its old
state, the other entries cancelled, and what it searches for meanwhile is a fresh BID (R78, log 23). LEAVE_COMPLETION
ends the wait in SETUP, however the attempt ended; where it was spoiled, LEFT is the only event (R109, R122). In SETUP
every list is empty, the streams keep their lanes, their serial and how the last stack closed alone, and every outfeed
output is off (R143); a fire sequence runs on to its outputs, with no position to empty (R122); no instant of R110 is
marked (log 46), the bid engine and the peer table are reset, and the counts and the store stay (R160, R183); LEAVE
there is refused with WRONG STATE (R179). How the attempt ended is an operand, log 24. -/
def Obligations.LeaveEntersSetup : Prop :=
  (∀ s : State, s.port.held = false → s.running → s.leaving = false → s.sending = none →
    ∃ t, exec .leave s = .next t
      ∧ t.port.last = .ok ∧ t.station = .setup ∧ t.leaving = false
      ∧ t.track.records = [] ∧ t.track.counter = s.track.counter ∧ t.eye = EyeUnit.reset ∧ t.bid = BidEngine.reset
      ∧ t.feed.positions = Quad.fill Position.none ∧ t.feed.returned = none
      ∧ t.feed.grip = s.feed.grip ∧ t.feed.drop = s.feed.drop ∧ t.feed.ready = s.feed.ready
      ∧ t.feed.lastFilled = s.feed.lastFilled
      ∧ t.feed.fire = s.feed.fire.map (fun q => { q with position := none })
      ∧ t.outfeed = { OutfeedDirector.reset with
          streams := s.outfeed.streams.mapAt (fun _ x =>
            { x with current := none, passed := 0, spacer := .none, closure := none }) }
      ∧ t.outfeed.queue = [] ∧ t.outfeed.underEye = [] ∧ t.outfeed.foldQueue = [] ∧ t.outfeed.foldCode = 0
      ∧ t.outfeed.strobe = none ∧ t.outfeed.divert = none ∧ (∀ i, t.outfeed.stackChange.get i = none)
      ∧ t.width.phase = .idle ∧ t.width.last = s.width.last ∧ t.throat = ThroatMonitor.reset
      ∧ t.link = LinkController.reset ∧ t.peers = PeerTable.reset
      ∧ t.line = { s.line with excursion := false, atAdvance := false }
      ∧ t.fifo = s.withEvent { kind := .left, a := some s.station.code, b := some s.track.records.length }
      ∧ SameBut [.station, .leaving, .line, .track, .eye, .bid, .feed, .width, .throat, .outfeed, .link, .peers, .port,
          .fifo] s t) ∧
  (∀ (s : State) (e : Entry), s.port.held = false → s.running → s.leaving = false → s.sending = some e →
    ∃ t l, exec .leave s = .next t ∧ freshBids l
      ∧ t.port.last = .ok ∧ t.station = s.station ∧ t.leaving = true
      ∧ (s.link.within → t.link.waitingBid = none)
      ∧ t.link.outbox =
          (s.link.outbox.filter (fun x => x.sending)).map (fun x => { x with cancelling := true }) ++ l
      ∧ t.track.records = s.track.records
      ∧ SameBut ([.leaving, .port, .fifo] ++ settlingBlocks) s t) ∧
  (∀ (s : State) (time : Nat) (clean : Bool), s.leaving = true →
    ∃ t, exec (.leaveCompletion time clean) s = .next t
      ∧ t.station = .setup ∧ t.leaving = false ∧ t.track.records = [] ∧ t.bid = BidEngine.reset
      ∧ t.link = LinkController.reset ∧ t.peers = PeerTable.reset ∧ t.line.count = s.line.count
      ∧ t.line.highWater = s.line.highWater ∧ t.store = s.store ∧ t.run = s.run
      ∧ (clean = false → (∀ e, s.sending = some e → e.cancelling = true) →
          t.fifo = s.withEvent { kind := .left, a := some s.station.code, b := some s.track.records.length })) ∧
  (∀ s : State, s.port.held = false → s.station = .setup →
    ∃ t, exec .leave s = .next t ∧ t.port.last = .wrongState ∧ SameBut [.port] s t)

/-- CONFIGURE in SETUP stores each field of its data bytes limited to its range, answers OK where every field is in
range and CLAMPED otherwise, and marks STATION written; an ARTICLE argument outside 1 to 63 gives BAD ARTICLE; too few
data bytes cut the transaction short; outside SETUP every CONFIGURE gives WRONG STATE (R18, R177, R179, R180). Each
field stands at the place that section 11.4 gives it, the most significant byte first (R193). -/
def Obligations.ConfigureWritesStore : Prop :=
  (∀ (s : State) (data : List Byte), s.port.held = false → s.station = .setup → 26 ≤ data.length →
    ∃ t, exec (.configureStation data) s = .next t
      ∧ t.store = { s.store with station := stationOf (stationAt data), written := true }
      ∧ t.port.last = (if stationExact (stationAt data) = true then .ok else .clamped) ∧ SameBut [.store, .port] s t) ∧
  (∀ (s : State) (data : List Byte), s.port.held = false → s.station = .setup → 17 ≤ data.length →
    ∃ t, exec (.configureLine data) s = .next t
      ∧ t.store = { s.store with line := lineOf (lineAt data) }
      ∧ t.port.last = (if lineExact (lineAt data) = true then .ok else .clamped) ∧ SameBut [.store, .port] s t) ∧
  (∀ (s : State) (n : BitVec 7) (data : List Byte), s.port.held = false → s.station = .setup → 1 ≤ n.toNat →
    n.toNat ≤ 63 → 14 ≤ data.length →
    ∃ t, exec (.configureArticle n data) s = .next t
      ∧ t.store = { s.store with articles := s.store.articles.set (n.toNat - 1) (articleOf (articleAt data)) }
      ∧ t.port.last = (if articleExact (articleAt data) = true then .ok else .clamped) ∧ SameBut [.store, .port] s t) ∧
  (∀ (s : State) (n : BitVec 7) (data : List Byte), s.port.held = false → s.station = .setup →
    n.toNat = 0 ∨ 63 < n.toNat →
    ∃ t, exec (.configureArticle n data) s = .next t ∧ t.port.last = .badArticle ∧ SameBut [.port] s t) ∧
  (∀ (s : State) (c : Instr) (data : List Byte), s.port.held = false → s.station = .setup →
    (c = .configureStation data ∧ data.length < 26) ∨ (c = .configureLine data ∧ data.length < 17) ∨
      (∃ n : BitVec 7, c = .configureArticle n data ∧ 1 ≤ n.toNat ∧ n.toNat ≤ 63 ∧ data.length < 14) →
    ∃ t, exec c s = .next t ∧ t.port.cut = true ∧ t.port.last = s.port.last ∧ SameBut [.port] s t) ∧
  (∀ (s : State) (c : Instr), s.port.held = false → s.running →
    ((∃ w, c = .configureStation w) ∨ (∃ w, c = .configureLine w) ∨ (∃ n w, c = .configureArticle n w)) →
    ∃ t, exec c s = .next t ∧ t.port.last = .wrongState ∧ SameBut [.port] s t) ∧
  (∀ w : StationWrite,
    stationOf w =
      { number := max 1 (min 15 w.number.toNat)
        role := if w.role.toNat = 2 then .throat else if w.role.toNat = 3 then .outfeed else .feed
        lanes := w.lanes.setWidth 4
        eye := max (-20000) (min 60000 w.eye.toInt)
        landing := min 2000 w.landing.toNat
        actuator := min 500 w.actuator.toNat
        dead := min 50 w.dead.toNat
        pulse := max 20 (min 500 w.pulse.toNat)
        filter := max 5 (min 50 w.filter.toNat)
        tolerance := max 10 (min 500 w.tolerance.toNat)
        reverse := max 20 (min 2000 w.reverse.toNat)
        sample := max 50 (min 500 w.sample.toNat)
        curtain := max 300 (min 4000 w.curtain.toNat)
        streams := w.streams
        mode := if w.mode.toNat = 1 then .overwrite else .blocking
        watermark := max 1 (min 32 w.watermark.toNat) } ∧
    (stationExact w = true ↔ (1 ≤ w.number.toNat ∧ w.number.toNat ≤ 15) ∧ (1 ≤ w.role.toNat ∧ w.role.toNat ≤ 3)
      ∧ (-20000 ≤ w.eye.toInt ∧ w.eye.toInt ≤ 60000) ∧ w.landing.toNat ≤ 2000 ∧ w.actuator.toNat ≤ 500
      ∧ w.dead.toNat ≤ 50 ∧ (20 ≤ w.pulse.toNat ∧ w.pulse.toNat ≤ 500) ∧ (5 ≤ w.filter.toNat ∧ w.filter.toNat ≤ 50)
      ∧ (10 ≤ w.tolerance.toNat ∧ w.tolerance.toNat ≤ 500) ∧ (20 ≤ w.reverse.toNat ∧ w.reverse.toNat ≤ 2000)
      ∧ (50 ≤ w.sample.toNat ∧ w.sample.toNat ≤ 500) ∧ (300 ≤ w.curtain.toNat ∧ w.curtain.toNat ≤ 4000)
      ∧ w.mode.toNat ≤ 1 ∧ (1 ≤ w.watermark.toNat ∧ w.watermark.toNat ≤ 32))) ∧
  (∀ w : LineWrite,
    lineOf w =
      { cpm := max 500 (min 4000 w.cpm.toNat)
        lanes := max 1 (min 4 w.lanes.toNat)
        lotBreak := min 5000 w.lotBreak.toNat
        strayGap := min 3000 w.strayGap.toNat
        settle := max 5 (min 50 w.settle.toNat)
        horizon := max 2000 (min 60000 w.horizon.toNat)
        join := max 2000 (min 60000 w.join.toNat)
        jam := max 100 (min 3000 w.jam.toNat)
        stack := max 200 (min 3000 w.stack.toNat)
        limit := max 1 (min 15 w.limit.toNat) } ∧
    (lineExact w = true ↔ (500 ≤ w.cpm.toNat ∧ w.cpm.toNat ≤ 4000) ∧ (1 ≤ w.lanes.toNat ∧ w.lanes.toNat ≤ 4)
      ∧ w.lotBreak.toNat ≤ 5000 ∧ w.strayGap.toNat ≤ 3000 ∧ (5 ≤ w.settle.toNat ∧ w.settle.toNat ≤ 50)
      ∧ (2000 ≤ w.horizon.toNat ∧ w.horizon.toNat ≤ 60000) ∧ (2000 ≤ w.join.toNat ∧ w.join.toNat ≤ 60000)
      ∧ (100 ≤ w.jam.toNat ∧ w.jam.toNat ≤ 3000) ∧ (200 ≤ w.stack.toNat ∧ w.stack.toNat ≤ 3000)
      ∧ (1 ≤ w.limit.toNat ∧ w.limit.toNat ≤ 15))) ∧
  (∀ w : ArticleWrite,
    articleOf w =
      { enabled := w.flags.getLsbD 0
        fullWidth := w.flags.getLsbD 1
        length := max 150 (min 4500 w.length.toNat)
        width := max 100 (min 4000 w.width.toNat)
        tolerance := min 300 w.tolerance.toNat
        feedGap := min 2000 w.feedGap.toNat
        foldGap := min 3000 w.foldGap.toNat
        shrink := min 80 w.shrink.toNat
        stack := max 1 (min 60 w.stack.toNat)
        program := min 15 w.program.toNat } ∧
    (articleExact w = true ↔ (150 ≤ w.length.toNat ∧ w.length.toNat ≤ 4500)
      ∧ (100 ≤ w.width.toNat ∧ w.width.toNat ≤ 4000) ∧ w.tolerance.toNat ≤ 300 ∧ w.feedGap.toNat ≤ 2000
      ∧ w.foldGap.toNat ≤ 3000 ∧ w.shrink.toNat ≤ 80 ∧ (1 ≤ w.stack.toNat ∧ w.stack.toNat ≤ 60)
      ∧ w.program.toNat ≤ 15)) ∧
  (∀ (number role lanes eye0 eye1 eye2 landing0 landing1 actuator0 actuator1 dead pulse0 pulse1 filter tolerance0
      tolerance1 reverse0 reverse1 sample0 sample1 curtain0 curtain1 mode watermark : Byte) (one two three four : Lanes)
      (rest : List Byte),
    stationAt ([number, role, lanes, eye0, eye1, eye2, landing0, landing1, actuator0, actuator1, dead, pulse0, pulse1,
        filter, tolerance0, tolerance1, reverse0, reverse1, sample0, sample1, curtain0, curtain1, one ++ two,
        three ++ four, mode, watermark] ++ rest) =
      { number := number, role := role, lanes := lanes, eye := eye0 ++ (eye1 ++ eye2), landing := landing0 ++ landing1
        actuator := actuator0 ++ actuator1, dead := dead, pulse := pulse0 ++ pulse1, filter := filter
        tolerance := tolerance0 ++ tolerance1, reverse := reverse0 ++ reverse1, sample := sample0 ++ sample1
        curtain := curtain0 ++ curtain1, streams := { one := one, two := two, three := three, four := four }
        mode := mode, watermark := watermark }) ∧
  (∀ (cpm0 cpm1 lanes break0 break1 stray0 stray1 settle horizon0 horizon1 join0 join1 jam0 jam1 stack0 stack1
      limit : Byte) (rest : List Byte),
    lineAt ([cpm0, cpm1, lanes, break0, break1, stray0, stray1, settle, horizon0, horizon1, join0, join1, jam0, jam1,
        stack0, stack1, limit] ++ rest) =
      { cpm := cpm0 ++ cpm1, lanes := lanes, lotBreak := break0 ++ break1, strayGap := stray0 ++ stray1
        settle := settle, horizon := horizon0 ++ horizon1, join := join0 ++ join1, jam := jam0 ++ jam1
        stack := stack0 ++ stack1, limit := limit }) ∧
  (∀ (flags length0 length1 width0 width1 tolerance0 tolerance1 feed0 feed1 fold0 fold1 shrink stack program : Byte)
      (rest : List Byte),
    articleAt ([flags, length0, length1, width0, width1, tolerance0, tolerance1, feed0, feed1, fold0, fold1, shrink,
        stack, program] ++ rest) =
      { flags := flags, length := length0 ++ length1, width := width0 ++ width1, tolerance := tolerance0 ++ tolerance1
        feedGap := feed0 ++ feed1, foldGap := fold0 ++ fold1, shrink := shrink, stack := stack, program := program })

/-- START in SETUP with STATION written: the figures are taken from the store, the station is JOINING, the high-water
count is the line count, the watched eyes take their levels, LINE_DOWN holds with OPERATOR where it stood, a HAIL is
queued, and quiet begins once the line has lain undriven for 40 µs. The figures are the two sections as they stand, the
station lane set, and each distance in counts at the line's cpm (R13, R21); the streams take the station's named sets,
reduced to that lane set and no lane twice, stream 1 the whole set where none is named, and keep only their serial and
how the last stack closed (R133, R143). Otherwise START is refused with WRONG STATE (R57, R79, R160, R163, R179, R182).
A fire sequence that LEAVE left to its outputs runs on, as section 6.7 has it, beside R123's START column: log 18. Since
when the line lies undriven is an operand, log 42. -/
def Obligations.StartEntersJoining : Prop :=
  (∀ (s : State) (eyes : Lanes) (lineFree : Nat), s.port.held = false → s.station = .setup → s.store.written = true →
    ∃ t, exec (.start eyes lineFree) s = .next t
      ∧ t.port.last = .ok ∧ t.station = .joining ∧ t.run = s.store.figures
      ∧ t.line = { s.line with highWater := s.line.count, excursion := false, atAdvance := false }
      ∧ t.track = { s.track with records := [] }
      ∧ (∀ k, t.eye.eyes.get k = if hasLane t.run.lanes k = true
          then { state := if hasLane eyes k = true then .blocked else .clear, edge := none } else Eye.idle)
      ∧ t.eye.sightings = []
      ∧ t.bid = { BidEngine.reset with hold :=
          { operator := s.bid.hold.operator, jam := false, lineDown := true, mismatch := false, trackFull := false } }
      ∧ t.throat.jammed = false ∧ t.throat.relay = false ∧ t.throat.announced = false
      ∧ (∀ k, t.throat.bases.get k = if t.role = .throat ∧ hasLane t.run.lanes k = true ∧ hasLane eyes k = true
          then some s.line.count else none)
      ∧ t.link = { LinkController.reset with
          outbox := [Entry.fresh .hail], quiet := some (max s.now lineFree + 40), listenFrom := s.now }
      ∧ t.peers = { entries := [], hailTimer := some (s.now + 250000), joined := 0 }
      ∧ (∀ i, t.outfeed.streams.get i =
          { lanes := (streamLanes t.run).get i, current := none, passed := 0
            serial := (s.outfeed.streams.get i).serial, spacer := .none, closure := none
            lastStack := (s.outfeed.streams.get i).lastStack })
      ∧ t.outfeed = { OutfeedDirector.reset with streams := t.outfeed.streams }
      ∧ SameBut [.station, .run, .line, .track, .eye, .bid, .throat, .outfeed, .link, .peers, .port] s t) ∧
  (∀ (s : State) (eyes : Lanes) (lineFree : Nat), s.port.held = false → s.running ∨ s.store.written = false →
    ∃ t, exec (.start eyes lineFree) s = .next t ∧ t.port.last = .wrongState ∧ SameBut [.port] s t) ∧
  (∀ (st : Store) (c : Nat → Int) (e : Int), (∀ mm : Nat, c mm = mmToCounts st.line.cpm mm) →
    e = (if st.station.role = .throat then 0 else mmToCounts st.line.cpm st.station.eye) →
    st.figures = { station := st.station, line := st.line, lanes := st.figures.lanes, eye := e
                   landing := c st.station.landing, filter := c st.station.filter
                   tolerance := c st.station.tolerance, reverse := c st.station.reverse
                   sample := c st.station.sample, lotBreak := (c st.line.lotBreak).toNat
                   strayGap := (c st.line.strayGap).toNat, horizon := c st.line.horizon, join := c st.line.join
                   jam := c st.line.jam, unbound := c 4500, stack := (c st.line.stack).toNat }) ∧
  (∀ (st : Store) (k : Fin 4), st.line.lanes ≤ 4 →
    (hasLane st.figures.lanes k = true ↔ if st.station.role = .throat then k.val < st.line.lanes
      else if ∃ j : Fin 4, hasLane st.station.lanes j = true ∧ j.val < st.line.lanes then
        hasLane st.station.lanes k = true ∧ k.val < st.line.lanes
      else k = 0)) ∧
  (∀ (f : Figures) (i k : Fin 4), hasLane ((streamLanes f).get i) k = true ↔ f.station.role = .outfeed
    ∧ hasLane f.lanes k = true
    ∧ (if ∃ j m : Fin 4, hasLane (f.station.streams.get j) m = true ∧ hasLane f.lanes m = true then
        hasLane (f.station.streams.get i) k = true ∧ ∀ j, j < i → hasLane (f.station.streams.get j) k = false
      else i = 0))

/-- HOLD_REQUESTED puts OPERATOR in the hold set and recalls a SETTLING or GRANTED own bid with RECALLED code 1; a
QUEUED one is withdrawn, at once where its BID waits and by cancelling the attempt where it is SENDING. Where OPERATOR
stands already it changes nothing. HOLD_RELEASED takes it out, in every state; PURGE_COMMAND in JOINING or ACTIVE queues
PURGE, FULL where no entry can be had, and removes nothing yet; elsewhere, in SETUP and FAULT, it gives WRONG STATE
(R81, R95, R179, R186, R187). -/
def Obligations.HoldAndPurgeCommands : Prop :=
  (∀ s : State, s.port.held = false → s.bid.hold.operator = false →
    ∃ t, exec .holdRequested s = .next t
      ∧ t.port.last = .ok ∧ t.bid.hold.operator = true ∧ t.bid.hold.jam = s.bid.hold.jam
      ∧ t.bid.hold.lineDown = s.bid.hold.lineDown ∧ t.bid.hold.mismatch = s.bid.hold.mismatch
      ∧ (∀ o, s.bid.own = some o → o.state = .settling ∨ o.state = .granted →
          t.bid.own = none ∧ t.record o.desc.tag = s.withoutOwn o.desc.tag
            ∧ (s.roomFirst → Entry.fresh (.recall o.desc.tag) ∈ t.link.outbox)
            ∧ (s.roomFirst → (s.feed.positions.get o.serves).unloading = false → t.fifo = s.withEvent (o.recalled 1)))
      ∧ (s.bid.own = none → t.fifo = s.fifo ∧ t.track.records = s.track.records)
      ∧ (∀ o, s.bid.own = some o → o.state = .fired → t.bid.own = some o ∧ t.fifo = s.fifo)
      ∧ (∀ o, s.bid.own = some o → o.state = .queued → o.cancelling = false →
          t.track.records = s.track.records
            ∧ (s.bidWaits → t.bid.own = none
                ∧ t.link.outbox = s.link.outbox.filter (fun e => e.msg.kind != .bid) ∧ t.link.waitingBid = none)
            ∧ (¬ s.bidWaits → t.bid.own = some { o with cancelling := true }
                ∧ t.link.outbox = s.link.outbox.map (fun e =>
                    if e.msg.kind = .bid then { e with cancelling := true } else e))
            ∧ ((s.feed.positions.get o.serves).unloading = false ∨ ¬ s.bidWaits →
                t.fifo = s.withEvent (o.recalled 1)))
      ∧ SameBut (.port :: listBlocks) s t) ∧
  (∀ s : State, s.port.held = false → s.bid.hold.operator = true →
    ∃ t, exec .holdRequested s = .next t
      ∧ t.port.last = .ok ∧ KeepsSettled s t ∧ SameBut (.port :: settlingBlocks) s t) ∧
  (∀ s : State, s.port.held = false → ∃ t u, exec .holdReleased s = .next t
      ∧ t.port.last = .ok
      ∧ u = s.setBid { s.bid with hold := { s.bid.hold with operator := false } }
      ∧ KeepsSettled u t ∧ SameBut (.port :: settlingBlocks) s t) ∧
  (∀ s : State, s.port.held = false → s.station = .joining ∨ s.station = .active →
    ∃ t, exec .purgeCommand s = .next t
      ∧ t.port.last = (if s.takesFirst = true then .ok else .full)
      ∧ (s.roomFirst → t.port.last = .ok ∧ Entry.fresh .purge ∈ t.link.outbox ∧ t.fifo = s.fifo)
      ∧ t.track.records = s.track.records
      ∧ SameBut ([.port, .fifo] ++ settlingBlocks) s t) ∧
  (∀ s : State, s.port.held = false → s.station = .setup ∨ s.station = .fault →
    ∃ t, exec .purgeCommand s = .next t ∧ t.port.last = .wrongState ∧ SameBut [.port] s t)

/-- The reads: the reply is the result byte and the record asked for, or NOT FOUND alone; 19 bytes for an event, 27 for
a track record, 19 for a peer entry and 114 for the station detail. Each field of a record stands at the offset of
section 11.5, in its coding. MISO shows the status word captured when CS fell, a zero in the turnaround, the reply, and
zeros after it; it is undriven while the RESET pin is asserted. A read changes the port alone (R56, R175, R176, R177,
R178, R179, R188, R193). The TTL is shown in milliseconds rounded up, log 20. The TT of an open stray is that of the
high-water count, log 30. What the role does not use shows its reset value, the lead among it (R9). -/
def Obligations.ReadsShowRecords : Prop :=
  (∀ (s : State) (c : Instr) (record : Option (List Byte)) (n : Nat), s.port.held = false →
    (∃ k : Byte, c = .readEvent k ∧ record = (s.fifo.held[k.toNat]?).map eventBytes ∧ n = 19) ∨
      (∃ k : Byte, c = .readTrack k
        ∧ record = (s.track.records[k.toNat]?).map (recordBytes s.line.highWater) ∧ n = 27) ∨
      (∃ k : Byte, c = .readPeer k ∧ record = (s.peer k.toNat).map (peerBytes s.now) ∧ n = 19) ∨
      (c = .readStation ∧ record = some s.stationBytes ∧ n = 114) →
    ∃ t, exec c s = .next t
      ∧ (∀ l, record = some l →
          t.port = { cut := false, last := .ok, status := s.shownWord, reply := 0 :: l, captured := none
                     held := false }
            ∧ t.port.reply.length = n)
      ∧ (record = none →
          t.port = { cut := false, last := .notFound, status := s.shownWord, reply := [5], captured := none
                     held := false })
      ∧ SameBut [.port] s t) ∧
  (∀ s : State, (s.port.held = true → ∀ j, s.miso j = none) ∧
    (s.port.held = false → s.miso 0 = some (s.port.status.extractLsb' 8 8)
      ∧ s.miso 1 = some (s.port.status.extractLsb' 0 8)
      ∧ (s.port.reply ≠ [] → s.miso 2 = some 0 ∧ ∀ j, s.miso (3 + j) = some ((s.port.reply[j]?).getD 0)))) ∧
  (∀ (h : HeldEvent) (e : Event) (l : List Byte), h.event = e → l = eventBytes h →
    l.length = 18 ∧ twoAt l 0 = h.seq ∧ byteAt l 2 = BitVec.ofNat 8 e.kind.code
      ∧ byteAt l 3 = BitVec.ofNat 8 (e.tag.isSome.toNat + 2 * e.article.isSome.toNat + 4 * e.lot.isSome.toNat
          + 8 * e.a.isSome.toNat + 16 * e.b.isSome.toNat + 32 * e.code.isSome.toNat)
      ∧ byteAt l 4 = BitVec.ofNat 8 (e.code.getD 0)
      ∧ byteAt l 5 = (e.tag.map Tag.owner).getD 0 ∧ byteAt l 6 = (e.tag.map Tag.seq).getD 0
      ∧ byteAt l 7 = BitVec.ofNat 8 (e.article.getD 0) ∧ twoAt l 8 = BitVec.ofNat 16 (e.lot.getD 0)
      ∧ fourAt l 10 = BitVec.ofInt 32 (e.a.getD 0) ∧ fourAt l 14 = BitVec.ofInt 32 (e.b.getD 0)) ∧
  ([EventKind.reversed, .trackFull, .lost, .beaten, .recalled, .fired, .confirmed, .voided, .unconfirmed, .unloaded,
      .widthUnmeasured, .jam, .jamHeld, .jamReleased, .stackClosed, .diverted, .shortGap, .foldOverrun, .msgDropped,
      .lineDown, .lineUp, .fault, .purged, .peerJoined, .peerSilent, .peerMismatch, .active, .left].map EventKind.code
    = (List.range 28).map (fun i => i + 1)) ∧
  (∀ (hw : Count) (r : Record) (l : List Byte), l = recordBytes hw r →
    l.length = 26 ∧ descAt l = r.desc.wire ∧ fourAt l 13 = r.tl
      ∧ fourAt l 17 = plus r.tl (match r.openFrom with
          | some f => max 1 (min 18000 (signedDiff hw f))
          | none => (r.measured.getD r.desc.length : Nat))
      ∧ byteAt l 21 = (match r.state with | .bid => 1 | .seen => 2 | .spacer => 3 | .stray => 4)
      ∧ byteAt l 22 = BitVec.ofNat 8 (r.missed.toNat + 2 * r.own.toNat + 4 * r.passed.toNat
          + 8 * r.measured.isSome.toNat + 16 * r.openFrom.isSome.toNat)
      ∧ byteAt l 23 = BitVec.ofNat 8 r.reporter ∧ twoAt l 24 = BitVec.ofNat 16 (r.measured.getD 0)) ∧
  (∀ (now : Nat) (p : Peer) (f : Hailed) (l : List Byte), l = peerBytes now p → (∀ x, p.hailed = some x → x = f) →
    (p.hailed = none → f = { role := none, lanes := 0, eye := 0, cpm := 0, lineLanes := 0, lotBreak := 0
                             strayGap := 0, settle := 0 }) →
    l.length = 18 ∧ byteAt l 0 = BitVec.ofNat 8 p.number
      ∧ byteAt l 1 = (match p.state with | .present => 1 | .silent => 2 | .mismatch => 3)
      ∧ byteAt l 2 = BitVec.ofNat 8 (p.hailed.isSome.toNat + 2 * p.differs.toNat)
      ∧ byteAt l 3 = (match f.role with | none => 0 | some .feed => 1 | some .throat => 2 | some .outfeed => 3)
      ∧ byteAt l 4 = f.lanes.setWidth 8 ∧ threeAt l 5 = BitVec.ofInt 24 f.eye ∧ twoAt l 8 = BitVec.ofNat 16 f.cpm
      ∧ byteAt l 10 = BitVec.ofNat 8 f.lineLanes ∧ twoAt l 11 = BitVec.ofNat 16 f.lotBreak
      ∧ twoAt l 13 = BitVec.ofNat 16 f.strayGap ∧ byteAt l 15 = BitVec.ofNat 8 f.settle
      ∧ twoAt l 16 = BitVec.ofNat 16 (if p.state = .silent then 0 else (p.ttlEnds - now + 999) / 1000)) ∧
  (∀ (s : State) (l : List Byte), l = s.stationBytes →
    l.length = 113 ∧ byteAt l 0 = (match s.station with | .setup => 0 | .joining => 1 | .active => 2 | .fault => 3)
      ∧ byteAt l 1 = (match s.role with | .feed => 1 | .throat => 2 | .outfeed => 3)
      ∧ byteAt l 2 = BitVec.ofNat 8 s.number ∧ fourAt l 3 = s.line.count ∧ fourAt l 7 = s.line.highWater
      ∧ twoAt l 11 = BitVec.ofInt 16 s.line.speed ∧ twoAt l 15 = BitVec.ofNat 16 s.line.slips
      ∧ twoAt l 13 = BitVec.ofNat 16 (if s.role = .feed then s.line.lead else 0)
      ∧ byteAt l 17 = BitVec.ofNat 8 (s.bid.hold.operator.toNat + 2 * s.bid.hold.jam.toNat
          + 4 * s.bid.hold.lineDown.toNat + 8 * s.bid.hold.mismatch.toNat + 16 * s.bid.hold.trackFull.toNat)
      ∧ (s.bid.own = none → byteAt l 18 = 0 ∧ twoAt l 19 = 0 ∧ fourAt l 21 = 0)
      ∧ (∀ o, s.bid.own = some o →
          byteAt l 18 = BitVec.ofNat 8 ((match o.state with
            | .queued => 1 | .settling => 2 | .granted => 3 | .fired => 4) + 128 * o.cancelling.toNat)
          ∧ byteAt l 19 = o.desc.tag.owner ∧ byteAt l 20 = o.desc.tag.seq ∧ fourAt l 21 = o.window)
      ∧ byteAt l 25 = BitVec.ofNat 8 s.bid.passedOver ∧ twoAt l 26 = s.bid.deferral
      ∧ byteAt l 28 = (match s.feed.head with | some i => BitVec.ofNat 8 (i.val + 1) | none => 0)
      ∧ (∀ (i : Fin 4) (p : Position), p = s.feed.positions.get i →
          byteAt l (29 + 4 * i.val) = BitVec.ofNat 8 ((match p.state with
            | .empty => 0 | .loaded => 1 | .bidding => 2 | .firing => 3) + 128 * p.unloading.toNat)
          ∧ byteAt l (30 + 4 * i.val) = BitVec.ofNat 8 p.article
          ∧ twoAt l (31 + 4 * i.val) = BitVec.ofNat 16 p.lot)
      ∧ byteAt l 45 = BitVec.ofNat 8 ((s.feed.ready && decide (s.role = .feed)).toNat + 2 * s.feed.grip.toNat
          + 4 * s.feed.drop.toNat + 8 * s.outfeed.strobe.isSome.toNat + 16 * s.outfeed.divert.isSome.toNat
          + 32 * s.throat.relay.toNat)
      ∧ lowAt l 46 = BitVec.ofNat 4 s.outfeed.foldCode
      ∧ (∀ i : Fin 4, (byteAt l 46).getLsbD (4 + i.val) = (s.outfeed.stackChange.get i).isSome)
      ∧ byteAt l 47 = (match s.width.phase with | .idle => 0 | .armed => 1 | .converting => 2 | .resting => 3)
      ∧ twoAt l 48 = BitVec.ofNat 16 (if s.role = .feed then s.width.last else 0)
      ∧ byteAt l 50 = (if s.throat.jammed = true then 1 else 0)
      ∧ (∀ k : Fin 4, fourAt l (51 + 4 * k.val) = (match s.throat.bases.get k with
          | some c => s.line.highWater - c | none => 0))
      ∧ (∀ (i : Fin 4) (x : Stream), x = (if s.role = .outfeed then s.outfeed.streams.get i else Stream.unused) →
          byteAt l (67 + 11 * i.val) = x.lanes.setWidth 8
          ∧ byteAt l (68 + 11 * i.val) = BitVec.ofNat 8 ((x.current.map Prod.fst).getD 0)
          ∧ twoAt l (69 + 11 * i.val) = BitVec.ofNat 16 ((x.current.map Prod.snd).getD 0)
          ∧ byteAt l (71 + 11 * i.val) = BitVec.ofNat 8 x.passed
          ∧ byteAt l (72 + 11 * i.val) = (match x.spacer with | .none => 0 | .requested _ => 1 | .placed _ => 2)
          ∧ twoAt l (73 + 11 * i.val) = (match x.spacer with | .placed t => t.owner ++ t.seq | _ => 0)
          ∧ twoAt l (75 + 11 * i.val) = (match x.spacer with | .requested (some t) => t.owner ++ t.seq | _ => 0)
          ∧ byteAt l (77 + 11 * i.val) = (match x.lastStack with | .none => 0 | .full => 1 | .odd => 2 | .change => 3))
      ∧ byteAt l 111 = BitVec.ofNat 8 s.link.outbox.length
      ∧ byteAt l 112 = BitVec.ofNat 8 (s.link.lastSender.getD 0))

/-- The two moments of a transaction: the fall of CS captures the status word and changes nothing else, and the command
taken shows that word; while the RESET pin is asserted neither is taken (R177, R178; log 26). ACK_EVENTS removes the
held events up to and with the one of its sequence, or answers NOT FOUND, and clears the lost flag either way (R189). A
header that names nothing gives UNKNOWN, but CONFIGURE outside SETUP gives WRONG STATE (R176, R180, log 22). A
transaction that carries fewer bytes than its command needs is cut: CUT is set, and the last result stays; a command
refused by its state needs its header alone (R177); a transaction whose bytes are enough is not this row, log 2. IRQ
follows the fill and the lost flag (R190). The status word holds the station state in its two high bits, then hold, the
fill in six bits, lost, LINE_DOWN, jam, CUT, and the last result in three (R178). -/
def Obligations.PortAcknowledgesAndRefuses : Prop :=
  (∀ (s : State) (c : Instr), hostMoment c = some .falls → s.port.held = false →
    exec c s = .next (s.setPort { s.port with captured := some s.statusWord })) ∧
  (∀ (s : State) (c : Instr) (m : Cs), hostMoment c = some m → s.port.held = true → exec c s = .next s) ∧
  (∀ s : State, s.shownWord = (match s.port.captured with | some w => w | none => s.statusWord)) ∧
  (∀ (s : State) (hi lo : Byte) (rest : List Byte) (older : List HeldEvent) (h : HeldEvent) (younger : List HeldEvent),
    s.port.held = false →
    s.fifo.held = older ++ h :: younger → h.seq = hi ++ lo → (∀ x ∈ older, x.seq ≠ h.seq) →
    ∃ t, exec (.ackEvents (hi :: lo :: rest)) s = .next t
      ∧ t.port.last = .ok ∧ t.fifo = { s.fifo with held := younger, lost := false } ∧ SameBut [.port, .fifo] s t) ∧
  (∀ (s : State) (hi lo : Byte) (rest : List Byte), s.port.held = false → (∀ x ∈ s.fifo.held, x.seq ≠ hi ++ lo) →
    ∃ t, exec (.ackEvents (hi :: lo :: rest)) s = .next t
      ∧ t.port.last = .notFound ∧ t.fifo = { s.fifo with lost := false } ∧ SameBut [.port, .fifo] s t) ∧
  (∀ (s : State) (data : List Byte), s.port.held = false → data.length < 2 →
    ∃ t, exec (.ackEvents data) s = .next t
      ∧ t.port.cut = true ∧ t.port.last = s.port.last ∧ SameBut [.port] s t) ∧
  (∀ (s : State) (command argument : Byte), s.port.held = false → namesNothing command argument = true →
    ∃ t, exec (.unknownCommand command argument) s = .next t
      ∧ t.port.last = (if command = 1 ∧ s.station ≠ .setup then .wrongState else .unknown)
      ∧ t.port.cut = false ∧ SameBut [.port] s t) ∧
  (∀ (s : State) (bytes : List Byte), s.port.held = false →
    ∃ t, exec (.transactionCut bytes) s = .next t ∧ SameBut [.port] s t
      ∧ (if s.cutsShort bytes = true then
          t.port = { s.port with cut := true, status := s.shownWord, reply := [], captured := none }
        else t.port = s.port)) ∧
  (∀ s : State, s.cutsShort [] = true ∧ (∀ c : Byte, s.cutsShort [c] = true) ∧
    ∀ (c a : Byte) (data : List Byte), s.cutsShort (c :: a :: data) = true ↔
      (c = 1 ∧ s.station = .setup ∧ (a = 0x80 ∧ data.length < 26 ∨ a = 0x81 ∧ data.length < 17
          ∨ 1 ≤ a.toNat ∧ a.toNat ≤ 63 ∧ data.length < 14)) ∨
        (c = 5 ∧ s.role = .feed ∧ (s.station = .joining ∨ s.station = .active) ∧ data.length < 3) ∨
        (c = 10 ∧ data.length < 2)) ∧
  (∀ s : State, s.irq = true ↔ s.store.station.watermark ≤ s.fifo.held.length ∨ s.fifo.lost = true) ∧
  (∀ (s : State) (w : BitVec 16), w = s.statusWord → s.fifo.held.length ≤ 32 →
    w.extractLsb' 14 2 = (match s.station with | .setup => 0 | .joining => 1 | .active => 2 | .fault => 3)
      ∧ (w.getLsbD 13 = true ↔ s.bid.hold ≠ HoldSet.empty)
      ∧ (w.extractLsb' 7 6).toNat = s.fifo.held.length
      ∧ w.getLsbD 6 = s.fifo.lost ∧ w.getLsbD 5 = s.bid.hold.lineDown
      ∧ (w.getLsbD 4 = true ↔ s.throat.jammed = true ∨ s.bid.jamming ≠ 0)
      ∧ w.getLsbD 3 = s.port.cut
      ∧ w.extractLsb' 0 3 = (match s.port.last with
          | .ok => 0 | .clamped => 1 | .wrongState => 2 | .full => 3 | .badArticle => 4 | .notFound => 5
          | .tooLate => 6 | .unknown => 7))

/-- RESET and FULL_RESET put the whole part in the state after full reset; the commands that wait and the level of the
READY pin stand outside it (log 36). The header of RESET has shown the status word (R178). While the pin is asserted the
part stays in full reset: the port takes no transaction, and no other command moves anything but the level of READY
(R177, R194; that time stands too is log 36). That state is safe: every capacity is kept and every cause is held for its
reason (R185). -/
def Obligations.ResetRestoresAll : Prop :=
  (∀ (s : State), s.port.held = false →
    exec .reset s = .next { State.reset with
      feed := { FeedSequencer.reset with ready := s.feed.ready }
      port := { LocalPort.reset with status := s.shownWord }, pending := s.pending }) ∧
  (∀ (s : State) (asserted : Bool),
    exec (.fullReset asserted) s = .next { State.reset with
      feed := { FeedSequencer.reset with ready := s.feed.ready }
      port := { LocalPort.reset with held := asserted }, pending := s.pending }) ∧
  (∀ s t : State, exec (.fullReset true) s = .next t → t.inReset) ∧
  (∀ (s : State) (c : Instr), s.inReset → (∀ asserted, c ≠ .fullReset asserted) →
    exec c s = .next (s.setFeed { s.feed with ready :=
      match c with | .readyRise => true | .readyFall => false | _ => s.feed.ready })) ∧
  (∀ s : State, s.inReset → s.pending = [] → step s = .next s) ∧
  State.reset.safe

/-! ## Encodings -/

/-- A description, a throat distance and the figures of a HAIL come back from their bytes: the 13 bytes of a wire
description hold it, whatever follows them; a description within the bounds of R26 reads back as itself; the distance
that R153 writes is read back by the payload's reader; and the figures of a HAIL within their widths read back (R26,
R153, R164, R193). -/
def Obligations.DescriptionRoundTrip : Prop :=
  (∀ (w : WireDesc) (rest : List Byte), (descBytes w).length = 13 ∧ descAt (descBytes w ++ rest) = w) ∧
  (∀ (lines : Lanes) (d : Desc), 1 ≤ d.tag.owner.toNat → d.tag.owner.toNat ≤ 15 → d.lanes ≠ 0 →
    d.lanes &&& ~~~lines = 0 → 1 ≤ d.length → d.length ≤ 18000 → d.lead ≤ 12000 → d.trail ≤ 12000 →
    d.article ≤ 63 → d.lot < 65536 → (d.kind = .stray → d.reject = .stray) → readDesc lines d.wire = some d) ∧
  (∀ (w : WireDesc) (n : Int) (m : Nat) (rest : List Byte), -8388607 ≤ n → n ≤ 8388607 → m < 65536 →
    (placedAt (descBytes w ++ beSigned 3 n ++ rest)).desc = w
      ∧ (placedAt (descBytes w ++ beSigned 3 n ++ rest)).distance.toInt = n
      ∧ measuredAt (descBytes w ++ beSigned 3 n ++ be 2 m) = m) ∧
  (∀ h : Hailed, h.role ≠ none → -8388608 ≤ h.eye → h.eye < 8388608 → h.cpm < 65536 → h.lineLanes < 256 →
    h.lotBreak < 65536 → h.strayGap < 65536 → h.settle < 256 →
    (hailBytes h).length = 13 ∧ readHail (hailAt (hailBytes h)) = h)

/-- The frame check: the frame of every message of a station 1 to 15 is judged undamaged and has the length its kind
gives; and an undamaged frame in which one byte of the payload or the CRC is another is judged damaged (R145, R146,
R147, R149). -/
def Obligations.FrameCheckFindsDamage : Prop :=
  (∀ (f : Figures) (count : Count) (m : Msg) (n : Nat), 1 ≤ n → n ≤ 15 →
    judge ((frameOf m.kind n (m.payload f count)).map (fun b => (b, true))) = none
      ∧ (frameOf m.kind n (m.payload f count)).length = payloadLength m.kind + 5) ∧
  (∀ (before after : List Byte) (b b' : Byte), 3 ≤ before.length → b' ≠ b →
    judge ((before ++ b :: after).map (fun x => (x, true))) = none →
    (∃ k, (before ++ b :: after).length = payloadLength k + 5 ∧
      before[1]?.map (fun x => x.toNat / 16) = some (kindValue k)) →
    judge ((before ++ b' :: after).map (fun x => (x, true))) ≠ none)

/-! ## Invariants every step keeps -/

/-- The valves: from every state in which GRIP and DROP stand as the fire sequence gives, a step leads to such a state;
so GRIP and DROP are never both on (R112, R113, R114). -/
def Obligations.ValvesStaySafe : Prop :=
  (∀ s t : State, s.feed.valvesSafe → step s = .next t → t.feed.valvesSafe) ∧
  (∀ f : FeedSequencer, f.valvesSafe → ¬ (f.grip = true ∧ f.drop = true))

/-- The event FIFO: every step keeps at most 32 events, with consecutive sequences up to the counter (R184). -/
def Obligations.EventFifoStaysOrdered : Prop :=
  ∀ s t : State, s.fifo.ordered → step s = .next t → t.fifo.ordered

/-- The track list: every step keeps at most 64 records, and no tag twice (R32). -/
def Obligations.TrackListStaysWithin : Prop :=
  ∀ s t : State, s.track.within → step s = .next t → t.track.within

/-- The hold set: at a station numbered 1 to 15, every step keeps the JAM cause with the jamming set and the MISMATCH
cause with the MISMATCH entries (R80, R169). -/
def Obligations.HoldSetFollowsCauses : Prop :=
  ∀ s t : State, s.holdFollows → s.numbered → step s = .next t → t.holdFollows ∧ t.numbered

/-- Every step keeps the outbox within eight entries, six of classes 1 to 3 and one SENDING, the line counter's figures
within their ranges, and the passed-over count within its limit (R2, R8, R9, R99, R154). -/
def Obligations.CapacitiesKept : Prop :=
  (∀ s t : State, s.link.within → step s = .next t → t.link.within) ∧
  (∀ s t : State, s.line.within → step s = .next t → t.line.within) ∧
  (∀ s t : State, s.passedWithin → step s = .next t → t.passedWithin)
end

