-- ==== Sys2Proof/Laws/Frames.lean ====
section
/-! SUPPORT. What each shared operation can touch, said once: a `SameBut` lemma per operation. -/

namespace Sys2Proof.Machine

theorem SameBut.refl (l : List Block) (s : State) : SameBut l s s := fun b _ => by cases b <;> rfl

theorem Block.same_trans {b : Block} {s t u : State} (h : b.same s t) (k : b.same t u) : b.same s u := by
  cases b <;> exact Eq.trans k h

theorem SameBut.trans {l : List Block} {s t u : State} (h : SameBut l s t) (k : SameBut l t u) : SameBut l s u :=
  fun b hb => Block.same_trans (h b hb) (k b hb)

theorem SameBut.widen {l m : List Block} {s t : State} (h : SameBut l s t) (hl : ∀ b ∈ l, b ∈ m) : SameBut m s t :=
  fun b hb => h b (fun hc => hb (hl b hc))

/-- A frame followed by another, both inside a third. -/
theorem SameBut.then {l m n : List Block} {s t u : State} (h : SameBut l s t) (k : SameBut m t u)
    (hl : ∀ b ∈ l, b ∈ n) (hm : ∀ b ∈ m, b ∈ n) : SameBut n s u :=
  (h.widen hl).trans (k.widen hm)

theorem SameBut.ite {l : List Block} {s t u : State} {p : Prop} [Decidable p] (h : SameBut l s t) (k : SameBut l s u) :
    SameBut l s (if p then t else u) := by
  split
  · exact h
  · exact k

/-- A fold of an operation that keeps a frame keeps it. -/
theorem SameBut.foldl {α : Type} {l : List Block} (f : State → α → State) (h : ∀ s a, SameBut l s (f s a)) :
    ∀ (as : List α) (s : State), SameBut l s (as.foldl f s)
  | [], s => SameBut.refl l s
  | a :: as, s => (h s a).trans (SameBut.foldl f h as (f s a))

theorem setStation_frame (s : State) (x : StationState) : SameBut [.station] s (s.setStation x) :=
  fun b hb => by cases b <;> first | rfl | exact absurd (List.mem_singleton.mpr rfl) hb

theorem setLeaving_frame (s : State) (x : Bool) : SameBut [.leaving] s (s.setLeaving x) :=
  fun b hb => by cases b <;> first | rfl | exact absurd (List.mem_singleton.mpr rfl) hb

theorem setNow_frame (s : State) (x : Nat) : SameBut [.now] s (s.setNow x) :=
  fun b hb => by cases b <;> first | rfl | exact absurd (List.mem_singleton.mpr rfl) hb

theorem setStore_frame (s : State) (x : Store) : SameBut [.store] s (s.setStore x) :=
  fun b hb => by cases b <;> first | rfl | exact absurd (List.mem_singleton.mpr rfl) hb

theorem setRun_frame (s : State) (x : Figures) : SameBut [.run] s (s.setRun x) :=
  fun b hb => by cases b <;> first | rfl | exact absurd (List.mem_singleton.mpr rfl) hb

theorem setLine_frame (s : State) (x : LineCounter) : SameBut [.line] s (s.setLine x) :=
  fun b hb => by cases b <;> first | rfl | exact absurd (List.mem_singleton.mpr rfl) hb

theorem setTrack_frame (s : State) (x : TrackList) : SameBut [.track] s (s.setTrack x) :=
  fun b hb => by cases b <;> first | rfl | exact absurd (List.mem_singleton.mpr rfl) hb

theorem setEye_frame (s : State) (x : EyeUnit) : SameBut [.eye] s (s.setEye x) :=
  fun b hb => by cases b <;> first | rfl | exact absurd (List.mem_singleton.mpr rfl) hb

theorem setBid_frame (s : State) (x : BidEngine) : SameBut [.bid] s (s.setBid x) :=
  fun b hb => by cases b <;> first | rfl | exact absurd (List.mem_singleton.mpr rfl) hb

theorem setFeed_frame (s : State) (x : FeedSequencer) : SameBut [.feed] s (s.setFeed x) :=
  fun b hb => by cases b <;> first | rfl | exact absurd (List.mem_singleton.mpr rfl) hb

theorem setWidth_frame (s : State) (x : WidthSampler) : SameBut [.width] s (s.setWidth x) :=
  fun b hb => by cases b <;> first | rfl | exact absurd (List.mem_singleton.mpr rfl) hb

theorem setThroat_frame (s : State) (x : ThroatMonitor) : SameBut [.throat] s (s.setThroat x) :=
  fun b hb => by cases b <;> first | rfl | exact absurd (List.mem_singleton.mpr rfl) hb

theorem setOutfeed_frame (s : State) (x : OutfeedDirector) : SameBut [.outfeed] s (s.setOutfeed x) :=
  fun b hb => by cases b <;> first | rfl | exact absurd (List.mem_singleton.mpr rfl) hb

theorem setLink_frame (s : State) (x : LinkController) : SameBut [.link] s (s.setLink x) :=
  fun b hb => by cases b <;> first | rfl | exact absurd (List.mem_singleton.mpr rfl) hb

theorem setPeers_frame (s : State) (x : PeerTable) : SameBut [.peers] s (s.setPeers x) :=
  fun b hb => by cases b <;> first | rfl | exact absurd (List.mem_singleton.mpr rfl) hb

theorem setPort_frame (s : State) (x : LocalPort) : SameBut [.port] s (s.setPort x) :=
  fun b hb => by cases b <;> first | rfl | exact absurd (List.mem_singleton.mpr rfl) hb

theorem setFifo_frame (s : State) (x : EventFifo) : SameBut [.fifo] s (s.setFifo x) :=
  fun b hb => by cases b <;> first | rfl | exact absurd (List.mem_singleton.mpr rfl) hb

theorem setPending_frame (s : State) (x : List Instr) : SameBut [.pending] s (s.setPending x) :=
  fun b hb => by cases b <;> first | rfl | exact absurd (List.mem_singleton.mpr rfl) hb

theorem raise_frame (e : Event) (s : State) : SameBut [.fifo] s (raise e s) := setFifo_frame _ _

theorem advanceTo_frame (t : Nat) (s : State) : SameBut [.now, .line] s (advanceTo t s) :=
  SameBut.ite (SameBut.refl _ s) ((setNow_frame s t).then (setLine_frame _ _) (by decide) (by decide))

theorem setOutbox_frame (l : List Entry) (s : State) : SameBut [.link] s (s.setOutbox l) := setLink_frame _ _

theorem setPosition_frame (s : State) (i : Fin 4) (p : Position) : SameBut [.feed] s (s.setPosition i p) :=
  setFeed_frame _ _

theorem setRecords_frame (s : State) (l : List Record) : SameBut [.track] s (s.setRecords l) := setTrack_frame _ _

theorem setStream_frame (s : State) (i : Fin 4) (x : Stream) : SameBut [.outfeed] s (s.setStream i x) :=
  setOutfeed_frame _ _

theorem unloadPosition_frame (i : Fin 4) (tag : Option Tag) (s : State) :
    SameBut [.feed, .fifo] s (unloadPosition i tag s) :=
  (setPosition_frame s i .none).then (raise_frame _ _) (by decide) (by decide)

theorem returnPosition_frame (i : Fin 4) (s : State) : SameBut [.feed] s (returnPosition i s) := setFeed_frame _ _

theorem releasePosition_frame (o : OwnBid) (s : State) : SameBut [.feed, .fifo] s (releasePosition o s) := by
  unfold releasePosition
  dsimp only
  split
  · split
    · exact unloadPosition_frame _ _ _
    · exact (returnPosition_frame _ _).widen (by decide)
  · exact SameBut.refl _ s

theorem endOwn_frame (s : State) : SameBut [.bid, .feed, .fifo] s (endOwn s) := by
  unfold endOwn
  split
  · exact SameBut.refl _ s
  · exact (setBid_frame _ _).then (releasePosition_frame _ _) (by decide) (by decide)

theorem handDropped_frame (m : Msg) (s : State) : SameBut [.bid, .feed, .fifo] s (handDropped m s) := by
  unfold handDropped
  split
  · split
    · exact (endOwn_frame s).then (raise_frame _ _) (by decide) (by decide)
    · exact SameBut.refl _ s
  · exact SameBut.refl _ s

theorem enqueueFirst_frame (m : Msg) (s : State) : SameBut [.bid, .feed, .link, .fifo] s (enqueueFirst m s) := by
  unfold enqueueFirst
  dsimp only
  split
  · exact (setOutbox_frame _ _).widen (by decide)
  · split
    · exact (setOutbox_frame _ _).widen (by decide)
    · split
      · exact (SameBut.then (setOutbox_frame _ _) (raise_frame _ _) (n := [.link, .fifo]) (by decide) (by decide)).then
          (handDropped_frame _ _) (by decide) (by decide)
      · exact (raise_frame _ _).widen (by decide)

/-- Handing a message to the outbox touches the outbox; where a SIGHTING is dropped, the event FIFO, and the bid it
would have confirmed with the position it serves. -/
theorem enqueue_frame (m : Msg) (s : State) : SameBut [.bid, .feed, .link, .fifo] s (enqueue m s) := by
  unfold enqueue
  split
  · exact SameBut.ite ((setOutbox_frame _ _).widen (by decide)) ((setLink_frame _ _).widen (by decide))
  · split
    · exact (setOutbox_frame _ _).widen (by decide)
    · exact (raise_frame _ _).then (handDropped_frame _ _) (by decide) (by decide)
  · split
    · exact (setOutbox_frame _ _).widen (by decide)
    · exact (raise_frame _ _).then (handDropped_frame _ _) (by decide) (by decide)
  · split
    · exact (setOutbox_frame _ _).widen (by decide)
    · exact (raise_frame _ _).then (handDropped_frame _ _) (by decide) (by decide)
  · exact SameBut.ite ((setOutbox_frame _ _).widen (by decide)) (SameBut.refl _ s)
  · exact enqueueFirst_frame m s

theorem planAgain_frame (i : Fin 4) (s : State) : SameBut [.outfeed] s (planAgain i s) := setOutfeed_frame _ _

theorem noteChange_frame (lanes : Lanes) (s : State) : SameBut [.bid, .outfeed] s (noteChange lanes s) := by
  unfold noteChange
  dsimp only
  split
  · exact (setBid_frame _ _).then (planAgain_frame _ _) (by decide) (by decide)
  · exact (setBid_frame _ _).widen (by decide)

theorem discardSighting_frame (tag : Tag) (s : State) : SameBut [.eye, .outfeed] s (discardSighting tag s) :=
  (setEye_frame _ _).then (setOutfeed_frame _ _) (by decide) (by decide)

theorem widthForget_frame (tag : Tag) (s : State) : SameBut [.width] s (widthForget tag s) := setWidth_frame _ _

theorem dropRival_frame (tag : Tag) (s : State) : SameBut [.bid] s (dropRival tag s) := setBid_frame _ _

theorem losePlaced_frame (tag : Tag) (s : State) : SameBut [.outfeed] s (losePlaced tag s) :=
  SameBut.foldl _ (fun t i => by
    dsimp only
    split
    · exact (setStream_frame _ _ _).trans (planAgain_frame _ _)
    · exact SameBut.refl _ t) _ _

theorem relieveTrack_frame (s : State) : SameBut [.bid] s (relieveTrack s) :=
  SameBut.ite (setBid_frame _ _) (SameBut.refl _ s)

theorem forgetTag_frame (tag : Tag) (s : State) : SameBut [.eye, .bid, .width, .outfeed] s (forgetTag tag s) :=
  SameBut.then (SameBut.then (discardSighting_frame tag s) (widthForget_frame tag _) (n := [.eye, .width, .outfeed])
    (by decide) (by decide)) (dropRival_frame tag _) (by decide) (by decide)

/-- The removal of a record touches the list, and the blocks that are handed the removal (R53). -/
theorem dropRecord_frame (tag : Tag) (s : State) :
    SameBut [.track, .eye, .bid, .width, .outfeed] s (dropRecord tag s) := by
  unfold dropRecord
  split
  · exact SameBut.refl _ s
  · refine SameBut.trans ?_ ((noteChange_frame _ _).widen (by decide))
    refine SameBut.trans ?_ ((losePlaced_frame _ _).widen (by decide))
    refine SameBut.trans ?_ ((forgetTag_frame _ _).widen (by decide))
    exact (setRecords_frame _ _).then (relieveTrack_frame _) (by decide) (by decide)

theorem dropOwnRecord_frame (tag : Tag) (s : State) :
    SameBut [.track, .eye, .bid, .width, .outfeed] s (dropOwnRecord tag s) :=
  SameBut.ite (dropRecord_frame tag s) (SameBut.refl _ s)

theorem cancelBid_frame (s : State) : SameBut [.link] s (cancelBid s) := setLink_frame _ _

theorem markCancelling_frame (o : OwnBid) (s : State) : SameBut [.bid, .link] s (markCancelling o s) :=
  (setOutbox_frame _ s).then (setBid_frame _ _) (by decide) (by decide)

/-- A recall touches what a removal touches, the outbox, the clamp position served and the event FIFO (R95). -/
theorem recallOwn_frame (code : Nat) (a : Option Int) (s : State) : SameBut listBlocks s (recallOwn code a s) := by
  unfold recallOwn
  split
  · exact SameBut.refl _ s
  · split
    · split
      · exact SameBut.refl _ s
      · split
        · exact (raise_frame _ s).then (markCancelling_frame _ _) (by decide) (by decide)
        · exact SameBut.then ((raise_frame _ s).then (cancelBid_frame _) (n := [.link, .fifo]) (by decide) (by decide))
            (endOwn_frame _) (by decide) (by decide)
    · refine SameBut.trans ?_ ((raise_frame _ _).widen (by decide))
      refine SameBut.trans ?_ ((endOwn_frame _).widen (by decide))
      exact (enqueue_frame _ s).then (dropOwnRecord_frame _ _) (by decide) (by decide)
    · refine SameBut.trans ?_ ((raise_frame _ _).widen (by decide))
      refine SameBut.trans ?_ ((endOwn_frame _).widen (by decide))
      exact (enqueue_frame _ s).then (dropOwnRecord_frame _ _) (by decide) (by decide)
    · exact SameBut.refl _ s

theorem putHold_frame (c : HoldCause) (x : Bool) (s : State) : SameBut [.bid] s (putHold c x s) := setBid_frame _ _

theorem holdJoin_frame (c : HoldCause) (s : State) : SameBut listBlocks s (holdJoin c s) :=
  SameBut.ite (SameBut.refl _ s) ((putHold_frame c true s).then (recallOwn_frame _ _ _) (by decide) (by decide))

theorem holdLeave_frame (c : HoldCause) (s : State) : SameBut [.bid] s (holdLeave c s) := putHold_frame _ _ _

theorem dropRequest_frame (i : Fin 4) (s : State) : SameBut [.outfeed] s (dropRequest i s) :=
  ((setStream_frame s i _).trans (planAgain_frame i _)).trans (setOutfeed_frame _ _)

theorem endRequest_frame (i : Fin 4) (s : State) : SameBut listBlocks s (endRequest i s) :=
  SameBut.ite (((setBid_frame s _).widen (by decide)).trans (recallOwn_frame _ _ _)) ((setBid_frame s _).widen (by decide))

theorem withdrawSpacer_frame (i : Fin 4) (s : State) : SameBut listBlocks s (withdrawSpacer i s) :=
  SameBut.ite (((dropRequest_frame i s).widen (by decide)).trans (endRequest_frame i _))
    ((dropRequest_frame i s).widen (by decide))

theorem endPieceGone_frame (tag : Tag) (s : State) : SameBut listBlocks s (endPieceGone tag s) :=
  SameBut.foldl _ (fun t i => SameBut.ite (withdrawSpacer_frame i t) (SameBut.refl _ t)) _ _

theorem removeRecord_frame (tag : Tag) (s : State) : SameBut listBlocks s (removeRecord tag s) :=
  (dropRecord_frame tag s).then (endPieceGone_frame tag _) (by decide) (by decide)

theorem unconfirm_frame (tag : Tag) (code : Nat) (s : State) :
    SameBut [.bid, .feed, .fifo] s (unconfirm tag code s) :=
  SameBut.ite ((endOwn_frame s).then (raise_frame _ _) (by decide) (by decide)) (SameBut.refl _ s)

theorem recheck_frame (tag : Tag) (s : State) : SameBut listBlocks s (recheck tag s) := by
  unfold recheck
  split
  · split
    · exact recallOwn_frame _ _ _
    · exact SameBut.refl _ s
  · exact SameBut.refl _ s

theorem putRecord_frame (r : Record) (s : State) : SameBut listBlocks s (putRecord r s) :=
  SameBut.trans (SameBut.then (setRecords_frame s _) (noteChange_frame _ _) (by decide) (by decide)) (recheck_frame _ _)

theorem changeRecord_frame (old r : Record) (s : State) : SameBut listBlocks s (changeRecord old r s) := by
  have h := (setRecords_frame s (replaceRecord r s.track.records)).widen (m := listBlocks) (by decide)
  have k := SameBut.ite (p := old.altered s.line.highWater r = true)
    (h.trans ((noteChange_frame r.desc.lanes _).widen (by decide))) h
  exact SameBut.ite (k.trans (recheck_frame _ _)) k

theorem insertNew_frame (r : Record) (s : State) : SameBut listBlocks s (insertNew r s) :=
  SameBut.trans (SameBut.then (setRecords_frame s _) (noteChange_frame _ _) (by decide) (by decide)) (recheck_frame _ _)

theorem replaceWhole_frame (old r : Record) (s : State) : SameBut listBlocks s (replaceWhole old r s) :=
  SameBut.trans (SameBut.trans (SameBut.then (noteChange_frame _ s) (forgetTag_frame _ _) (by decide) (by decide))
    (endPieceGone_frame _ _)) (putRecord_frame _ _)

theorem overflow_frame (d : Desc) (source : Nat) (s : State) : SameBut listBlocks s (overflow d source s) :=
  SameBut.ite (SameBut.refl _ s) (((raise_frame _ s).widen (by decide)).trans (holdJoin_frame _ _))

/-- Filing a record touches the list and what a change of it reaches (R53). -/
theorem fileRecord_frame (r : Record) (source : Nat) (s : State) : SameBut listBlocks s (fileRecord r source s) := by
  unfold fileRecord
  split
  · exact replaceWhole_frame _ _ _
  · exact SameBut.ite (insertNew_frame _ _) (overflow_frame _ _ _)

/-! ## The end of a step -/

theorem planStream_frame (i : Fin 4) (s : State) : SameBut [.outfeed] s (planStream i s) := by
  unfold planStream
  split
  · exact (setStream_frame _ _ _).trans (setOutfeed_frame _ _)
  · exact SameBut.refl _ s

theorem planStreams_frame (s : State) : SameBut [.outfeed] s (planStreams s) :=
  SameBut.ite (SameBut.refl _ s)
    (SameBut.foldl _ (fun t i => SameBut.ite (planStream_frame i t) (SameBut.refl _ t)) _ _)

theorem handRequest_frame (s : State) : SameBut [.bid, .outfeed] s (handRequest s) := by
  unfold handRequest
  split
  · exact (setOutfeed_frame _ _).then (setBid_frame _ _) (by decide) (by decide)
  · exact SameBut.refl _ s

theorem takeTag_frame (s : State) : SameBut [.track] s (takeTag s) := setTrack_frame _ _

theorem markBidding_frame (t : Target) (s : State) : SameBut [.feed] s (markBidding t s) := by
  unfold markBidding
  split
  · exact setPosition_frame _ _ _
  · exact SameBut.refl _ s

/-- A BID is never dropped by the outbox, so handing one over touches the outbox alone (R155). -/
theorem enqueue_bid_frame (d : Desc) (tl : Count) (s : State) : SameBut [.link] s (enqueue (.bid d tl) s) :=
  SameBut.ite (setOutbox_frame _ _) (setLink_frame _ _)

theorem queueBid_frame (t : Target) (w : Count) (s : State) :
    SameBut [.track, .bid, .feed, .link] s (queueBid t w s) := by
  unfold queueBid
  refine SameBut.trans ?_ ((enqueue_bid_frame _ _ _).widen (by decide))
  refine SameBut.trans ?_ ((setBid_frame _ _).widen (by decide))
  exact (takeTag_frame s).then (markBidding_frame _ _) (by decide) (by decide)

theorem search_frame (t : Target) (s : State) : SameBut [.track, .bid, .feed, .link] s (search t s) := by
  unfold search
  split
  · exact queueBid_frame _ _ _
  · exact (setBid_frame _ _).widen (by decide)

theorem reconsider_frame (s : State) : SameBut [.track, .bid, .feed, .link] s (reconsider s) := by
  unfold reconsider
  split
  · exact SameBut.ite (search_frame _ _) (SameBut.refl _ s)
  · exact (setBid_frame _ _).widen (by decide)

theorem clearMarks_frame (s : State) : SameBut [.bid, .outfeed] s (clearMarks s) :=
  (setBid_frame s _).then (setOutfeed_frame _ _) (by decide) (by decide)

/-- The end of a step touches the tag counter, the bid engine, the head's position, the requests and the outbox. -/
theorem finish_frame (s : State) : SameBut settlingBlocks s (finish s) := by
  unfold finish
  refine SameBut.trans ?_ ((clearMarks_frame _).widen (by decide))
  refine SameBut.trans ?_ ((reconsider_frame _).widen (by decide))
  exact (planStreams_frame s).then (handRequest_frame _) (by decide) (by decide)

/-! ## What holds an operation back -/

/-- Outside the asserted RESET pin the operation acts; under it nothing moves. -/
theorem outsideReset_cases (effect : State → State) (s : State) :
    (s.port.held = true ∧ outsideReset effect s = s) ∨ (s.port.held = false ∧ outsideReset effect s = effect s) := by
  cases h : s.port.held <;> simp [outsideReset, h]

/-- A station that follows the line takes a frame exactly where `State.takes` says so (R145, R149, R150). -/
theorem tookFrame_iff (s : State) (k : MsgKind) (time : Nat) (h : s.running) :
    s.tookFrame k time = true ↔ s.takes k time := by
  have hf : frameTime k = 20 * (payloadLength k + 5) + 20 := rfl
  have hr : (s.station != .setup) = true := bne_iff_ne.2 h
  unfold State.tookFrame State.takesFrame
  rw [hr, Bool.true_and, Bool.and_eq_true, Bool.and_eq_true, Bool.or_eq_true, decide_eq_true_iff, decide_eq_true_iff,
    decide_eq_true_iff, Option.isNone_iff_eq_none]
  constructor
  · rintro ⟨hk, hl, hs⟩
    exact ⟨time - frameTime k, by omega, hl, hs⟩
  · rintro ⟨start, ht, hl, hs⟩
    have e : time - frameTime k = start := by omega
    exact ⟨by omega, by omega, by rwa [e]⟩

end Sys2Proof.Machine
end

