-- ==== Sys2Proof/Laws/Settling.lean ====
section
/-! SUPPORT. What the end of a step leaves alone, said once: `finish_keeps`, and `finish_idle` for a station that is not
eligible. -/

namespace Sys2Proof.Machine

theorem KeepsSettled.refl (s : State) : KeepsSettled s s := by
  constructor <;> first | rfl | exact fun _ h => h | exact ⟨[], (List.append_nil _).symm, by simp [freshBids]⟩

theorem KeepsSettled.trans {s t u : State} (h : KeepsSettled s t) (k : KeepsSettled t u) : KeepsSettled s u where
  records := k.records.trans h.records
  free := k.free.trans h.free
  hold := k.hold.trans h.hold
  passedOver := k.passedOver.trans h.passedOver
  jamming := k.jamming.trans h.jamming
  deferral := k.deferral.trans h.deferral
  own := fun o ho => k.own o (h.own o ho)
  ready := k.ready.trans h.ready
  grip := k.grip.trans h.grip
  drop := k.drop.trans h.drop
  fire := k.fire.trans h.fire
  lastFilled := k.lastFilled.trans h.lastFilled
  returned := k.returned.trans h.returned
  strobe := k.strobe.trans h.strobe
  divert := k.divert.trans h.divert
  stackChange := k.stackChange.trans h.stackChange
  foldCode := k.foldCode.trans h.foldCode
  foldQueue := k.foldQueue.trans h.foldQueue
  underEye := k.underEye.trans h.underEye
  quiet := k.quiet.trans h.quiet
  frame := k.frame.trans h.frame
  lastSender := k.lastSender.trans h.lastSender
  health := k.health.trans h.health
  spoil := k.spoil.trans h.spoil
  listenFrom := k.listenFrom.trans h.listenFrom
  began := k.began.trans h.began
  outbox := by
    obtain ⟨l, hl, hs⟩ := h.outbox
    obtain ⟨m, hm, ht⟩ := k.outbox
    exact ⟨l ++ m, by rw [hm, hl, List.append_assoc], fun e he => (List.mem_append.mp he).elim (hs e) (ht e)⟩

theorem planStream_keeps (i : Fin 4) (s : State) : KeepsSettled s (planStream i s) := by
  unfold planStream
  split
  · constructor <;> first | rfl | exact fun _ h => h | exact ⟨[], (List.append_nil _).symm, by simp [freshBids]⟩
  · exact KeepsSettled.refl s

theorem planStreams_keeps (s : State) : KeepsSettled s (planStreams s) := by
  have fold : ∀ (l : List (Fin 4)) (t : State), KeepsSettled t
      (l.foldl (fun t i => if hasLane s.outfeed.planDue i then planStream i t else t) t) := by
    intro l
    induction l with
    | nil => exact KeepsSettled.refl
    | cons i l ih =>
      intro t
      refine KeepsSettled.trans ?_ (ih _)
      dsimp only
      split
      · exact planStream_keeps i t
      · exact KeepsSettled.refl t
  unfold planStreams
  split
  · exact KeepsSettled.refl s
  · exact fold _ s

theorem handRequest_keeps (s : State) : KeepsSettled s (handRequest s) := by
  unfold handRequest
  split
  · constructor <;> first | rfl | exact fun _ h => h | exact ⟨[], (List.append_nil _).symm, by simp [freshBids]⟩
  · exact KeepsSettled.refl s

theorem clearMarks_keeps (s : State) : KeepsSettled s (clearMarks s) := by
  constructor <;> first | rfl | exact fun _ h => h | exact ⟨[], (List.append_nil _).symm, by simp [freshBids]⟩

/-- What an eligible station is (R78). -/
theorem State.eligible_spec {s : State} {t : Target} (h : s.eligible = some t) :
    s.station = .active ∧ s.bid.hold.any = false ∧ s.bid.own = none := by
  unfold State.eligible at h
  split at h
  · assumption
  · cases h

theorem queueBid_keeps (t : Target) (w : Count) (s : State) (h : s.bid.own = none) : KeepsSettled s (queueBid t w s) := by
  unfold queueBid enqueue markBidding
  cases t <;> dsimp only [Msg.kind] <;> split <;> constructor <;>
    first
      | rfl
      | exact fun o k => absurd (h.symm.trans k) (by simp)
      | exact ⟨_, rfl, fun e he => ⟨_, _, List.mem_singleton.mp he⟩⟩
      | exact ⟨[], (List.append_nil _).symm, by simp [freshBids]⟩

theorem reconsider_keeps (s : State) : KeepsSettled s (reconsider s) := by
  unfold reconsider search
  split
  · rename_i t h
    split
    · split
      · exact queueBid_keeps _ _ _ (State.eligible_spec h).2.2
      · constructor <;> first | rfl | exact fun _ h => h | exact ⟨[], (List.append_nil _).symm, by simp [freshBids]⟩
    · exact KeepsSettled.refl s
  · constructor <;> first | rfl | exact fun _ h => h | exact ⟨[], (List.append_nil _).symm, by simp [freshBids]⟩

/-- The end of a step keeps the records, the hold set, a held own bid, the outputs and the outbox's entries. -/
theorem finish_keeps (s : State) : KeepsSettled s (finish s) :=
  (((planStreams_keeps s).trans (handRequest_keeps _)).trans (reconsider_keeps _)).trans (clearMarks_keeps _)

theorem handRequest_own (s : State) : (handRequest s).bid.own = s.bid.own ∧ (handRequest s).bid.rivals = s.bid.rivals := by
  unfold handRequest
  split <;> exact ⟨rfl, rfl⟩

/-- A station that is not ACTIVE, is held, or has an own bid: the end of the step queues no BID. -/
theorem finish_idle (s : State)
    (h : ¬ (s.station = .active ∧ s.bid.hold.any = false ∧ s.bid.own = none)) :
    (finish s).bid.own = s.bid.own ∧ (finish s).bid.rivals = s.bid.rivals ∧ (finish s).bid.retry = none
      ∧ SameBut [.bid, .outfeed] s (finish s) := by
  have p := planStreams_frame s
  have q := handRequest_frame (planStreams s)
  have pb : (planStreams s).bid = s.bid := p .bid (by decide)
  have hs : (handRequest (planStreams s)).station = s.station :=
    (q .station (by decide)).trans (p .station (by decide))
  have ho := handRequest_own (planStreams s)
  rw [pb] at ho
  have hh : (handRequest (planStreams s)).bid.hold = s.bid.hold := by rw [(handRequest_keeps _).hold, pb]
  have e : (handRequest (planStreams s)).eligible = none := by
    cases he : (handRequest (planStreams s)).eligible with
    | none => rfl
    | some t =>
      have k := State.eligible_spec he
      rw [hs, hh, ho.1] at k
      exact absurd k h
  have r : reconsider (handRequest (planStreams s)) = (handRequest (planStreams s)).setBid
      { (handRequest (planStreams s)).bid with retry := none } := by
    unfold reconsider
    rw [e]
  have f : finish s = clearMarks ((handRequest (planStreams s)).setBid
      { (handRequest (planStreams s)).bid with retry := none }) := by
    unfold finish
    rw [r]
  rw [f]
  refine ⟨ho.1, ho.2, rfl, ?_⟩
  refine SameBut.trans ?_ (clearMarks_frame _)
  refine SameBut.trans ?_ ((setBid_frame _ _).widen (by decide))
  exact (p.widen (by decide)).trans q

end Sys2Proof.Machine
end

