-- ==== Sys2Proof/Laws/State.lean ====
section
/-! SUPPORT. One lemma per field per update of State, each true by rfl, so that no proof unfolds a record update. -/

namespace Sys2Proof.Machine

@[simp] theorem State.setStation_station (s : State) (x : StationState) : (s.setStation x).station = x := rfl
@[simp] theorem State.setStation_leaving (s : State) (x : StationState) : (s.setStation x).leaving = s.leaving := rfl
@[simp] theorem State.setStation_now (s : State) (x : StationState) : (s.setStation x).now = s.now := rfl
@[simp] theorem State.setStation_store (s : State) (x : StationState) : (s.setStation x).store = s.store := rfl
@[simp] theorem State.setStation_run (s : State) (x : StationState) : (s.setStation x).run = s.run := rfl
@[simp] theorem State.setStation_line (s : State) (x : StationState) : (s.setStation x).line = s.line := rfl
@[simp] theorem State.setStation_track (s : State) (x : StationState) : (s.setStation x).track = s.track := rfl
@[simp] theorem State.setStation_eye (s : State) (x : StationState) : (s.setStation x).eye = s.eye := rfl
@[simp] theorem State.setStation_bid (s : State) (x : StationState) : (s.setStation x).bid = s.bid := rfl
@[simp] theorem State.setStation_feed (s : State) (x : StationState) : (s.setStation x).feed = s.feed := rfl
@[simp] theorem State.setStation_width (s : State) (x : StationState) : (s.setStation x).width = s.width := rfl
@[simp] theorem State.setStation_throat (s : State) (x : StationState) : (s.setStation x).throat = s.throat := rfl
@[simp] theorem State.setStation_outfeed (s : State) (x : StationState) : (s.setStation x).outfeed = s.outfeed := rfl
@[simp] theorem State.setStation_link (s : State) (x : StationState) : (s.setStation x).link = s.link := rfl
@[simp] theorem State.setStation_peers (s : State) (x : StationState) : (s.setStation x).peers = s.peers := rfl
@[simp] theorem State.setStation_port (s : State) (x : StationState) : (s.setStation x).port = s.port := rfl
@[simp] theorem State.setStation_fifo (s : State) (x : StationState) : (s.setStation x).fifo = s.fifo := rfl
@[simp] theorem State.setStation_pending (s : State) (x : StationState) : (s.setStation x).pending = s.pending := rfl
@[simp] theorem State.setLeaving_station (s : State) (x : Bool) : (s.setLeaving x).station = s.station := rfl
@[simp] theorem State.setLeaving_leaving (s : State) (x : Bool) : (s.setLeaving x).leaving = x := rfl
@[simp] theorem State.setLeaving_now (s : State) (x : Bool) : (s.setLeaving x).now = s.now := rfl
@[simp] theorem State.setLeaving_store (s : State) (x : Bool) : (s.setLeaving x).store = s.store := rfl
@[simp] theorem State.setLeaving_run (s : State) (x : Bool) : (s.setLeaving x).run = s.run := rfl
@[simp] theorem State.setLeaving_line (s : State) (x : Bool) : (s.setLeaving x).line = s.line := rfl
@[simp] theorem State.setLeaving_track (s : State) (x : Bool) : (s.setLeaving x).track = s.track := rfl
@[simp] theorem State.setLeaving_eye (s : State) (x : Bool) : (s.setLeaving x).eye = s.eye := rfl
@[simp] theorem State.setLeaving_bid (s : State) (x : Bool) : (s.setLeaving x).bid = s.bid := rfl
@[simp] theorem State.setLeaving_feed (s : State) (x : Bool) : (s.setLeaving x).feed = s.feed := rfl
@[simp] theorem State.setLeaving_width (s : State) (x : Bool) : (s.setLeaving x).width = s.width := rfl
@[simp] theorem State.setLeaving_throat (s : State) (x : Bool) : (s.setLeaving x).throat = s.throat := rfl
@[simp] theorem State.setLeaving_outfeed (s : State) (x : Bool) : (s.setLeaving x).outfeed = s.outfeed := rfl
@[simp] theorem State.setLeaving_link (s : State) (x : Bool) : (s.setLeaving x).link = s.link := rfl
@[simp] theorem State.setLeaving_peers (s : State) (x : Bool) : (s.setLeaving x).peers = s.peers := rfl
@[simp] theorem State.setLeaving_port (s : State) (x : Bool) : (s.setLeaving x).port = s.port := rfl
@[simp] theorem State.setLeaving_fifo (s : State) (x : Bool) : (s.setLeaving x).fifo = s.fifo := rfl
@[simp] theorem State.setLeaving_pending (s : State) (x : Bool) : (s.setLeaving x).pending = s.pending := rfl
@[simp] theorem State.setNow_station (s : State) (x : Nat) : (s.setNow x).station = s.station := rfl
@[simp] theorem State.setNow_leaving (s : State) (x : Nat) : (s.setNow x).leaving = s.leaving := rfl
@[simp] theorem State.setNow_now (s : State) (x : Nat) : (s.setNow x).now = x := rfl
@[simp] theorem State.setNow_store (s : State) (x : Nat) : (s.setNow x).store = s.store := rfl
@[simp] theorem State.setNow_run (s : State) (x : Nat) : (s.setNow x).run = s.run := rfl
@[simp] theorem State.setNow_line (s : State) (x : Nat) : (s.setNow x).line = s.line := rfl
@[simp] theorem State.setNow_track (s : State) (x : Nat) : (s.setNow x).track = s.track := rfl
@[simp] theorem State.setNow_eye (s : State) (x : Nat) : (s.setNow x).eye = s.eye := rfl
@[simp] theorem State.setNow_bid (s : State) (x : Nat) : (s.setNow x).bid = s.bid := rfl
@[simp] theorem State.setNow_feed (s : State) (x : Nat) : (s.setNow x).feed = s.feed := rfl
@[simp] theorem State.setNow_width (s : State) (x : Nat) : (s.setNow x).width = s.width := rfl
@[simp] theorem State.setNow_throat (s : State) (x : Nat) : (s.setNow x).throat = s.throat := rfl
@[simp] theorem State.setNow_outfeed (s : State) (x : Nat) : (s.setNow x).outfeed = s.outfeed := rfl
@[simp] theorem State.setNow_link (s : State) (x : Nat) : (s.setNow x).link = s.link := rfl
@[simp] theorem State.setNow_peers (s : State) (x : Nat) : (s.setNow x).peers = s.peers := rfl
@[simp] theorem State.setNow_port (s : State) (x : Nat) : (s.setNow x).port = s.port := rfl
@[simp] theorem State.setNow_fifo (s : State) (x : Nat) : (s.setNow x).fifo = s.fifo := rfl
@[simp] theorem State.setNow_pending (s : State) (x : Nat) : (s.setNow x).pending = s.pending := rfl
@[simp] theorem State.setStore_station (s : State) (x : Store) : (s.setStore x).station = s.station := rfl
@[simp] theorem State.setStore_leaving (s : State) (x : Store) : (s.setStore x).leaving = s.leaving := rfl
@[simp] theorem State.setStore_now (s : State) (x : Store) : (s.setStore x).now = s.now := rfl
@[simp] theorem State.setStore_store (s : State) (x : Store) : (s.setStore x).store = x := rfl
@[simp] theorem State.setStore_run (s : State) (x : Store) : (s.setStore x).run = s.run := rfl
@[simp] theorem State.setStore_line (s : State) (x : Store) : (s.setStore x).line = s.line := rfl
@[simp] theorem State.setStore_track (s : State) (x : Store) : (s.setStore x).track = s.track := rfl
@[simp] theorem State.setStore_eye (s : State) (x : Store) : (s.setStore x).eye = s.eye := rfl
@[simp] theorem State.setStore_bid (s : State) (x : Store) : (s.setStore x).bid = s.bid := rfl
@[simp] theorem State.setStore_feed (s : State) (x : Store) : (s.setStore x).feed = s.feed := rfl
@[simp] theorem State.setStore_width (s : State) (x : Store) : (s.setStore x).width = s.width := rfl
@[simp] theorem State.setStore_throat (s : State) (x : Store) : (s.setStore x).throat = s.throat := rfl
@[simp] theorem State.setStore_outfeed (s : State) (x : Store) : (s.setStore x).outfeed = s.outfeed := rfl
@[simp] theorem State.setStore_link (s : State) (x : Store) : (s.setStore x).link = s.link := rfl
@[simp] theorem State.setStore_peers (s : State) (x : Store) : (s.setStore x).peers = s.peers := rfl
@[simp] theorem State.setStore_port (s : State) (x : Store) : (s.setStore x).port = s.port := rfl
@[simp] theorem State.setStore_fifo (s : State) (x : Store) : (s.setStore x).fifo = s.fifo := rfl
@[simp] theorem State.setStore_pending (s : State) (x : Store) : (s.setStore x).pending = s.pending := rfl
@[simp] theorem State.setRun_station (s : State) (x : Figures) : (s.setRun x).station = s.station := rfl
@[simp] theorem State.setRun_leaving (s : State) (x : Figures) : (s.setRun x).leaving = s.leaving := rfl
@[simp] theorem State.setRun_now (s : State) (x : Figures) : (s.setRun x).now = s.now := rfl
@[simp] theorem State.setRun_store (s : State) (x : Figures) : (s.setRun x).store = s.store := rfl
@[simp] theorem State.setRun_run (s : State) (x : Figures) : (s.setRun x).run = x := rfl
@[simp] theorem State.setRun_line (s : State) (x : Figures) : (s.setRun x).line = s.line := rfl
@[simp] theorem State.setRun_track (s : State) (x : Figures) : (s.setRun x).track = s.track := rfl
@[simp] theorem State.setRun_eye (s : State) (x : Figures) : (s.setRun x).eye = s.eye := rfl
@[simp] theorem State.setRun_bid (s : State) (x : Figures) : (s.setRun x).bid = s.bid := rfl
@[simp] theorem State.setRun_feed (s : State) (x : Figures) : (s.setRun x).feed = s.feed := rfl
@[simp] theorem State.setRun_width (s : State) (x : Figures) : (s.setRun x).width = s.width := rfl
@[simp] theorem State.setRun_throat (s : State) (x : Figures) : (s.setRun x).throat = s.throat := rfl
@[simp] theorem State.setRun_outfeed (s : State) (x : Figures) : (s.setRun x).outfeed = s.outfeed := rfl
@[simp] theorem State.setRun_link (s : State) (x : Figures) : (s.setRun x).link = s.link := rfl
@[simp] theorem State.setRun_peers (s : State) (x : Figures) : (s.setRun x).peers = s.peers := rfl
@[simp] theorem State.setRun_port (s : State) (x : Figures) : (s.setRun x).port = s.port := rfl
@[simp] theorem State.setRun_fifo (s : State) (x : Figures) : (s.setRun x).fifo = s.fifo := rfl
@[simp] theorem State.setRun_pending (s : State) (x : Figures) : (s.setRun x).pending = s.pending := rfl
@[simp] theorem State.setLine_station (s : State) (x : LineCounter) : (s.setLine x).station = s.station := rfl
@[simp] theorem State.setLine_leaving (s : State) (x : LineCounter) : (s.setLine x).leaving = s.leaving := rfl
@[simp] theorem State.setLine_now (s : State) (x : LineCounter) : (s.setLine x).now = s.now := rfl
@[simp] theorem State.setLine_store (s : State) (x : LineCounter) : (s.setLine x).store = s.store := rfl
@[simp] theorem State.setLine_run (s : State) (x : LineCounter) : (s.setLine x).run = s.run := rfl
@[simp] theorem State.setLine_line (s : State) (x : LineCounter) : (s.setLine x).line = x := rfl
@[simp] theorem State.setLine_track (s : State) (x : LineCounter) : (s.setLine x).track = s.track := rfl
@[simp] theorem State.setLine_eye (s : State) (x : LineCounter) : (s.setLine x).eye = s.eye := rfl
@[simp] theorem State.setLine_bid (s : State) (x : LineCounter) : (s.setLine x).bid = s.bid := rfl
@[simp] theorem State.setLine_feed (s : State) (x : LineCounter) : (s.setLine x).feed = s.feed := rfl
@[simp] theorem State.setLine_width (s : State) (x : LineCounter) : (s.setLine x).width = s.width := rfl
@[simp] theorem State.setLine_throat (s : State) (x : LineCounter) : (s.setLine x).throat = s.throat := rfl
@[simp] theorem State.setLine_outfeed (s : State) (x : LineCounter) : (s.setLine x).outfeed = s.outfeed := rfl
@[simp] theorem State.setLine_link (s : State) (x : LineCounter) : (s.setLine x).link = s.link := rfl
@[simp] theorem State.setLine_peers (s : State) (x : LineCounter) : (s.setLine x).peers = s.peers := rfl
@[simp] theorem State.setLine_port (s : State) (x : LineCounter) : (s.setLine x).port = s.port := rfl
@[simp] theorem State.setLine_fifo (s : State) (x : LineCounter) : (s.setLine x).fifo = s.fifo := rfl
@[simp] theorem State.setLine_pending (s : State) (x : LineCounter) : (s.setLine x).pending = s.pending := rfl
@[simp] theorem State.setTrack_station (s : State) (x : TrackList) : (s.setTrack x).station = s.station := rfl
@[simp] theorem State.setTrack_leaving (s : State) (x : TrackList) : (s.setTrack x).leaving = s.leaving := rfl
@[simp] theorem State.setTrack_now (s : State) (x : TrackList) : (s.setTrack x).now = s.now := rfl
@[simp] theorem State.setTrack_store (s : State) (x : TrackList) : (s.setTrack x).store = s.store := rfl
@[simp] theorem State.setTrack_run (s : State) (x : TrackList) : (s.setTrack x).run = s.run := rfl
@[simp] theorem State.setTrack_line (s : State) (x : TrackList) : (s.setTrack x).line = s.line := rfl
@[simp] theorem State.setTrack_track (s : State) (x : TrackList) : (s.setTrack x).track = x := rfl
@[simp] theorem State.setTrack_eye (s : State) (x : TrackList) : (s.setTrack x).eye = s.eye := rfl
@[simp] theorem State.setTrack_bid (s : State) (x : TrackList) : (s.setTrack x).bid = s.bid := rfl
@[simp] theorem State.setTrack_feed (s : State) (x : TrackList) : (s.setTrack x).feed = s.feed := rfl
@[simp] theorem State.setTrack_width (s : State) (x : TrackList) : (s.setTrack x).width = s.width := rfl
@[simp] theorem State.setTrack_throat (s : State) (x : TrackList) : (s.setTrack x).throat = s.throat := rfl
@[simp] theorem State.setTrack_outfeed (s : State) (x : TrackList) : (s.setTrack x).outfeed = s.outfeed := rfl
@[simp] theorem State.setTrack_link (s : State) (x : TrackList) : (s.setTrack x).link = s.link := rfl
@[simp] theorem State.setTrack_peers (s : State) (x : TrackList) : (s.setTrack x).peers = s.peers := rfl
@[simp] theorem State.setTrack_port (s : State) (x : TrackList) : (s.setTrack x).port = s.port := rfl
@[simp] theorem State.setTrack_fifo (s : State) (x : TrackList) : (s.setTrack x).fifo = s.fifo := rfl
@[simp] theorem State.setTrack_pending (s : State) (x : TrackList) : (s.setTrack x).pending = s.pending := rfl
@[simp] theorem State.setEye_station (s : State) (x : EyeUnit) : (s.setEye x).station = s.station := rfl
@[simp] theorem State.setEye_leaving (s : State) (x : EyeUnit) : (s.setEye x).leaving = s.leaving := rfl
@[simp] theorem State.setEye_now (s : State) (x : EyeUnit) : (s.setEye x).now = s.now := rfl
@[simp] theorem State.setEye_store (s : State) (x : EyeUnit) : (s.setEye x).store = s.store := rfl
@[simp] theorem State.setEye_run (s : State) (x : EyeUnit) : (s.setEye x).run = s.run := rfl
@[simp] theorem State.setEye_line (s : State) (x : EyeUnit) : (s.setEye x).line = s.line := rfl
@[simp] theorem State.setEye_track (s : State) (x : EyeUnit) : (s.setEye x).track = s.track := rfl
@[simp] theorem State.setEye_eye (s : State) (x : EyeUnit) : (s.setEye x).eye = x := rfl
@[simp] theorem State.setEye_bid (s : State) (x : EyeUnit) : (s.setEye x).bid = s.bid := rfl
@[simp] theorem State.setEye_feed (s : State) (x : EyeUnit) : (s.setEye x).feed = s.feed := rfl
@[simp] theorem State.setEye_width (s : State) (x : EyeUnit) : (s.setEye x).width = s.width := rfl
@[simp] theorem State.setEye_throat (s : State) (x : EyeUnit) : (s.setEye x).throat = s.throat := rfl
@[simp] theorem State.setEye_outfeed (s : State) (x : EyeUnit) : (s.setEye x).outfeed = s.outfeed := rfl
@[simp] theorem State.setEye_link (s : State) (x : EyeUnit) : (s.setEye x).link = s.link := rfl
@[simp] theorem State.setEye_peers (s : State) (x : EyeUnit) : (s.setEye x).peers = s.peers := rfl
@[simp] theorem State.setEye_port (s : State) (x : EyeUnit) : (s.setEye x).port = s.port := rfl
@[simp] theorem State.setEye_fifo (s : State) (x : EyeUnit) : (s.setEye x).fifo = s.fifo := rfl
@[simp] theorem State.setEye_pending (s : State) (x : EyeUnit) : (s.setEye x).pending = s.pending := rfl
@[simp] theorem State.setBid_station (s : State) (x : BidEngine) : (s.setBid x).station = s.station := rfl
@[simp] theorem State.setBid_leaving (s : State) (x : BidEngine) : (s.setBid x).leaving = s.leaving := rfl
@[simp] theorem State.setBid_now (s : State) (x : BidEngine) : (s.setBid x).now = s.now := rfl
@[simp] theorem State.setBid_store (s : State) (x : BidEngine) : (s.setBid x).store = s.store := rfl
@[simp] theorem State.setBid_run (s : State) (x : BidEngine) : (s.setBid x).run = s.run := rfl
@[simp] theorem State.setBid_line (s : State) (x : BidEngine) : (s.setBid x).line = s.line := rfl
@[simp] theorem State.setBid_track (s : State) (x : BidEngine) : (s.setBid x).track = s.track := rfl
@[simp] theorem State.setBid_eye (s : State) (x : BidEngine) : (s.setBid x).eye = s.eye := rfl
@[simp] theorem State.setBid_bid (s : State) (x : BidEngine) : (s.setBid x).bid = x := rfl
@[simp] theorem State.setBid_feed (s : State) (x : BidEngine) : (s.setBid x).feed = s.feed := rfl
@[simp] theorem State.setBid_width (s : State) (x : BidEngine) : (s.setBid x).width = s.width := rfl
@[simp] theorem State.setBid_throat (s : State) (x : BidEngine) : (s.setBid x).throat = s.throat := rfl
@[simp] theorem State.setBid_outfeed (s : State) (x : BidEngine) : (s.setBid x).outfeed = s.outfeed := rfl
@[simp] theorem State.setBid_link (s : State) (x : BidEngine) : (s.setBid x).link = s.link := rfl
@[simp] theorem State.setBid_peers (s : State) (x : BidEngine) : (s.setBid x).peers = s.peers := rfl
@[simp] theorem State.setBid_port (s : State) (x : BidEngine) : (s.setBid x).port = s.port := rfl
@[simp] theorem State.setBid_fifo (s : State) (x : BidEngine) : (s.setBid x).fifo = s.fifo := rfl
@[simp] theorem State.setBid_pending (s : State) (x : BidEngine) : (s.setBid x).pending = s.pending := rfl
@[simp] theorem State.setFeed_station (s : State) (x : FeedSequencer) : (s.setFeed x).station = s.station := rfl
@[simp] theorem State.setFeed_leaving (s : State) (x : FeedSequencer) : (s.setFeed x).leaving = s.leaving := rfl
@[simp] theorem State.setFeed_now (s : State) (x : FeedSequencer) : (s.setFeed x).now = s.now := rfl
@[simp] theorem State.setFeed_store (s : State) (x : FeedSequencer) : (s.setFeed x).store = s.store := rfl
@[simp] theorem State.setFeed_run (s : State) (x : FeedSequencer) : (s.setFeed x).run = s.run := rfl
@[simp] theorem State.setFeed_line (s : State) (x : FeedSequencer) : (s.setFeed x).line = s.line := rfl
@[simp] theorem State.setFeed_track (s : State) (x : FeedSequencer) : (s.setFeed x).track = s.track := rfl
@[simp] theorem State.setFeed_eye (s : State) (x : FeedSequencer) : (s.setFeed x).eye = s.eye := rfl
@[simp] theorem State.setFeed_bid (s : State) (x : FeedSequencer) : (s.setFeed x).bid = s.bid := rfl
@[simp] theorem State.setFeed_feed (s : State) (x : FeedSequencer) : (s.setFeed x).feed = x := rfl
@[simp] theorem State.setFeed_width (s : State) (x : FeedSequencer) : (s.setFeed x).width = s.width := rfl
@[simp] theorem State.setFeed_throat (s : State) (x : FeedSequencer) : (s.setFeed x).throat = s.throat := rfl
@[simp] theorem State.setFeed_outfeed (s : State) (x : FeedSequencer) : (s.setFeed x).outfeed = s.outfeed := rfl
@[simp] theorem State.setFeed_link (s : State) (x : FeedSequencer) : (s.setFeed x).link = s.link := rfl
@[simp] theorem State.setFeed_peers (s : State) (x : FeedSequencer) : (s.setFeed x).peers = s.peers := rfl
@[simp] theorem State.setFeed_port (s : State) (x : FeedSequencer) : (s.setFeed x).port = s.port := rfl
@[simp] theorem State.setFeed_fifo (s : State) (x : FeedSequencer) : (s.setFeed x).fifo = s.fifo := rfl
@[simp] theorem State.setFeed_pending (s : State) (x : FeedSequencer) : (s.setFeed x).pending = s.pending := rfl
@[simp] theorem State.setWidth_station (s : State) (x : WidthSampler) : (s.setWidth x).station = s.station := rfl
@[simp] theorem State.setWidth_leaving (s : State) (x : WidthSampler) : (s.setWidth x).leaving = s.leaving := rfl
@[simp] theorem State.setWidth_now (s : State) (x : WidthSampler) : (s.setWidth x).now = s.now := rfl
@[simp] theorem State.setWidth_store (s : State) (x : WidthSampler) : (s.setWidth x).store = s.store := rfl
@[simp] theorem State.setWidth_run (s : State) (x : WidthSampler) : (s.setWidth x).run = s.run := rfl
@[simp] theorem State.setWidth_line (s : State) (x : WidthSampler) : (s.setWidth x).line = s.line := rfl
@[simp] theorem State.setWidth_track (s : State) (x : WidthSampler) : (s.setWidth x).track = s.track := rfl
@[simp] theorem State.setWidth_eye (s : State) (x : WidthSampler) : (s.setWidth x).eye = s.eye := rfl
@[simp] theorem State.setWidth_bid (s : State) (x : WidthSampler) : (s.setWidth x).bid = s.bid := rfl
@[simp] theorem State.setWidth_feed (s : State) (x : WidthSampler) : (s.setWidth x).feed = s.feed := rfl
@[simp] theorem State.setWidth_width (s : State) (x : WidthSampler) : (s.setWidth x).width = x := rfl
@[simp] theorem State.setWidth_throat (s : State) (x : WidthSampler) : (s.setWidth x).throat = s.throat := rfl
@[simp] theorem State.setWidth_outfeed (s : State) (x : WidthSampler) : (s.setWidth x).outfeed = s.outfeed := rfl
@[simp] theorem State.setWidth_link (s : State) (x : WidthSampler) : (s.setWidth x).link = s.link := rfl
@[simp] theorem State.setWidth_peers (s : State) (x : WidthSampler) : (s.setWidth x).peers = s.peers := rfl
@[simp] theorem State.setWidth_port (s : State) (x : WidthSampler) : (s.setWidth x).port = s.port := rfl
@[simp] theorem State.setWidth_fifo (s : State) (x : WidthSampler) : (s.setWidth x).fifo = s.fifo := rfl
@[simp] theorem State.setWidth_pending (s : State) (x : WidthSampler) : (s.setWidth x).pending = s.pending := rfl
@[simp] theorem State.setThroat_station (s : State) (x : ThroatMonitor) : (s.setThroat x).station = s.station := rfl
@[simp] theorem State.setThroat_leaving (s : State) (x : ThroatMonitor) : (s.setThroat x).leaving = s.leaving := rfl
@[simp] theorem State.setThroat_now (s : State) (x : ThroatMonitor) : (s.setThroat x).now = s.now := rfl
@[simp] theorem State.setThroat_store (s : State) (x : ThroatMonitor) : (s.setThroat x).store = s.store := rfl
@[simp] theorem State.setThroat_run (s : State) (x : ThroatMonitor) : (s.setThroat x).run = s.run := rfl
@[simp] theorem State.setThroat_line (s : State) (x : ThroatMonitor) : (s.setThroat x).line = s.line := rfl
@[simp] theorem State.setThroat_track (s : State) (x : ThroatMonitor) : (s.setThroat x).track = s.track := rfl
@[simp] theorem State.setThroat_eye (s : State) (x : ThroatMonitor) : (s.setThroat x).eye = s.eye := rfl
@[simp] theorem State.setThroat_bid (s : State) (x : ThroatMonitor) : (s.setThroat x).bid = s.bid := rfl
@[simp] theorem State.setThroat_feed (s : State) (x : ThroatMonitor) : (s.setThroat x).feed = s.feed := rfl
@[simp] theorem State.setThroat_width (s : State) (x : ThroatMonitor) : (s.setThroat x).width = s.width := rfl
@[simp] theorem State.setThroat_throat (s : State) (x : ThroatMonitor) : (s.setThroat x).throat = x := rfl
@[simp] theorem State.setThroat_outfeed (s : State) (x : ThroatMonitor) : (s.setThroat x).outfeed = s.outfeed := rfl
@[simp] theorem State.setThroat_link (s : State) (x : ThroatMonitor) : (s.setThroat x).link = s.link := rfl
@[simp] theorem State.setThroat_peers (s : State) (x : ThroatMonitor) : (s.setThroat x).peers = s.peers := rfl
@[simp] theorem State.setThroat_port (s : State) (x : ThroatMonitor) : (s.setThroat x).port = s.port := rfl
@[simp] theorem State.setThroat_fifo (s : State) (x : ThroatMonitor) : (s.setThroat x).fifo = s.fifo := rfl
@[simp] theorem State.setThroat_pending (s : State) (x : ThroatMonitor) : (s.setThroat x).pending = s.pending := rfl
@[simp] theorem State.setOutfeed_station (s : State) (x : OutfeedDirector) : (s.setOutfeed x).station = s.station := rfl
@[simp] theorem State.setOutfeed_leaving (s : State) (x : OutfeedDirector) : (s.setOutfeed x).leaving = s.leaving := rfl
@[simp] theorem State.setOutfeed_now (s : State) (x : OutfeedDirector) : (s.setOutfeed x).now = s.now := rfl
@[simp] theorem State.setOutfeed_store (s : State) (x : OutfeedDirector) : (s.setOutfeed x).store = s.store := rfl
@[simp] theorem State.setOutfeed_run (s : State) (x : OutfeedDirector) : (s.setOutfeed x).run = s.run := rfl
@[simp] theorem State.setOutfeed_line (s : State) (x : OutfeedDirector) : (s.setOutfeed x).line = s.line := rfl
@[simp] theorem State.setOutfeed_track (s : State) (x : OutfeedDirector) : (s.setOutfeed x).track = s.track := rfl
@[simp] theorem State.setOutfeed_eye (s : State) (x : OutfeedDirector) : (s.setOutfeed x).eye = s.eye := rfl
@[simp] theorem State.setOutfeed_bid (s : State) (x : OutfeedDirector) : (s.setOutfeed x).bid = s.bid := rfl
@[simp] theorem State.setOutfeed_feed (s : State) (x : OutfeedDirector) : (s.setOutfeed x).feed = s.feed := rfl
@[simp] theorem State.setOutfeed_width (s : State) (x : OutfeedDirector) : (s.setOutfeed x).width = s.width := rfl
@[simp] theorem State.setOutfeed_throat (s : State) (x : OutfeedDirector) : (s.setOutfeed x).throat = s.throat := rfl
@[simp] theorem State.setOutfeed_outfeed (s : State) (x : OutfeedDirector) : (s.setOutfeed x).outfeed = x := rfl
@[simp] theorem State.setOutfeed_link (s : State) (x : OutfeedDirector) : (s.setOutfeed x).link = s.link := rfl
@[simp] theorem State.setOutfeed_peers (s : State) (x : OutfeedDirector) : (s.setOutfeed x).peers = s.peers := rfl
@[simp] theorem State.setOutfeed_port (s : State) (x : OutfeedDirector) : (s.setOutfeed x).port = s.port := rfl
@[simp] theorem State.setOutfeed_fifo (s : State) (x : OutfeedDirector) : (s.setOutfeed x).fifo = s.fifo := rfl
@[simp] theorem State.setOutfeed_pending (s : State) (x : OutfeedDirector) : (s.setOutfeed x).pending = s.pending := rfl
@[simp] theorem State.setLink_station (s : State) (x : LinkController) : (s.setLink x).station = s.station := rfl
@[simp] theorem State.setLink_leaving (s : State) (x : LinkController) : (s.setLink x).leaving = s.leaving := rfl
@[simp] theorem State.setLink_now (s : State) (x : LinkController) : (s.setLink x).now = s.now := rfl
@[simp] theorem State.setLink_store (s : State) (x : LinkController) : (s.setLink x).store = s.store := rfl
@[simp] theorem State.setLink_run (s : State) (x : LinkController) : (s.setLink x).run = s.run := rfl
@[simp] theorem State.setLink_line (s : State) (x : LinkController) : (s.setLink x).line = s.line := rfl
@[simp] theorem State.setLink_track (s : State) (x : LinkController) : (s.setLink x).track = s.track := rfl
@[simp] theorem State.setLink_eye (s : State) (x : LinkController) : (s.setLink x).eye = s.eye := rfl
@[simp] theorem State.setLink_bid (s : State) (x : LinkController) : (s.setLink x).bid = s.bid := rfl
@[simp] theorem State.setLink_feed (s : State) (x : LinkController) : (s.setLink x).feed = s.feed := rfl
@[simp] theorem State.setLink_width (s : State) (x : LinkController) : (s.setLink x).width = s.width := rfl
@[simp] theorem State.setLink_throat (s : State) (x : LinkController) : (s.setLink x).throat = s.throat := rfl
@[simp] theorem State.setLink_outfeed (s : State) (x : LinkController) : (s.setLink x).outfeed = s.outfeed := rfl
@[simp] theorem State.setLink_link (s : State) (x : LinkController) : (s.setLink x).link = x := rfl
@[simp] theorem State.setLink_peers (s : State) (x : LinkController) : (s.setLink x).peers = s.peers := rfl
@[simp] theorem State.setLink_port (s : State) (x : LinkController) : (s.setLink x).port = s.port := rfl
@[simp] theorem State.setLink_fifo (s : State) (x : LinkController) : (s.setLink x).fifo = s.fifo := rfl
@[simp] theorem State.setLink_pending (s : State) (x : LinkController) : (s.setLink x).pending = s.pending := rfl
@[simp] theorem State.setPeers_station (s : State) (x : PeerTable) : (s.setPeers x).station = s.station := rfl
@[simp] theorem State.setPeers_leaving (s : State) (x : PeerTable) : (s.setPeers x).leaving = s.leaving := rfl
@[simp] theorem State.setPeers_now (s : State) (x : PeerTable) : (s.setPeers x).now = s.now := rfl
@[simp] theorem State.setPeers_store (s : State) (x : PeerTable) : (s.setPeers x).store = s.store := rfl
@[simp] theorem State.setPeers_run (s : State) (x : PeerTable) : (s.setPeers x).run = s.run := rfl
@[simp] theorem State.setPeers_line (s : State) (x : PeerTable) : (s.setPeers x).line = s.line := rfl
@[simp] theorem State.setPeers_track (s : State) (x : PeerTable) : (s.setPeers x).track = s.track := rfl
@[simp] theorem State.setPeers_eye (s : State) (x : PeerTable) : (s.setPeers x).eye = s.eye := rfl
@[simp] theorem State.setPeers_bid (s : State) (x : PeerTable) : (s.setPeers x).bid = s.bid := rfl
@[simp] theorem State.setPeers_feed (s : State) (x : PeerTable) : (s.setPeers x).feed = s.feed := rfl
@[simp] theorem State.setPeers_width (s : State) (x : PeerTable) : (s.setPeers x).width = s.width := rfl
@[simp] theorem State.setPeers_throat (s : State) (x : PeerTable) : (s.setPeers x).throat = s.throat := rfl
@[simp] theorem State.setPeers_outfeed (s : State) (x : PeerTable) : (s.setPeers x).outfeed = s.outfeed := rfl
@[simp] theorem State.setPeers_link (s : State) (x : PeerTable) : (s.setPeers x).link = s.link := rfl
@[simp] theorem State.setPeers_peers (s : State) (x : PeerTable) : (s.setPeers x).peers = x := rfl
@[simp] theorem State.setPeers_port (s : State) (x : PeerTable) : (s.setPeers x).port = s.port := rfl
@[simp] theorem State.setPeers_fifo (s : State) (x : PeerTable) : (s.setPeers x).fifo = s.fifo := rfl
@[simp] theorem State.setPeers_pending (s : State) (x : PeerTable) : (s.setPeers x).pending = s.pending := rfl
@[simp] theorem State.setPort_station (s : State) (x : LocalPort) : (s.setPort x).station = s.station := rfl
@[simp] theorem State.setPort_leaving (s : State) (x : LocalPort) : (s.setPort x).leaving = s.leaving := rfl
@[simp] theorem State.setPort_now (s : State) (x : LocalPort) : (s.setPort x).now = s.now := rfl
@[simp] theorem State.setPort_store (s : State) (x : LocalPort) : (s.setPort x).store = s.store := rfl
@[simp] theorem State.setPort_run (s : State) (x : LocalPort) : (s.setPort x).run = s.run := rfl
@[simp] theorem State.setPort_line (s : State) (x : LocalPort) : (s.setPort x).line = s.line := rfl
@[simp] theorem State.setPort_track (s : State) (x : LocalPort) : (s.setPort x).track = s.track := rfl
@[simp] theorem State.setPort_eye (s : State) (x : LocalPort) : (s.setPort x).eye = s.eye := rfl
@[simp] theorem State.setPort_bid (s : State) (x : LocalPort) : (s.setPort x).bid = s.bid := rfl
@[simp] theorem State.setPort_feed (s : State) (x : LocalPort) : (s.setPort x).feed = s.feed := rfl
@[simp] theorem State.setPort_width (s : State) (x : LocalPort) : (s.setPort x).width = s.width := rfl
@[simp] theorem State.setPort_throat (s : State) (x : LocalPort) : (s.setPort x).throat = s.throat := rfl
@[simp] theorem State.setPort_outfeed (s : State) (x : LocalPort) : (s.setPort x).outfeed = s.outfeed := rfl
@[simp] theorem State.setPort_link (s : State) (x : LocalPort) : (s.setPort x).link = s.link := rfl
@[simp] theorem State.setPort_peers (s : State) (x : LocalPort) : (s.setPort x).peers = s.peers := rfl
@[simp] theorem State.setPort_port (s : State) (x : LocalPort) : (s.setPort x).port = x := rfl
@[simp] theorem State.setPort_fifo (s : State) (x : LocalPort) : (s.setPort x).fifo = s.fifo := rfl
@[simp] theorem State.setPort_pending (s : State) (x : LocalPort) : (s.setPort x).pending = s.pending := rfl
@[simp] theorem State.setFifo_station (s : State) (x : EventFifo) : (s.setFifo x).station = s.station := rfl
@[simp] theorem State.setFifo_leaving (s : State) (x : EventFifo) : (s.setFifo x).leaving = s.leaving := rfl
@[simp] theorem State.setFifo_now (s : State) (x : EventFifo) : (s.setFifo x).now = s.now := rfl
@[simp] theorem State.setFifo_store (s : State) (x : EventFifo) : (s.setFifo x).store = s.store := rfl
@[simp] theorem State.setFifo_run (s : State) (x : EventFifo) : (s.setFifo x).run = s.run := rfl
@[simp] theorem State.setFifo_line (s : State) (x : EventFifo) : (s.setFifo x).line = s.line := rfl
@[simp] theorem State.setFifo_track (s : State) (x : EventFifo) : (s.setFifo x).track = s.track := rfl
@[simp] theorem State.setFifo_eye (s : State) (x : EventFifo) : (s.setFifo x).eye = s.eye := rfl
@[simp] theorem State.setFifo_bid (s : State) (x : EventFifo) : (s.setFifo x).bid = s.bid := rfl
@[simp] theorem State.setFifo_feed (s : State) (x : EventFifo) : (s.setFifo x).feed = s.feed := rfl
@[simp] theorem State.setFifo_width (s : State) (x : EventFifo) : (s.setFifo x).width = s.width := rfl
@[simp] theorem State.setFifo_throat (s : State) (x : EventFifo) : (s.setFifo x).throat = s.throat := rfl
@[simp] theorem State.setFifo_outfeed (s : State) (x : EventFifo) : (s.setFifo x).outfeed = s.outfeed := rfl
@[simp] theorem State.setFifo_link (s : State) (x : EventFifo) : (s.setFifo x).link = s.link := rfl
@[simp] theorem State.setFifo_peers (s : State) (x : EventFifo) : (s.setFifo x).peers = s.peers := rfl
@[simp] theorem State.setFifo_port (s : State) (x : EventFifo) : (s.setFifo x).port = s.port := rfl
@[simp] theorem State.setFifo_fifo (s : State) (x : EventFifo) : (s.setFifo x).fifo = x := rfl
@[simp] theorem State.setFifo_pending (s : State) (x : EventFifo) : (s.setFifo x).pending = s.pending := rfl
@[simp] theorem State.setPending_station (s : State) (x : List Instr) : (s.setPending x).station = s.station := rfl
@[simp] theorem State.setPending_leaving (s : State) (x : List Instr) : (s.setPending x).leaving = s.leaving := rfl
@[simp] theorem State.setPending_now (s : State) (x : List Instr) : (s.setPending x).now = s.now := rfl
@[simp] theorem State.setPending_store (s : State) (x : List Instr) : (s.setPending x).store = s.store := rfl
@[simp] theorem State.setPending_run (s : State) (x : List Instr) : (s.setPending x).run = s.run := rfl
@[simp] theorem State.setPending_line (s : State) (x : List Instr) : (s.setPending x).line = s.line := rfl
@[simp] theorem State.setPending_track (s : State) (x : List Instr) : (s.setPending x).track = s.track := rfl
@[simp] theorem State.setPending_eye (s : State) (x : List Instr) : (s.setPending x).eye = s.eye := rfl
@[simp] theorem State.setPending_bid (s : State) (x : List Instr) : (s.setPending x).bid = s.bid := rfl
@[simp] theorem State.setPending_feed (s : State) (x : List Instr) : (s.setPending x).feed = s.feed := rfl
@[simp] theorem State.setPending_width (s : State) (x : List Instr) : (s.setPending x).width = s.width := rfl
@[simp] theorem State.setPending_throat (s : State) (x : List Instr) : (s.setPending x).throat = s.throat := rfl
@[simp] theorem State.setPending_outfeed (s : State) (x : List Instr) : (s.setPending x).outfeed = s.outfeed := rfl
@[simp] theorem State.setPending_link (s : State) (x : List Instr) : (s.setPending x).link = s.link := rfl
@[simp] theorem State.setPending_peers (s : State) (x : List Instr) : (s.setPending x).peers = s.peers := rfl
@[simp] theorem State.setPending_port (s : State) (x : List Instr) : (s.setPending x).port = s.port := rfl
@[simp] theorem State.setPending_fifo (s : State) (x : List Instr) : (s.setPending x).fifo = s.fifo := rfl
@[simp] theorem State.setPending_pending (s : State) (x : List Instr) : (s.setPending x).pending = x := rfl

/-! What is read through the figures of START. -/

@[simp] theorem State.setStation_role (s : State) (x : StationState) : (s.setStation x).role = s.role := rfl
@[simp] theorem State.setStation_number (s : State) (x : StationState) : (s.setStation x).number = s.number := rfl
@[simp] theorem State.setLeaving_role (s : State) (x : Bool) : (s.setLeaving x).role = s.role := rfl
@[simp] theorem State.setLeaving_number (s : State) (x : Bool) : (s.setLeaving x).number = s.number := rfl
@[simp] theorem State.setNow_role (s : State) (x : Nat) : (s.setNow x).role = s.role := rfl
@[simp] theorem State.setNow_number (s : State) (x : Nat) : (s.setNow x).number = s.number := rfl
@[simp] theorem State.setStore_role (s : State) (x : Store) : (s.setStore x).role = s.role := rfl
@[simp] theorem State.setStore_number (s : State) (x : Store) : (s.setStore x).number = s.number := rfl
@[simp] theorem State.setLine_role (s : State) (x : LineCounter) : (s.setLine x).role = s.role := rfl
@[simp] theorem State.setLine_number (s : State) (x : LineCounter) : (s.setLine x).number = s.number := rfl
@[simp] theorem State.setTrack_role (s : State) (x : TrackList) : (s.setTrack x).role = s.role := rfl
@[simp] theorem State.setTrack_number (s : State) (x : TrackList) : (s.setTrack x).number = s.number := rfl
@[simp] theorem State.setEye_role (s : State) (x : EyeUnit) : (s.setEye x).role = s.role := rfl
@[simp] theorem State.setEye_number (s : State) (x : EyeUnit) : (s.setEye x).number = s.number := rfl
@[simp] theorem State.setBid_role (s : State) (x : BidEngine) : (s.setBid x).role = s.role := rfl
@[simp] theorem State.setBid_number (s : State) (x : BidEngine) : (s.setBid x).number = s.number := rfl
@[simp] theorem State.setFeed_role (s : State) (x : FeedSequencer) : (s.setFeed x).role = s.role := rfl
@[simp] theorem State.setFeed_number (s : State) (x : FeedSequencer) : (s.setFeed x).number = s.number := rfl
@[simp] theorem State.setWidth_role (s : State) (x : WidthSampler) : (s.setWidth x).role = s.role := rfl
@[simp] theorem State.setWidth_number (s : State) (x : WidthSampler) : (s.setWidth x).number = s.number := rfl
@[simp] theorem State.setThroat_role (s : State) (x : ThroatMonitor) : (s.setThroat x).role = s.role := rfl
@[simp] theorem State.setThroat_number (s : State) (x : ThroatMonitor) : (s.setThroat x).number = s.number := rfl
@[simp] theorem State.setOutfeed_role (s : State) (x : OutfeedDirector) : (s.setOutfeed x).role = s.role := rfl
@[simp] theorem State.setOutfeed_number (s : State) (x : OutfeedDirector) : (s.setOutfeed x).number = s.number := rfl
@[simp] theorem State.setLink_role (s : State) (x : LinkController) : (s.setLink x).role = s.role := rfl
@[simp] theorem State.setLink_number (s : State) (x : LinkController) : (s.setLink x).number = s.number := rfl
@[simp] theorem State.setPeers_role (s : State) (x : PeerTable) : (s.setPeers x).role = s.role := rfl
@[simp] theorem State.setPeers_number (s : State) (x : PeerTable) : (s.setPeers x).number = s.number := rfl
@[simp] theorem State.setPort_role (s : State) (x : LocalPort) : (s.setPort x).role = s.role := rfl
@[simp] theorem State.setPort_number (s : State) (x : LocalPort) : (s.setPort x).number = s.number := rfl
@[simp] theorem State.setFifo_role (s : State) (x : EventFifo) : (s.setFifo x).role = s.role := rfl
@[simp] theorem State.setFifo_number (s : State) (x : EventFifo) : (s.setFifo x).number = s.number := rfl
@[simp] theorem State.setPending_role (s : State) (x : List Instr) : (s.setPending x).role = s.role := rfl
@[simp] theorem State.setPending_number (s : State) (x : List Instr) : (s.setPending x).number = s.number := rfl

end Sys2Proof.Machine
end

