-- ==== Sys2Proof/Laws/Records.lean ====
section
/-! SUPPORT. The track list under each operation, said once: what a removal, a change and a filing leave, and that a
recall of the own bid touches no record but its own. -/

namespace Sys2Proof.Machine

/-! ## Lists of records (R32, R33) -/

theorem mem_insertRecord (r x : Record) : ∀ l : List Record, x ∈ insertRecord r l ↔ x = r ∨ x ∈ l
  | [] => by simp [insertRecord]
  | y :: ys => by
    unfold insertRecord
    split
    · simp
    · simp only [List.mem_cons, mem_insertRecord r x ys]
      tauto

theorem length_insertRecord (r : Record) : ∀ l : List Record, (insertRecord r l).length = l.length + 1
  | [] => rfl
  | y :: ys => by
    unfold insertRecord
    split
    · rfl
    · simp only [List.length_cons, length_insertRecord r ys]

theorem mem_eraseTag (t : Tag) (x : Record) (l : List Record) : x ∈ eraseTag t l ↔ x ∈ l ∧ x.desc.tag ≠ t := by
  simp [eraseTag]

theorem find_eraseTag_self (t : Tag) (l : List Record) : (eraseTag t l).find? (fun r => r.desc.tag == t) = none := by
  rw [List.find?_eq_none]
  intro x hx
  simp [((mem_eraseTag t x l).mp hx).2]

theorem find_eraseTag_other (t u : Tag) (h : u ≠ t) : ∀ l : List Record,
    (eraseTag t l).find? (fun r => r.desc.tag == u) = l.find? (fun r => r.desc.tag == u)
  | [] => rfl
  | y :: ys => by
    have ih := find_eraseTag_other t u h ys
    unfold eraseTag at ih ⊢
    by_cases hy : y.desc.tag = t
    · simp [hy, ih, Ne.symm h]
    · simp only [List.filter_cons, List.find?_cons, bne_iff_ne, ne_eq, hy, not_false_eq_true, if_true, ih]

theorem find_insertRecord (r : Record) (u : Tag) : ∀ l : List Record,
    (∀ x ∈ l, x.desc.tag ≠ r.desc.tag) →
    (insertRecord r l).find? (fun x => x.desc.tag == u) =
      if r.desc.tag = u then some r else l.find? (fun x => x.desc.tag == u)
  | [], _ => by by_cases h : r.desc.tag = u <;> simp [insertRecord, h]
  | y :: ys, hl => by
    have ih := find_insertRecord r u ys (fun x hx => hl x (List.mem_cons_of_mem _ hx))
    have hy := hl y List.mem_cons_self
    unfold insertRecord
    split
    · by_cases h : r.desc.tag = u <;> simp [h]
    · by_cases h : r.desc.tag = u
      · subst h
        simp [hy, ih]
      · by_cases k : y.desc.tag = u <;> simp [h, k, ih]

theorem eraseTag_none {t : Tag} {l : List Record} (h : l.find? (fun r => r.desc.tag == t) = none) : eraseTag t l = l := by
  rw [List.find?_eq_none] at h
  exact List.filter_eq_self.mpr (fun x hx => by simpa using h x hx)

theorem record_tag {s : State} {t : Tag} {r : Record} (h : s.record t = some r) :
    r.desc.tag = t ∧ r ∈ s.track.records :=
  ⟨by simpa using List.find?_some h, List.mem_of_find?_eq_some h⟩

/-- Two states with the same records hold the same record under each tag. -/
theorem record_congr {s t : State} (h : t.track.records = s.track.records) (u : Tag) : t.record u = s.record u := by
  unfold State.record
  rw [h]

/-! ## The own bid and its record -/

/-- From `s` to `t` the own bid may have ended, and its record may have gone; every other record stays. -/
structure OwnWithdrawn (s t : State) : Prop where
  tags : ∀ u, s.ownElsewhere u → t.ownElsewhere u
  record : ∀ u, s.ownElsewhere u → t.record u = s.record u
  sub : t.track.records.Sublist s.track.records
  kept : ∀ x ∈ s.track.records, s.ownElsewhere x.desc.tag → x ∈ t.track.records
  counter : t.track.counter = s.track.counter
  free : t.track.free = s.track.free

theorem OwnWithdrawn.refl (s : State) : OwnWithdrawn s s :=
  ⟨fun _ h => h, fun _ _ => rfl, List.Sublist.refl _, fun _ h _ => h, rfl, rfl⟩

theorem OwnWithdrawn.trans {s t u : State} (h : OwnWithdrawn s t) (k : OwnWithdrawn t u) : OwnWithdrawn s u where
  tags := fun v hv => k.tags v (h.tags v hv)
  record := fun v hv => (k.record v (h.tags v hv)).trans (h.record v hv)
  sub := k.sub.trans h.sub
  kept := fun x hx hv => k.kept x (h.kept x hx hv) (h.tags _ hv)
  counter := k.counter.trans h.counter
  free := k.free.trans h.free

/-- The track list stays, and the own bid stays, ends, or keeps its tag. -/
theorem OwnWithdrawn.of_track {s t : State} (h : t.track = s.track)
    (ho : ∀ o', t.bid.own = some o' → ∃ o, s.bid.own = some o ∧ o.desc.tag = o'.desc.tag) : OwnWithdrawn s t where
  tags := fun u hu o' h' => by
    obtain ⟨o, h1, h2⟩ := ho o' h'
    rw [← h2]
    exact hu o h1
  record := fun u _ => record_congr (by rw [h]) u
  sub := by rw [h]
  kept := fun x hx _ => by rwa [h]
  counter := by rw [h]
  free := by rw [h]

theorem OwnWithdrawn.of_same {s t : State} (h : t.track = s.track) (ho : t.bid.own = s.bid.own) : OwnWithdrawn s t :=
  OwnWithdrawn.of_track h (fun o' h' => ⟨o', ho ▸ h', rfl⟩)

theorem OwnWithdrawn.of_frame {l : List Block} {s t : State} (h : SameBut l s t) (ht : Block.track ∉ l)
    (hb : Block.bid ∉ l) : OwnWithdrawn s t :=
  OwnWithdrawn.of_same (h .track ht) (by rw [show t.bid = s.bid from h .bid hb])

theorem OwnWithdrawn.ite {s t u : State} {p : Prop} [Decidable p] (h : OwnWithdrawn s t) (k : OwnWithdrawn s u) :
    OwnWithdrawn s (if p then t else u) := by
  split
  · exact h
  · exact k

theorem OwnWithdrawn.foldl {α : Type} (f : State → α → State) (h : ∀ s a, OwnWithdrawn s (f s a)) :
    ∀ (as : List α) (s : State), OwnWithdrawn s (as.foldl f s)
  | [], s => OwnWithdrawn.refl s
  | a :: as, s => (h s a).trans (OwnWithdrawn.foldl f h as (f s a))

/-- The own bid that ended is NONE. -/
theorem endOwn_own (s : State) : (endOwn s).bid.own = none := by
  unfold endOwn
  split
  · assumption
  · unfold releasePosition
    dsimp only
    split <;> [split; skip] <;> rfl

/-- The bid engine after the own bid ended (R77, R89). -/
theorem endOwn_bid (s : State) (o : OwnBid) (h : s.bid.own = some o) :
    (endOwn s).bid = { s.bid with own := none, rivals := [] } := by
  unfold endOwn
  rw [h]
  unfold releasePosition
  dsimp only
  split <;> [split; skip] <;> rfl

theorem endOwn_none (s : State) (h : s.bid.own = none) : endOwn s = s := by
  unfold endOwn
  rw [h]

/-- The position that an ended bid served is no longer BIDDING (R107). -/
theorem endOwn_position (s : State) (o : OwnBid) (h : s.bid.own = some o) :
    ((endOwn s).feed.positions.get o.serves).state ≠ .bidding := by
  unfold endOwn
  rw [h]
  unfold releasePosition unloadPosition
  have get_set : ∀ (q : Quad Position) (i : Fin 4) (x : Position), (q.set i x).get i = x := by
    intro q i x
    fin_cases i <;> rfl
  dsimp only
  split
  · split
    · simp [State.setPosition, raise, get_set, Position.none]
    · simp [returnPosition, get_set]
  · assumption

/-- An ended bid whose position was BIDDING and unmarked leaves the mark of the instant (R107, R110, log 46). -/
theorem endOwn_returned (s : State) (o : OwnBid) (h : s.bid.own = some o)
    (hp : (s.feed.positions.get o.serves).state = .bidding)
    (hu : (s.feed.positions.get o.serves).unloading = false) :
    (endOwn s).feed.returned = some (o.serves, s.now) := by
  unfold endOwn releasePosition
  rw [h]
  simp [hp, hu, returnPosition]

/-- An own bid that ends leaves the event FIFO alone, unless the position it served is being unloaded (R109). -/
theorem endOwn_fifo (s : State) (h : ∀ o, s.bid.own = some o → (s.feed.positions.get o.serves).unloading = false) :
    (endOwn s).fifo = s.fifo := by
  unfold endOwn
  split
  · rfl
  · rename_i o ho
    unfold releasePosition
    dsimp only
    have := h o ho
    split
    · rw [if_neg (by simpa using this)]
      rfl
    · rfl

theorem endOwn_withdrawn (s : State) : OwnWithdrawn s (endOwn s) :=
  OwnWithdrawn.of_track (endOwn_frame s .track (by decide)) (fun o' h => by rw [endOwn_own] at h; cases h)

theorem handDropped_withdrawn (m : Msg) (s : State) : OwnWithdrawn s (handDropped m s) := by
  unfold handDropped
  split
  · exact OwnWithdrawn.ite ((endOwn_withdrawn s).trans (OwnWithdrawn.of_frame (raise_frame _ _) (by decide) (by decide)))
      (OwnWithdrawn.refl s)
  · exact OwnWithdrawn.refl s

theorem setOutbox_withdrawn (l : List Entry) (s : State) : OwnWithdrawn s (s.setOutbox l) :=
  OwnWithdrawn.of_same rfl rfl

theorem raise_withdrawn (e : Event) (s : State) : OwnWithdrawn s (raise e s) := OwnWithdrawn.of_same rfl rfl

theorem enqueue_withdrawn (m : Msg) (s : State) : OwnWithdrawn s (enqueue m s) := by
  have drop : ∀ (e : Event) (m : Msg) (t : State), OwnWithdrawn t (handDropped m (raise e t)) :=
    fun e m t => (raise_withdrawn e t).trans (handDropped_withdrawn m _)
  unfold enqueue
  split
  · exact OwnWithdrawn.ite (setOutbox_withdrawn _ s) (OwnWithdrawn.of_same rfl rfl)
  · exact OwnWithdrawn.ite (setOutbox_withdrawn _ s) (drop _ _ s)
  · exact OwnWithdrawn.ite (setOutbox_withdrawn _ s) (drop _ _ s)
  · exact OwnWithdrawn.ite (setOutbox_withdrawn _ s) (drop _ _ s)
  · exact OwnWithdrawn.ite (setOutbox_withdrawn _ s) (OwnWithdrawn.refl s)
  · unfold enqueueFirst
    dsimp only
    split
    · exact setOutbox_withdrawn _ s
    · split
      · exact setOutbox_withdrawn _ s
      · split
        · exact (setOutbox_withdrawn _ s).trans (drop _ _ _)
        · exact raise_withdrawn _ s

/-! ## Removal (R32, R52, R53) -/

/-- A removal leaves the list without the tag, and the counters as they are. -/
theorem dropRecord_track (tag : Tag) (s : State) :
    (dropRecord tag s).track = { s.track with records := eraseTag tag s.track.records } := by
  unfold dropRecord
  split
  · rename_i h
    rw [eraseTag_none h]
  · rw [noteChange_frame _ _ .track (by decide), losePlaced_frame _ _ .track (by decide),
      forgetTag_frame _ _ .track (by decide), relieveTrack_frame _ .track (by decide)]
    rfl

theorem losePlaced_bid (tag : Tag) (s : State) : (losePlaced tag s).bid = s.bid := losePlaced_frame tag s .bid (by decide)

/-- A removal changes no more of the bid engine than the rival list, the TRACK_FULL cause and the mark of a change. -/
theorem dropRecord_own (tag : Tag) (s : State) : (dropRecord tag s).bid.own = s.bid.own := by
  unfold dropRecord noteChange
  split
  · rfl
  · dsimp only
    split <;> simp only [planAgain, State.setOutfeed_bid, State.setBid_bid, losePlaced_bid] <;>
      unfold forgetTag dropRival relieveTrack <;> split <;> rfl

theorem dropRecord_self (tag : Tag) (s : State) : (dropRecord tag s).record tag = none := by
  unfold State.record
  rw [dropRecord_track]
  exact find_eraseTag_self tag _

theorem dropRecord_other (tag u : Tag) (h : u ≠ tag) (s : State) : (dropRecord tag s).record u = s.record u := by
  unfold State.record
  rw [dropRecord_track]
  exact find_eraseTag_other tag u h _

/-- The bid engine's own removal takes the record under its tag exactly where its own flag is set (R48). -/
theorem dropOwnRecord_self (tag : Tag) (s : State) :
    (dropOwnRecord tag s).record tag = (s.record tag).filter (fun r => !r.own) := by
  unfold dropOwnRecord
  cases h : s.record tag with
  | none => simpa using h
  | some r => cases ho : r.own <;> simp [ho, h, dropRecord_self, Option.filter]

theorem dropOwnRecord_own (tag : Tag) (s : State) : (dropOwnRecord tag s).bid.own = s.bid.own := by
  unfold dropOwnRecord
  split
  · exact dropRecord_own tag s
  · rfl

/-- The removal under the own bid's tag touches no other record. -/
theorem dropRecord_withdrawn (o : OwnBid) (s : State) (h : s.bid.own = some o) :
    OwnWithdrawn s (dropRecord o.desc.tag s) where
  tags := fun u hu o' h' => hu o' (by rwa [dropRecord_own] at h')
  record := fun u hu => dropRecord_other _ u (fun e => hu o h e.symm) s
  sub := by
    rw [dropRecord_track]
    exact List.filter_sublist
  kept := fun x hx hu => by
    rw [dropRecord_track]
    exact (mem_eraseTag _ _ _).mpr ⟨hx, fun e => hu o h e.symm⟩
  counter := by rw [dropRecord_track]
  free := by rw [dropRecord_track]

theorem dropOwnRecord_withdrawn (o : OwnBid) (s : State) (h : s.bid.own = some o) :
    OwnWithdrawn s (dropOwnRecord o.desc.tag s) :=
  OwnWithdrawn.ite (dropRecord_withdrawn o s h) (OwnWithdrawn.refl s)

/-! ## Recall (R95) -/

theorem cancelBid_withdrawn (s : State) : OwnWithdrawn s (cancelBid s) := OwnWithdrawn.of_same rfl rfl

/-- A handed message leaves the own bid, unless a dropped SIGHTING SEEN confirmed a FIRED one (R98, R157). -/
theorem enqueue_own (m : Msg) (s : State) (o : OwnBid) (h : s.bid.own = some o) (hf : o.state ≠ .fired) :
    (enqueue m s).bid.own = some o := by
  have drop : ∀ (m : Msg) (t : State), t.bid.own = some o → (handDropped m t).bid.own = some o := by
    intro m t ht
    have hn : ∀ g, t.ownIs .fired g = false := by
      intro g
      unfold State.ownIs
      rw [ht]
      cases hs : o.state <;> simp_all
    unfold handDropped
    split
    · rw [if_neg (by rw [hn]; decide)]
      exact ht
    · exact ht
  unfold enqueue enqueueFirst
  split
  · split <;> exact h
  · split
    · exact h
    · exact drop _ _ h
  · split
    · exact h
    · exact drop _ _ h
  · split
    · exact h
    · exact drop _ _ h
  · split <;> exact h
  · dsimp only
    split
    · exact h
    · split
      · exact h
      · split
        · exact drop _ _ h
        · exact h

theorem recallOwn_withdrawn (code : Nat) (a : Option Int) (s : State) : OwnWithdrawn s (recallOwn code a s) := by
  unfold recallOwn
  split
  · exact OwnWithdrawn.refl s
  · rename_i o ho
    have landing : o.state ≠ .fired → OwnWithdrawn s
        (raise (recalledEvent o code a) (endOwn (dropOwnRecord o.desc.tag (enqueue (.recall o.desc.tag) s)))) := by
      intro hf
      refine OwnWithdrawn.trans ?_ (raise_withdrawn _ _)
      refine OwnWithdrawn.trans ?_ (endOwn_withdrawn _)
      exact (enqueue_withdrawn _ s).trans (dropOwnRecord_withdrawn o _ (enqueue_own _ s o ho hf))
    split
    · split
      · exact OwnWithdrawn.refl s
      · split
        · exact OwnWithdrawn.of_track rfl (fun o' h' => ⟨o, ho, by cases h'; rfl⟩)
        · exact ((raise_withdrawn _ s).trans (cancelBid_withdrawn _)).trans (endOwn_withdrawn _)
    · rename_i hs
      exact landing (by rw [hs]; decide)
    · rename_i hs
      exact landing (by rw [hs]; decide)
    · exact OwnWithdrawn.refl s

theorem holdJoin_withdrawn (c : HoldCause) (s : State) : OwnWithdrawn s (holdJoin c s) :=
  OwnWithdrawn.ite (OwnWithdrawn.refl s)
    ((OwnWithdrawn.of_same rfl rfl : OwnWithdrawn s (putHold c true s)).trans (recallOwn_withdrawn _ _ _))

theorem endRequest_withdrawn (i : Fin 4) (s : State) : OwnWithdrawn s (endRequest i s) := by
  have h : OwnWithdrawn s (s.setBid { s.bid with request := none, retry := none }) := OwnWithdrawn.of_same rfl rfl
  exact OwnWithdrawn.ite (h.trans (recallOwn_withdrawn _ _ _)) h

theorem withdrawSpacer_withdrawn (i : Fin 4) (s : State) : OwnWithdrawn s (withdrawSpacer i s) :=
  OwnWithdrawn.ite ((OwnWithdrawn.of_same rfl rfl : OwnWithdrawn s (dropRequest i s)).trans (endRequest_withdrawn _ _))
    (OwnWithdrawn.of_same rfl rfl)

theorem endPieceGone_withdrawn (tag : Tag) (s : State) : OwnWithdrawn s (endPieceGone tag s) :=
  OwnWithdrawn.foldl _ (fun t i => OwnWithdrawn.ite (withdrawSpacer_withdrawn i t) (OwnWithdrawn.refl t)) _ _

theorem recheck_withdrawn (tag : Tag) (s : State) : OwnWithdrawn s (recheck tag s) := by
  unfold recheck
  split
  · exact OwnWithdrawn.ite (recallOwn_withdrawn _ _ _) (OwnWithdrawn.refl s)
  · exact OwnWithdrawn.refl s

theorem unconfirm_withdrawn (tag : Tag) (code : Nat) (s : State) : OwnWithdrawn s (unconfirm tag code s) :=
  OwnWithdrawn.ite ((endOwn_withdrawn s).trans (raise_withdrawn _ _)) (OwnWithdrawn.refl s)

/-! ## Changes and filing (R33, R40, R42, R51) -/

theorem noteChange_withdrawn (lanes : Lanes) (s : State) : OwnWithdrawn s (noteChange lanes s) := by
  refine OwnWithdrawn.of_same (noteChange_frame lanes s .track (by decide)) ?_
  unfold noteChange
  dsimp only
  split <;> rfl

theorem forgetTag_withdrawn (tag : Tag) (s : State) : OwnWithdrawn s (forgetTag tag s) :=
  OwnWithdrawn.of_same (forgetTag_frame tag s .track (by decide)) rfl

/-- The list with a record replaced holds it under its tag, and every other record as it was. -/
theorem setRecords_replace (r : Record) (s : State) (u : Tag) :
    (s.setRecords (replaceRecord r s.track.records)).record u = if r.desc.tag = u then some r else s.record u := by
  have := find_insertRecord r u (eraseTag r.desc.tag s.track.records) (fun x hx => ((mem_eraseTag _ _ _).mp hx).2)
  unfold State.record
  change (insertRecord r (eraseTag r.desc.tag s.track.records)).find? _ = _
  rw [this]
  split
  · rfl
  · rename_i hu
    exact find_eraseTag_other _ u (fun e => hu e.symm) _

/-- A record put in the list by `f` stands there, and no other record is touched but an own bid's, where `f` withdraws no
more than the own bid after it replaced the record. -/
theorem replaced_spec {r : Record} {s t : State} (h : s.ownElsewhere r.desc.tag)
    (w : OwnWithdrawn (s.setRecords (replaceRecord r s.track.records)) t) :
    t.record r.desc.tag = some r ∧ (∀ u, u ≠ r.desc.tag → s.ownElsewhere u → t.record u = s.record u) := by
  refine ⟨(w.record _ h).trans (by rw [setRecords_replace, if_pos rfl]), fun u hu ho => (w.record _ ho).trans ?_⟩
  rw [setRecords_replace, if_neg (fun e => hu e.symm)]

/-- A changed record stands in the list with its new content, and no other record is touched but an own bid's. -/
theorem changeRecord_spec (old r : Record) (s : State) (h : s.ownElsewhere r.desc.tag) :
    (changeRecord old r s).record r.desc.tag = some r
      ∧ (∀ u, u ≠ r.desc.tag → s.ownElsewhere u → (changeRecord old r s).record u = s.record u) := by
  have k := OwnWithdrawn.ite (p := old.altered s.line.highWater r = true)
    (noteChange_withdrawn r.desc.lanes (s.setRecords (replaceRecord r s.track.records))) (OwnWithdrawn.refl _)
  exact replaced_spec h (OwnWithdrawn.ite (k.trans (recheck_withdrawn _ _)) k)

/-- A record put in the place of a held one stands in the list, and no other record is touched but an own bid's. -/
theorem putRecord_spec (r : Record) (s : State) (h : s.ownElsewhere r.desc.tag) :
    (putRecord r s).record r.desc.tag = some r
      ∧ (∀ u, u ≠ r.desc.tag → s.ownElsewhere u → (putRecord r s).record u = s.record u) :=
  replaced_spec h ((noteChange_withdrawn _ _).trans (recheck_withdrawn _ _))

/-- A record under a new tag stands in the list, and no other record is touched but an own bid's. -/
theorem insertNew_spec (r : Record) (s : State) (hn : s.record r.desc.tag = none) (h : s.ownElsewhere r.desc.tag) :
    (insertNew r s).record r.desc.tag = some r
      ∧ (∀ u, u ≠ r.desc.tag → s.ownElsewhere u → (insertNew r s).record u = s.record u) := by
  have hx : ∀ x ∈ s.track.records, x.desc.tag ≠ r.desc.tag := by
    intro x hx
    have := List.find?_eq_none.mp hn x hx
    simpa using this
  have a : ∀ u, (s.setRecords (insertRecord r s.track.records)).record u =
      if r.desc.tag = u then some r else s.record u := fun u => find_insertRecord r u _ hx
  have w := (noteChange_withdrawn r.desc.lanes (s.setRecords (insertRecord r s.track.records))).trans
    (recheck_withdrawn r.desc.tag _)
  unfold insertNew
  refine ⟨(w.record _ h).trans (by rw [a, if_pos rfl]), fun u hu ho => (w.record _ ho).trans ?_⟩
  rw [a, if_neg (fun e => hu e.symm)]

/-- A filed record stands in the list: it has replaced the held one, or the list had room (R32, R40). -/
theorem fileRecord_spec (r : Record) (k : Nat) (s : State) (h : s.ownElsewhere r.desc.tag)
    (room : (s.record r.desc.tag).isSome = true ∨ s.track.records.length < Config.trackCapacity) :
    (fileRecord r k s).record r.desc.tag = some r
      ∧ (∀ u, u ≠ r.desc.tag → s.ownElsewhere u → (fileRecord r k s).record u = s.record u) := by
  unfold fileRecord
  cases hr : s.record r.desc.tag with
  | some old =>
    have e : old.desc.tag = r.desc.tag := (record_tag hr).1
    have w := ((noteChange_withdrawn old.desc.lanes s).trans (forgetTag_withdrawn old.desc.tag _)).trans
      (endPieceGone_withdrawn old.desc.tag _)
    have c := putRecord_spec r _ (w.tags _ h)
    dsimp only
    unfold replaceWhole
    exact ⟨c.1, fun u hu ho => (c.2 u hu (w.tags _ ho)).trans (w.record _ ho)⟩
  | none =>
    have : s.track.records.length < Config.trackCapacity := by simpa [hr] using room
    dsimp only
    rw [if_pos this]
    exact insertNew_spec r s hr h

/-- A removed record is gone, and no other record is touched but an own bid's (R44, R140). -/
theorem removeRecord_spec (tag : Tag) (s : State) :
    (∀ x ∈ (removeRecord tag s).track.records, x ∈ s.track.records ∧ x.desc.tag ≠ tag)
      ∧ (∀ u, u ≠ tag → s.ownElsewhere u → (removeRecord tag s).record u = s.record u)
      ∧ (∀ x ∈ s.track.records, x.desc.tag ≠ tag → s.ownElsewhere x.desc.tag → x ∈ (removeRecord tag s).track.records) := by
  have w := endPieceGone_withdrawn tag (dropRecord tag s)
  have own : ∀ u, s.ownElsewhere u → (dropRecord tag s).ownElsewhere u := fun u hu o ho => hu o (by rwa [dropRecord_own] at ho)
  refine ⟨fun x hx => ?_, fun u hu ho => ?_, fun x hx hu ho => ?_⟩
  · have := w.sub.subset hx
    rw [dropRecord_track] at this
    exact (mem_eraseTag _ _ _).mp this
  · exact (w.record u (own u ho)).trans (dropRecord_other tag u hu s)
  · refine w.kept x ?_ (own _ ho)
    rw [dropRecord_track]
    exact (mem_eraseTag _ _ _).mpr ⟨hx, hu⟩

theorem removeRecord_self (tag : Tag) (s : State) : (removeRecord tag s).record tag = none := by
  unfold State.record
  rw [List.find?_eq_none]
  intro x hx
  simpa using ((removeRecord_spec tag s).1 x hx).2

end Sys2Proof.Machine
end

