-- ==== Sys2Proof/Laws/Holding.lean ====
section
/-! SUPPORT. What a hold cause does to the own bid, said once: `holdJoin_held` for the bid, its record, the outbox and the
position, `holdJoin_fifo` for the event, and `HeldBack.finish` for the end of the step. -/

namespace Sys2Proof.Machine

/-- A dropped message confirms nothing where the own bid is not FIRED (R98). -/
theorem handDropped_unfired (m : Msg) (s : State) (h : ∀ o, s.bid.own = some o → o.state ≠ .fired) :
    handDropped m s = s := by
  have hn : ∀ g, s.ownIs .fired g = false := by
    intro g
    unfold State.ownIs
    split
    · rename_i o ho
      simp [h o ho]
    · rfl
  unfold handDropped
  split
  · rw [if_neg (by rw [hn]; decide)]
  · rfl

/-- A message of class 0 takes a free entry as the youngest (R155). -/
theorem enqueueFirst_room (m : Msg) (s : State) (h : s.roomFirst) :
    enqueueFirst m s = s.setOutbox (s.link.outbox ++ [Entry.fresh m]) := if_pos h

/-- Where the own bid is not FIRED, a message of class 0 touches the outbox and the event FIFO alone (R155). -/
theorem enqueueFirst_unfired (m : Msg) (s : State) (h : ∀ o, s.bid.own = some o → o.state ≠ .fired) :
    SameBut [.link, .fifo] s (enqueueFirst m s) := by
  unfold enqueueFirst
  dsimp only
  split
  · exact (setOutbox_frame _ _).widen (by decide)
  · split
    · exact (setOutbox_frame _ _).widen (by decide)
    · split
      · rw [handDropped_unfired _ _ (by exact h)]
        exact (setOutbox_frame _ _).then (raise_frame _ _) (by decide) (by decide)
      · exact (raise_frame _ _).widen (by decide)

/-- The positions after the own bid ended: the one it served is LOADED again, or EMPTY where it was marked (R107, R109). -/
theorem endOwn_positions (s : State) (o : OwnBid) (h : s.bid.own = some o) :
    (endOwn s).feed.positions =
      (if (s.feed.positions.get o.serves).state = .bidding then
        s.feed.positions.set o.serves (if (s.feed.positions.get o.serves).unloading = true then Position.none
          else { s.feed.positions.get o.serves with state := .loaded })
      else s.feed.positions) := by
  unfold endOwn
  rw [h]
  unfold releasePosition
  dsimp only [State.setBid_feed]
  split
  · split <;> rfl
  · rfl

/-- The bid engine's own removal takes its record from the list and touches no other (R48). -/
theorem dropOwnRecord_records (tag : Tag) (s : State) :
    (dropOwnRecord tag s).track.records =
      (if (s.record tag).any (fun r => r.own) = true then s.track.records.filter (fun r => r.desc.tag != tag)
        else s.track.records) := by
  unfold dropOwnRecord
  split
  · rw [dropRecord_track]
    rfl
  · rfl

/-- The state before the RECALLED of a landing bid is raised, as `recallOwn` builds it (R95). -/
theorem recallLanding_spec (s : State) (o : OwnBid) (h : s.bid.own = some o) (hf : o.state ≠ .fired) :
    let t := dropOwnRecord o.desc.tag (enqueue (.recall o.desc.tag) s)
    t.bid.own = some o ∧ t.feed = s.feed ∧ t.store = s.store
      ∧ t.track.records = (if (s.record o.desc.tag).any (fun r => r.own) = true then
          s.track.records.filter (fun r => r.desc.tag != o.desc.tag) else s.track.records)
      ∧ (s.roomFirst → t.link.outbox = s.link.outbox ++ [Entry.fresh (.recall o.desc.tag)] ∧ t.fifo = s.fifo) := by
  have hu : ∀ x, s.bid.own = some x → x.state ≠ .fired := by
    intro x hx
    rw [h] at hx
    cases hx
    exact hf
  have e : SameBut [.link, .fifo] s (enqueue (.recall o.desc.tag) s) := enqueueFirst_unfired _ s hu
  have d := dropOwnRecord_frame o.desc.tag (enqueue (.recall o.desc.tag) s)
  have et : (enqueue (.recall o.desc.tag) s).track = s.track := e .track (by decide)
  refine ⟨?_, ?_, ?_, ?_, fun room => ?_⟩
  · rw [dropOwnRecord_own]
    exact enqueue_own _ s o h hf
  · exact (d .feed (by decide)).trans (e .feed (by decide))
  · exact (d .store (by decide)).trans (e .store (by decide))
  · rw [dropOwnRecord_records, et, show (enqueue (.recall o.desc.tag) s).record o.desc.tag = s.record o.desc.tag from
      record_congr (by rw [et]) _]
  · have r : enqueue (.recall o.desc.tag) s = s.setOutbox (s.link.outbox ++ [Entry.fresh (.recall o.desc.tag)]) :=
      enqueueFirst_room _ s room
    refine ⟨(congrArg LinkController.outbox (d .link (by decide))).trans ?_, (d .fifo (by decide)).trans ?_⟩ <;> rw [r] <;>
      rfl

/-- The BID of the own bid can be withdrawn at once exactly where `recallOwn` ends it at once (R95, R156). -/
theorem bidWaits_iff (s : State) : s.bidWaits ↔ ¬ ((s.link.waitingBid.isNone && s.bidSending) = true) := by
  unfold State.bidWaits State.bidSending
  cases s.link.waitingBid <;> simp

/-- A recall leaves the own bid, its record, the outbox and the position it served as a hold cause leaves them (R81, R95). -/
theorem recallOwn_held (code : Nat) (s : State) (o : OwnBid) (h : s.bid.own = some o) :
    HeldBack s (recallOwn code none s) o := by
  unfold recallOwn
  rw [h]
  dsimp only
  have landing : o.state = .settling ∨ o.state = .granted → HeldBack s
      (raise (recalledEvent o code none) (endOwn (dropOwnRecord o.desc.tag (enqueue (.recall o.desc.tag) s)))) o := by
    intro hs
    have hf : o.state ≠ .fired := by rcases hs with hs | hs <;> rw [hs] <;> decide
    obtain ⟨ho, feed, -, records, room⟩ := recallLanding_spec s o h hf
    have en := endOwn_frame (dropOwnRecord o.desc.tag (enqueue (.recall o.desc.tag) s))
    refine ⟨fun _ => ⟨endOwn_own _, ?_, fun hr => ?_⟩, ?_, ?_, ?_, ?_⟩
    · exact (congrArg TrackList.records (en .track (by decide))).trans records
    · exact (congrArg LinkController.outbox (en .link (by decide))).trans (room hr).1
    · intro hq
      rcases hs with hs | hs <;> rw [hs] at hq <;> cases hq
    · intro hq
      rcases hs with hs | hs <;> rw [hs] at hq <;> cases hq
    · intro hq
      rcases hs with hs | hs <;> rw [hs] at hq <;> simp at hq
    · have p := endOwn_positions _ o ho
      rw [feed] at p
      refine Eq.trans p ?_
      have : (raise (recalledEvent o code none)
          (endOwn (dropOwnRecord o.desc.tag (enqueue (.recall o.desc.tag) s)))).bid.own = none := endOwn_own _
      simp only [this, true_and]
  split
  · rename_i hs
    split
    · rename_i hc
      refine ⟨?_, ?_, ?_, fun _ => ⟨h, rfl, rfl⟩, ?_⟩
      · rw [hs]; simp
      · intro _ k; rw [hc] at k; cases k
      · intro _ k; rw [hc] at k; cases k
      · simp [h]
    · split
      · rename_i hc hw
        refine ⟨?_, ?_, fun _ _ _ => ⟨rfl, rfl, rfl⟩, ?_, ?_⟩
        · rw [hs]; simp
        · intro _ _ k; exact absurd hw ((bidWaits_iff s).mp k)
        · rw [hs]; simp [hc]
        · simp [markCancelling, State.setOutbox, State.setLink, State.setBid, raise, State.setFifo]
      · rename_i hc hw
        have en := endOwn_frame (cancelBid (raise (recalledEvent o code none) s))
        refine ⟨?_, fun _ _ _ => ⟨endOwn_own _, ?_, ?_, ?_⟩, ?_, ?_, ?_⟩
        · rw [hs]; simp
        · exact congrArg TrackList.records (en .track (by decide))
        · exact congrArg LinkController.waitingBid (en .link (by decide))
        · exact congrArg LinkController.outbox (en .link (by decide))
        · intro _ _ k; exact absurd ((bidWaits_iff s).mpr hw) k
        · rw [hs]; simp [hc]
        · rw [endOwn_positions _ o (by exact h)]
          simp only [endOwn_own, true_and]
          rfl
  · rename_i hs
    exact landing (.inl hs)
  · rename_i hs
    exact landing (.inr hs)
  · rename_i hs
    refine ⟨?_, ?_, ?_, fun _ => ⟨h, rfl, rfl⟩, ?_⟩
    · rw [hs]; simp
    · rw [hs]; simp
    · rw [hs]; simp
    · simp [h]

/-- The events of a recall by a hold cause, where the position served is unmarked and the RECALL finds an entry (R81). -/
theorem recallOwn_heldEvents (code : Nat) (s : State) (o : OwnBid) (h : s.bid.own = some o)
    (hu : (s.feed.positions.get o.serves).unloading = false) (room : s.recallFits o) :
    (recallOwn code none s).fifo = s.withEvents (o.heldEvents code) := by
  have one : ∀ t : State, t.fifo = s.fifo → t.store = s.store →
      (raise (recalledEvent o code none) t).fifo = s.withEvents [o.recalled code] := by
    intro t hf hst
    change t.fifo.enter t.store.station.mode _ = _
    rw [hf, hst]
    rfl
  have landing : o.state = .settling ∨ o.state = .granted →
      (raise (recalledEvent o code none)
        (endOwn (dropOwnRecord o.desc.tag (enqueue (.recall o.desc.tag) s)))).fifo = s.withEvents [o.recalled code] := by
    intro hs
    have hf : o.state ≠ .fired := by rcases hs with hs | hs <;> rw [hs] <;> decide
    obtain ⟨ho, feed, store, -, fits⟩ := recallLanding_spec s o h hf
    have en := endOwn_frame (dropOwnRecord o.desc.tag (enqueue (.recall o.desc.tag) s))
    refine one _ ?_ ((en .store (by decide)).trans store)
    refine Eq.trans (endOwn_fifo _ (fun o' h' => ?_)) (fits (room hs)).2
    rw [ho] at h'
    cases h'
    rw [feed]
    exact hu
  unfold recallOwn OwnBid.heldEvents
  rw [h]
  dsimp only
  split
  · rename_i hs
    cases hc : o.cancelling with
    | true => simp [hs]; rfl
    | false =>
      have e : ¬ (BidState.queued = .fired ∨ (BidState.queued = .queued ∧ false = true)) := by simp
      rw [if_neg (by decide), hs, if_neg e]
      split
      · exact one s rfl rfl
      · refine Eq.trans (endOwn_fifo _ (fun o' h' => ?_)) (one s rfl rfl)
        have : s.bid.own = some o' := h'
        rw [h] at this
        cases this
        exact hu
  · rename_i hs
    rw [if_neg (by rw [hs]; simp)]
    exact landing (.inl hs)
  · rename_i hs
    rw [if_neg (by rw [hs]; simp)]
    exact landing (.inr hs)
  · rename_i hs
    rw [if_pos (.inl hs)]
    rfl

/-- A cause that joins the hold set holds the own bid back (R81). -/
theorem holdJoin_held (c : HoldCause) (s : State) (o : OwnBid) (h : s.bid.own = some o) (hc : s.bid.hold.has c = false) :
    HeldBack s (holdJoin c s) o := by
  unfold holdJoin
  rw [hc]
  exact { recallOwn_held c.code (putHold c true s) o h with }

/-- The events of a cause that joins the hold set (R81). -/
theorem holdJoin_fifo (c : HoldCause) (s : State) (o : OwnBid) (h : s.bid.own = some o) (hc : s.bid.hold.has c = false)
    (hu : (s.feed.positions.get o.serves).unloading = false) (room : s.recallFits o) :
    (holdJoin c s).fifo = s.withEvents (o.heldEvents c.code) := by
  unfold holdJoin
  rw [hc]
  exact recallOwn_heldEvents c.code (putHold c true s) o h hu room

/-- A station that is held, or has an own bid, keeps its records, its outbox, its own bid and its positions to the end of
the step, so that what a hold cause has left stands (R78, R81). -/
theorem HeldBack.finish {s t : State} {o : OwnBid} (k : HeldBack s t o) (h : t.bid.hold.any = true ∨ t.bid.own ≠ none) :
    HeldBack s (finish t) o := by
  have idle := finish_idle t (fun e => h.elim (fun a => by rw [a] at e; exact absurd e.2.1 (by decide)) (fun a => a e.2.2))
  have f := idle.2.2.2
  have ho : (Machine.finish t).bid.own = t.bid.own := idle.1
  have tr : (Machine.finish t).track = t.track := f .track (by decide)
  have li : (Machine.finish t).link = t.link := f .link (by decide)
  have fe : (Machine.finish t).feed = t.feed := f .feed (by decide)
  constructor
  · rw [ho, tr, li]; exact k.landing
  · rw [ho, tr, li]; exact k.waiting
  · rw [ho, tr, li]; exact k.sending
  · rw [ho, tr, li]; exact k.untouched
  · rw [ho, fe]; exact k.position

end Sys2Proof.Machine
end

