-- ==== Sys2Proof/Laws/Acceptance.lean ====
section
/-! SUPPORT. What the acceptance of a frame does before and after its message, said once: `accept_hears` and
`acceptPeer_known` for a frame of another station, `accept_hearsOwn` for the station's own. -/

namespace Sys2Proof.Machine

/-- What a message reaches at its acceptance. -/
abbrev messageBlocks : List Block := [.track, .eye, .bid, .feed, .width, .throat, .outfeed, .link, .fifo]

/-! ## Frames of the messages -/

theorem countMiss_frame (r : Record) (n : Nat) (s : State) : SameBut listBlocks s (countMiss r n s) :=
  SameBut.ite
    (((raise_frame _ s).then (removeRecord_frame _ _) (by decide) (by decide)).trans
      ((unconfirm_frame _ _ _).widen (by decide)))
    ((setRecords_frame _ _).widen (by decide))

theorem missedEffect_frame (tag : Tag) (n : Nat) (s : State) : SameBut listBlocks s (missedEffect tag n s) := by
  unfold missedEffect
  split
  · exact SameBut.ite (SameBut.refl _ s) (countMiss_frame _ _ _)
  · exact SameBut.refl _ s

theorem withdrawEffect_frame (tag : Tag) (n : Nat) (s : State) : SameBut listBlocks s (withdrawEffect tag n s) :=
  SameBut.ite (removeRecord_frame _ _) (SameBut.refl _ s)

theorem jamEffect_frame (n : Nat) (s : State) : SameBut listBlocks s (jamEffect n s) :=
  SameBut.ite (SameBut.refl _ s)
    (((setBid_frame s _).then (raise_frame _ _) (by decide) (by decide)).trans (holdJoin_frame _ _))

theorem jamReleaseEffect_frame (n : Nat) (s : State) : SameBut [.bid, .fifo] s (jamReleaseEffect n s) :=
  SameBut.ite
    (((setBid_frame s _).then (raise_frame _ _) (by decide) (by decide)).trans
      (SameBut.ite ((holdLeave_frame _ _).widen (by decide)) (SameBut.refl _ _)))
    (SameBut.refl _ s)

theorem takeFree_frame (used : Bool) (s : State) : SameBut [.track] s (takeFree used s) :=
  SameBut.ite (setTrack_frame _ _) (SameBut.refl _ s)

theorem fileSeen_frame (d : Desc) (tl : Count) (m n : Nat) (s : State) : SameBut listBlocks s (fileSeen d tl m n s) := by
  unfold fileSeen
  split
  · exact SameBut.ite (SameBut.refl _ s) ((takeFree_frame _ _).then (changeRecord_frame _ _ _) (by decide) (by decide))
  · exact SameBut.ite (SameBut.refl _ s) ((takeFree_frame _ _).then (fileRecord_frame _ _ _) (by decide) (by decide))

theorem seenBid_frame (d : Desc) (m n : Nat) (s : State) : SameBut [.bid, .feed, .fifo] s (seenBid d m n s) :=
  SameBut.ite
    (SameBut.ite ((endOwn_frame s).then (raise_frame _ _) (by decide) (by decide)) (SameBut.refl _ s))
    (SameBut.ite ((setBid_frame _ _).widen (by decide)) (SameBut.refl _ s))

theorem seenEffect_frame (d : Desc) (tl : Count) (m n : Nat) (s : State) : SameBut listBlocks s (seenEffect d tl m n s) :=
  (fileSeen_frame d tl m n s).trans ((seenBid_frame _ _ _ _).widen (by decide))

theorem strayEffect_frame (d : Desc) (tl : Count) (n : Nat) (s : State) : SameBut listBlocks s (strayEffect d tl n s) := by
  unfold strayEffect
  split
  · exact SameBut.ite (changeRecord_frame _ _ _) (fileRecord_frame _ _ _)
  · exact fileRecord_frame _ _ _

theorem beaten_frame (o : OwnBid) (owner code : Nat) (s : State) : SameBut listBlocks s (beaten o owner code s) :=
  ((((setBid_frame s _).then (enqueue_frame _ _) (n := listBlocks) (by decide) (by decide)).trans
    ((dropOwnRecord_frame _ _).widen (by decide))).trans ((endOwn_frame _).widen (by decide))).trans
      ((raise_frame _ _).widen (by decide))

theorem settleEnds_frame (o : OwnBid) (l : List Rival) (s : State) : SameBut listBlocks s (settleEnds o l s) := by
  unfold settleEnds
  split
  · exact beaten_frame _ _ _ _
  · split
    · exact recallOwn_frame _ _ _
    · exact SameBut.ite (recallOwn_frame _ _ _)
        (SameBut.ite (recallOwn_frame _ _ _) ((setBid_frame _ _).widen (by decide)))

theorem fileOwn_frame (r : Record) (s : State) : SameBut listBlocks s (fileOwn r s) := by
  unfold fileOwn
  split
  · exact replaceWhole_frame _ _ _
  · exact SameBut.ite (insertNew_frame _ _) (SameBut.ite (SameBut.refl _ s)
      ((raise_frame _ s).then (putHold_frame _ _ _) (by decide) (by decide)))

theorem acceptOrphan_frame (d : Desc) (tl : Count) (s : State) : SameBut listBlocks s (acceptOrphan d tl s) := by
  unfold acceptOrphan
  refine SameBut.trans ?_ ((dropOwnRecord_frame _ _).widen (by decide))
  refine SameBut.trans ?_ ((enqueue_frame _ _).widen (by decide))
  refine SameBut.trans (fileRecord_frame (bidRecord d tl s.number true false) 1 s) ?_
  split
  · exact SameBut.ite ((endOwn_frame _).widen (by decide)) (SameBut.refl _ _)
  · exact SameBut.refl _ _

theorem acceptOwnBid_frame (d : Desc) (tl : Count) (s : State) : SameBut listBlocks s (acceptOwnBid d tl s) := by
  unfold acceptOwnBid
  split
  · exact SameBut.ite
      (((setBid_frame s _).then (fileOwn_frame _ _) (by decide) (by decide)).trans (settleEnds_frame _ _ _))
      (acceptOrphan_frame _ _ _)
  · exact acceptOrphan_frame _ _ _

theorem purgeOwn_frame (s : State) : SameBut [.bid, .feed, .fifo] s (purgeOwn s) := by
  unfold purgeOwn
  split
  · exact SameBut.refl _ s
  · exact SameBut.ite ((setBid_frame _ _).widen (by decide)) (endOwn_frame s)

theorem purgeAll_frame (n : Nat) (s : State) : SameBut messageBlocks s (purgeAll n s) := by
  have rb : ∀ t : State, SameBut [.throat] t (rebase t) := fun t => SameBut.ite (setThroat_frame _ _) (SameBut.refl _ t)
  unfold purgeAll
  refine SameBut.trans ?_ ((rb _).widen (by decide))
  refine SameBut.trans ?_ ((setThroat_frame _ _).widen (by decide))
  refine SameBut.trans ?_ ((setOutfeed_frame _ _).widen (by decide))
  refine SameBut.trans ?_ ((setWidth_frame _ _).widen (by decide))
  refine SameBut.trans ?_ ((setBid_frame _ _).widen (by decide))
  refine SameBut.trans ?_ ((setEye_frame _ _).widen (by decide))
  refine SameBut.trans ?_ ((setRecords_frame _ _).widen (by decide))
  refine SameBut.trans ?_ ((setLink_frame _ _).widen (by decide))
  exact (raise_frame _ s).then (purgeOwn_frame _) (by decide) (by decide)

/-- What the station's own message may touch at its acceptance here (R39, R150). -/
theorem ownEffect_frame (m : Msg) (s : State) : SameBut messageBlocks s (ownEffect m s) := by
  unfold ownEffect
  split
  · exact (withdrawEffect_frame _ _ _).widen (by decide)
  · exact (withdrawEffect_frame _ _ _).widen (by decide)
  · exact (jamEffect_frame _ _).widen (by decide)
  · exact (jamReleaseEffect_frame _ _).widen (by decide)
  · exact purgeAll_frame _ _
  · exact (acceptOwnBid_frame _ _ _).widen (by decide)
  · exact (seenEffect_frame _ _ _ _ _).widen (by decide)
  · exact (missedEffect_frame _ _ _).widen (by decide)
  · exact (strayEffect_frame _ _ _ _).widen (by decide)
  · exact SameBut.refl _ s

/-! ## A frame of another station (R150) -/

/-- A frame that the station hears is accepted at its acceptance time (R149, R150). -/
theorem accept_hears {s : State} {h : Heard} {k : MsgKind} (hh : s.hears h k) {payload : List Byte}
    (hp : payload.length = payloadLength k) (tag : Option Tag) (hail : Option Hailed) (effect : State → State) :
    accept h k payload tag hail effect s = acceptPeer h.sender.toNat hail effect (advanceTo h.time s) := by
  obtain ⟨hr, hz, hn, ht⟩ := hh
  unfold accept
  rw [if_neg (by simp only [hp, ne_eq, not_true_eq_false, or_false, not_or]; exact ⟨hr, hz⟩)]
  dsimp only
  rw [if_neg hn, if_pos ((tookFrame_iff s k h.time hr).mpr ht)]

/-- A peer that stays PRESENT raises nothing (R165, R168, R169). -/
theorem peerEvents_present (old new : Peer) (s : State) (ho : old.state = .present) (hn : new.state = .present) :
    peerEvents old new s = s := by
  simp [peerEvents, ho, hn]

/-- A frame of a PRESENT peer with no cause of its own to report, that is no HAIL: the peer table, the link controller and
the MISMATCH cause take it without event, and then its message acts (R150, R165). -/
theorem acceptPeer_known {s : State} {n : Nat} (hk : s.knows n) (effect : State → State) :
    ∃ u, acceptPeer n none effect s = finish (effect u) ∧ SameBut [.link, .peers, .bid] s u
      ∧ u.bid = { s.bid with hold := { s.bid.hold with mismatch := false } }
      ∧ u.link = { s.link with quiet := some (s.now + 20), listenFrom := s.now, lastSender := some n
                               health := some (s.now + 1000000) } := by
  obtain ⟨⟨q, hq, hp⟩, hm, hl⟩ := hk
  have state : Peer.heardState none (q.heard s.run s.now none) = .present := by
    simp [Peer.heardState, Peer.heard, hp]
  have mism : (putPeer { q.heard s.run s.now none with state := .present } s).peers.anyMismatch = false := by
    have all : ∀ p ∈ s.peers.entries, p.state ≠ .mismatch := by
      simpa [PeerTable.anyMismatch] using hm
    simp only [PeerTable.anyMismatch, putPeer, State.setPeers_peers, List.any_eq_false, List.mem_map]
    rintro p ⟨p0, h0, rfl⟩
    split
    · simp
    · simpa using all p0 h0
  have heard : peerHeard n none s = (putPeer { q.heard s.run s.now none with state := .present } s).setBid
      { s.bid with hold := { s.bid.hold with mismatch := false } } := by
    unfold peerHeard
    rw [hq]
    dsimp only
    rw [state]
    rw [peerEvents_present q _ _ hp rfl]
    unfold followMismatch
    rw [mism, if_neg (by decide)]
    split
    · rfl
    · rename_i h
      have : s.bid.hold.mismatch = false := by simpa [putPeer] using h
      rw [← this]
      rfl
  refine ⟨lineHeard n (recordSender n (restartGrid (peerHeard n none s))), rfl, ?_⟩
  rw [heard]
  unfold lineHeard
  dsimp only
  rw [if_neg (by simpa [recordSender, restartGrid] using hl)]
  refine ⟨?_, rfl, rfl⟩
  exact (setPeers_frame s _).then ((setBid_frame _ _).then ((setLink_frame _ _).then ((setLink_frame _ _).then
    (setLink_frame _ _) (n := [.link]) (by decide) (by decide)) (n := [.link]) (by decide) (by decide))
    (n := [.bid, .link]) (by decide) (by decide)) (by decide) (by decide)

/-! ## The station's own frame (R150, R152) -/

/-- The station's own frame accepted: its entry has left the outbox, the sender is recorded, the grid starts again, and then
its message acts (R39, R150, R154). -/
theorem accept_hearsOwn {s : State} {h : Heard} {m : Msg} {payload : List Byte} (hh : s.hearsOwn h m payload)
    (hail : Option Hailed) (effect : State → State) :
    ∃ u, accept h m.kind payload m.tag? hail effect s = finish (ownEffect m u) ∧ SameBut [.now, .line, .link] s u
      ∧ u.now = max s.now h.time ∧ u.line.count = s.line.count ∧ u.line.highWater = s.line.highWater
      ∧ u.link = { s.link with outbox := s.link.outbox.filter (fun e => !e.sending), frame := []
                               quiet := some (u.now + 20), listenFrom := u.now, lastSender := some s.number } := by
  obtain ⟨hr, hz, hn, hp, ⟨e, he, hm⟩, -, hl⟩ := hh
  have frame : SameBut [.now, .line] s (advanceTo h.time s) := advanceTo_frame _ _
  have number : (advanceTo h.time s).number = s.number := congrArg (fun f => f.station.number) (frame .run (by decide))
  have link : (advanceTo h.time s).link = s.link := frame .link (by decide)
  have sending : (advanceTo h.time s).sending = some e := by
    unfold State.sending
    rw [link]
    exact he
  have leaving : (advanceTo h.time s).leaving = false := (frame .leaving (by decide)).trans hl
  have now : (advanceTo h.time s).now = max s.now h.time := by
    unfold advanceTo
    split
    · omega
    · simp only [State.setLine_now, State.setNow_now]
      omega
  have own : (advanceTo h.time s).sendingOf m.kind m.tag? = some e := by
    unfold State.sendingOf
    rw [sending, ← hm]
    exact if_pos ⟨rfl, rfl⟩
  refine ⟨recordSender s.number (restartGrid (endSending (advanceTo h.time s))), ?_, ?_, now, ?_, ?_, ?_⟩
  · unfold accept
    rw [if_neg (by simp only [hp, ne_eq, not_true_eq_false, or_false, not_or]; exact ⟨hr, hz⟩)]
    dsimp only
    rw [if_pos hn, own]
    dsimp only
    unfold acceptOwn
    rw [hm, show dropMarks (advanceTo h.time s) = advanceTo h.time s from if_neg (by rw [leaving]; decide), number]
    congr 1
    unfold leaveIfDue
    rw [show (ownEffect m (recordSender s.number (restartGrid (endSending (advanceTo h.time s))))).leaving = false from
      (ownEffect_frame m _ .leaving (by decide)).trans leaving]
    rfl
  · exact frame.then ((setLink_frame _ _).then ((setLink_frame _ _).then (setLink_frame _ _) (n := [.link]) (by decide)
      (by decide)) (n := [.link]) (by decide) (by decide)) (by decide) (by decide)
  · change (advanceTo h.time s).line.count = _
    unfold advanceTo
    split <;> rfl
  · change (advanceTo h.time s).line.highWater = _
    unfold advanceTo
    split <;> rfl
  · change LinkController.mk _ _ _ _ _ _ _ _ _ = _
    simp only [endSending, link]
    rfl

end Sys2Proof.Machine
end

