-- ==== Sys2Proof/Tests/Slice0.lean ====
section
/-! SUPPORT. Tests: ill-formed commands refused, the worked examples of spec/, and for every statement with hypotheses a
concrete state and operands that meet them. -/

namespace Sys2Proof.Tests

open Sys2Proof.Machine

/-! ## Ill-formed commands, one for each check -/

theorem test_refused_sender_zero : (Instr.jam { time := 0, sender := 0 }).wellFormed = false := by decide
theorem test_refused_empty_run : (Instr.frameError { start := 0, bytes := [] }).wellFormed = false := by decide
theorem test_refused_long_run :
    (Instr.frameError { start := 0, bytes := List.replicate 38 (0, true) }).wellFormed = false := by decide
theorem test_refused_peer_zero : (Instr.peerTtlExpiry 0).wellFormed = false := by decide
theorem test_refused_known_command : (Instr.unknownCommand 0x08 0).wellFormed = false := by decide
theorem test_kept_unknown_command : (Instr.unknownCommand 0x0B 0).wellFormed = true := by decide
theorem test_refused_short_payload : (Instr.bid { time := 0, sender := 2 } [2, 5]).wellFormed = false := by decide
theorem test_refused_short_measured :
    (Instr.sightingSeen { time := 0, sender := 2 } (List.replicate 16 0) [1]).wellFormed = false := by decide
theorem test_refused_whole_transaction : (Instr.transactionCut [0x05, 0, 1, 0, 7]).wellFormed = false := by decide
theorem test_kept_cut_transaction : (Instr.transactionCut [0x05, 0, 1, 0]).wellFormed = true := by decide
theorem test_decode_too_short : decodeTableWord 8 0x03 = none := rfl

/-! ## Worked examples of spec/ -/

set_option maxRecDepth 10000 in
/-- R146: the nine bytes 0x31 to 0x39. -/
theorem test_crc_check_value : crc [0x31, 0x32, 0x33, 0x34, 0x35, 0x36, 0x37, 0x38, 0x39] = 0x29B1 := by decide

/-- Section 1.1: count 4 is ten counts above 4,294,967,290. -/
theorem test_wrap : signedDiff 4 4294967290 = 10 ∧ later 0 4294967295 = true := by decide

/-- Section 1.6: 24 counts in 20 ms, an actuator delay of 120 ms and a settle time of 12 ms. -/
theorem test_speed_update : speedOf 24 = 1200 ∧ leadOf 1200 120 = 144 ∧ marginOf 1200 12 = 27 := by decide

/-- Section 1.6: the fire condition at 1,005,255 and at 1,005,256. -/
theorem test_fire_condition : ¬ signedDiff 1005400 1005255 ≤ 144 ∧ signedDiff 1005400 1005256 ≤ 144 := by decide

/-- Piece P of the station-3 case (section 2.6), as BID 3:44. -/
def pieceP : Desc :=
  { tag := ⟨3, 44⟩, kind := .piece, lanes := 0xF, article := 12, lot := 8, length := 6000, lead := 500, trail := 1200
    reject := .none, rank := .normal }

/-- The first record of the station-3 case (section 2.6). -/
def recordA : Record :=
  { desc := { pieceP with tag := ⟨1, 17⟩, lot := 7 }, tl := 1008000, state := .seen, missed := false, passed := false
    own := false, reporter := 1, measured := some 6000, openFrom := none }

/-- The second record of the station-3 case (section 2.6). -/
def recordB : Record :=
  { desc := { pieceP with tag := ⟨2, 90⟩, length := 5000, trail := 1000 }, tl := 1030000, state := .bid
    missed := false, passed := false, own := false, reporter := 2, measured := none, openFrom := none }

/-- The figures of the station-3 case: lot break 3000 and stray gap 800 counts (section 2.6). -/
def figures3 : Figures := { Figures.reset with lotBreak := 3000, strayGap := 800, horizon := 40000 }

/-- Section 2.6: the two gaps. -/
theorem test_gaps : gap figures3 recordA.desc pieceP = 4200 ∧ gap figures3 pieceP recordB.desc = 1200 := by decide

/-- Section 1.6: the search moves the piece to 1,018,200. -/
theorem test_meets_WindowSearchFindsFreeSpan :
    windowSearch figures3 1000000 pieceP [recordA, recordB] 1012971 = some 1018200 := by decide

/-- Section 11.2: the bytes of BID 3:44 after the sync, without its CRC. -/
theorem test_bid_frame : ((frameOf .bid 3 ((Msg.bid pieceP 1018200).payload figures3 1000003)).drop 1).take 18 =
    [0x63, 0x10, 0x03, 0x2C, 0x1F, 0x0C, 0x00, 0x08, 0x17, 0x70, 0x01, 0xF4, 0x04, 0xB0, 0x02, 0x00, 0x47, 0x15] := by
  decide

/-- Section 6.5: the codes that sum to 18,950 and to 17,000. -/
theorem test_widths : widthOf 18950 1200 = 694 ∧ widthOf 17000 1200 = 623 := by decide

/-- Section 2.5: tags 3:41 and 3:42 are held, so the next tag is 3:43. -/
theorem test_skip_at_allocation :
    freeSeq 3 [{ recordA with desc := { pieceP with tag := ⟨3, 41⟩ } }, { recordA with desc := { pieceP with tag := ⟨3, 42⟩ } }]
      65 41 = 43 := by decide

/-- Section 4.1: the blip on lane 3 leaves no pending edge, and the next begins at 500,118. -/
theorem test_filter_example :
    (sampleEye 500118 true (sampleEye 500112 false (sampleEye 500100 true { state := .clear, edge := none }))).edge =
      some 500118 := by decide

/-- Section 3.1: a stray opened at 1,004,400 is 20 counts long at 1,004,420. -/
theorem test_open_stray_length : ({ recordA with openFrom := some 1004400 } : Record).gapLength 1004420 = 20 := by decide

/-- R25: the columns of the reject table. -/
theorem test_reject_table (free : Reject) :
    combine free .narrow .wide = .wide ∧ combine free .wide .none = .wide ∧ combine free .double .wide = .double
      ∧ combine free .narrow .double = .double ∧ combine free .stray .double = .stray
      ∧ combine free .double .stray = .double := ⟨rfl, rfl, rfl, rfl, rfl, rfl⟩

/-- R25: the reject only rises, whatever a STRAY verdict leaves. -/
theorem test_reject_rises (free held new : Reject) : rejectLevel held ≤ rejectLevel (combine free held new) := by
  cases free <;> cases held <;> cases new <;> decide

/-- Section 11.3: the bytes of LOAD of article 12, lot 8, and what follows them is ignored. -/
theorem test_transaction_load :
    ({ State.reset with station := .active } : State).transaction 0 0 [0x05, 0x00, 0x0C, 0x00, 0x08, 0xFF]
      = .load [0x0C] [0x00, 0x08, 0xFF] := by decide

/-- Section 11.3: the same bytes less one are cut short in ACTIVE, and are a whole command in SETUP, which refuses it by
its state (R177, R179). -/
theorem test_transaction_cut :
    ({ State.reset with station := .active } : State).transaction 0 0 [0x05, 0x00, 0x0C, 0x00]
      = .transactionCut [0x05, 0x00, 0x0C, 0x00]
    ∧ State.reset.transaction 0 0 [0x05, 0x00, 0x0C, 0x00] = .load [0x0C] [0x00] := by decide

/-- Section 11.3: HOLD with argument 1, CONFIGURE of LINE without data, and a command byte that names nothing. -/
theorem test_transaction_headers :
    State.reset.transaction 0 0 [0x07, 0x01] = .holdRequested
      ∧ State.reset.transaction 0 0 [0x01, 0x81] = .transactionCut [0x01, 0x81]
      ∧ State.reset.transaction 0 0 [0x0B, 0x00] = .unknownCommand 0x0B 0x00 := by decide

/-- Section 11.3, the command byte lowest: HOLD with argument 1, LOAD of article 12, lot 8, READ STATION, and a command
byte that names nothing. -/
theorem test_decode_headers :
    decodeTableWord 16 0x0107 = some .holdRequested ∧ decodeTableWord 16 0x08000C0005 = some (.load [0x0C] [0x00, 0x08])
      ∧ decodeTableWord 16 0x0014 = some .readStation ∧ decodeTableWord 16 0x000B = some (.unknownCommand 0x0B 0x00) :=
  ⟨rfl, rfl, rfl, rfl⟩

/-- Section 11.4: the stream nibbles stand after the curtain width, streams 1 and 2 in the first byte. -/
theorem test_stream_nibbles :
    (stationAt (List.replicate 22 0 ++ [0x12, 0x48, 0x01, 0x20])).streams = { one := 1, two := 2, three := 4, four := 8 }
      ∧ (stationAt (List.replicate 22 0 ++ [0x12, 0x48, 0x01, 0x20])).watermark = 0x20 := by decide

/-- Section 11.2: a throat distance of -100 counts, behind a description. -/
theorem test_distance_read : (placedAt (List.replicate 13 0 ++ [0xFF, 0xFF, 0x9C])).distance.toInt = -100 := by decide
/-! ## States that meet the hypotheses of the statements -/

/-- A store with STATION written and article 1 enabled. -/
def store1 : Store :=
  { Store.reset with written := true
                     articles := { Article.unwritten with enabled := true } :: List.replicate 62 .unwritten }

/-- An ACTIVE station of a role at the instant of the advance to 1000, with nothing held; FIFO and outbox empty. -/
def at1000 (role : Role) : State :=
  { State.reset with
    station := .active, store := store1, now := 50000
    run := { Store.reset.figures with station := { StationSection.default with role := role } }
    line := { LineCounter.reset with count := 1000, highWater := 1000, pair := some (false, false), atAdvance := true } }

/-- A PIECE of lane 1, 600 counts long. -/
def piece (owner seq : Byte) : Desc :=
  { tag := ⟨owner, seq⟩, kind := .piece, lanes := 1, article := 1, lot := 7, length := 600, lead := 0, trail := 0
    reject := .none, rank := .normal }

/-- A BID record of such a piece. -/
def rec (owner seq : Byte) (tl : Count) : Record :=
  { desc := piece owner seq, tl := tl, state := .bid, missed := false, passed := false, own := false, reporter := 2
    measured := none, openFrom := none }

/-- The state with these records. -/
def held (s : State) (l : List Record) : State := s.setRecords l

/-- The state with lane 1's eye in a state, its pending edge from 980. -/
def edge (s : State) (st : EyeState) : State := s.setLaneEye 0 { state := st, edge := some 980 }

/-- An own bid about tag 1:9 that serves position 1. -/
def own (st : BidState) : OwnBid :=
  { state := st, cancelling := false, desc := piece 1 9, window := 5000, landing := 1000, accepted := 50000, serves := 0 }

/-- The state with that own bid. -/
def bidding (s : State) (st : BidState) : State := s.setBid { s.bid with own := some (own st) }

/-- The state with an outbox. -/
def sends (s : State) (l : List Entry) : State := s.setLink { s.link with outbox := l }

/-- A message in flight. -/
def inFlight (m : Msg) (attempts : Nat) (cancelling : Bool) : Entry :=
  { msg := m, sending := true, cancelling := cancelling, attempts := attempts }

/-- A frame from station 2. -/
def from2 : Heard := { time := 60000, sender := 2 }

/-- Station 2 PRESENT in the peer table, hailed at no time. -/
def peer2 : Peer := { number := 2, state := .present, hailed := none, differs := false, ttlEnds := 90000 }

/-- The state in which station 2 is known. -/
def knows2 (s : State) : State := s.setPeers { s.peers with entries := [peer2] }

/-- The payload of station 2's BID of tag 2:5, 400 counts ahead. -/
def payload2 : List Byte := descBytes (piece 2 5).wire ++ [0x00, 0x01, 0x90]

/-- The list filled with 64 records of station 2. -/
def crowd : List Record := (List.range 64).map (fun i => rec 2 (BitVec.ofNat 8 i) 5000)

/-- A stack stream of lane 1 that counts article 1, lot 7, with so many passed. -/
def counting (n : Nat) (sp : SpacerState) : Stream :=
  { Stream.unused with lanes := 1, current := some (1, 7), passed := n, spacer := sp }

/-- A state without an own bid meets every hypothesis of the form "for every own bid". -/
theorem test_meets_without_own_bid {s : State} (h : s.bid.own = none) (P : OwnBid → Prop) : ∀ o, s.bid.own = some o → P o :=
  fun _ ho => absurd (h.symm.trans ho) (by simp)

theorem test_meets_EncoderStepMovesCount :
    (at1000 .feed).port.held = false ∧ State.reset.port.held = false
      ∧ (at1000 .feed).line.pair = some (false, false) ∧ State.reset.line.pair = none
      ∧ (true, false) = nextPair (false, false)
      ∧ 0 < signedDiff ((at1000 .feed).line.count + 1) (at1000 .feed).line.highWater
      ∧ (at1000 .feed).station ≠ .setup ∧ (at1000 .feed).bid.own = none := by decide

/-- The state of a station one backward step before EXCURSION: reverse limit 400 counts. -/
def sagged (st : BidState) : State :=
  let s := bidding (at1000 .feed) st
  s.setLine { s.line with count := 600 }

theorem test_meets_ExcursionRaisesReversed (st : BidState) :
    (sagged st).port.held = false ∧ (sagged st).line.pair = some (false, false) ∧ (sagged st).running
      ∧ (sagged st).line.excursion = false
      ∧ (sagged st).run.reverse < signedDiff (sagged st).line.highWater ((sagged st).line.count - 1)
      ∧ (sagged st).bid.own = some (own st) ∧ (sagged st).roomFirst
      ∧ ((sagged st).feed.positions.get (own st).serves).unloading = false :=
  ⟨rfl, rfl, nofun, rfl, by cases st <;> decide, rfl, by show 0 < 8; decide, rfl⟩

theorem test_meets_SpeedUpdateRecomputes : State.reset.port.held = false := rfl

theorem test_meets_ConflictIsSymmetric :
    ({ desc := piece 1 2, tl := 700, tt := 1300 } : Span).tl = ({ desc := piece 1 1, tl := 100, tt := 700 } : Span).tt
      ∧ gap figures3 (piece 1 1) (piece 1 2) = 0 := by decide

theorem test_meets_GapFollowsKinds : share (piece 1 1).lanes (piece 1 2).lanes = true
    ∧ share (piece 1 1).lanes { piece 1 2 with lanes := 2 }.lanes = false := by decide

theorem test_meets_LeadingEdgeMatchesRecord :
    let s := held (edge (at1000 .feed) .clear) [rec 2 5 980]
    s.acting = true ∧ s.leadingDue = [(0, 980)] ∧ s.absorber 0 980 = none ∧ s.bestCandidate 0 980 = some (rec 2 5 980)
      ∧ s.record (rec 2 5 980).desc.tag = some (rec 2 5 980) ∧ s.bid.own = none := by decide

/-- An own piece at lane 1's eye of a FEED station. -/
theorem test_meets_LeadingEdgeMatchesRecord_armed :
    let r := { rec 1 9 980 with own := true }
    let s := bidding (held (edge (at1000 .feed) .clear) [r]) .fired
    s.acting = true ∧ s.leadingDue = [(0, 980)] ∧ s.absorber 0 980 = none ∧ s.bestCandidate 0 980 = some r
      ∧ (own .fired).state = .fired ∧ s.role = .feed ∧ r.own = true ∧ r.desc.kind = .piece ∧ s.width.phase = .idle := by
  decide

/-- A piece at lane 1's eye of an OUTFEED station, counted where it has no reject and diverted where it has one. -/
theorem test_meets_LeadingEdgeMatchesRecord_outfeed (j : Reject) :
    let r := { rec 2 5 980 with desc := { piece 2 5 with reject := j } }
    let s := (held (edge (at1000 .outfeed) .clear) [r]).setStream 0 (counting 1 .none)
    s.acting = true ∧ s.leadingDue = [(0, 980)] ∧ s.absorber 0 980 = none ∧ s.bestCandidate 0 980 = some r
      ∧ s.bid.own = none ∧ s.role = .outfeed ∧ s.outfeed.streamOf r.desc.lanes = some 0
      ∧ s.outfeed.streams.get 0 = counting 1 .none ∧ r.desc.article ≠ 0 := by cases j <;> decide

/-- An edge at lane 1 that a sighting in progress absorbs, at its limit and one count beyond. -/
theorem test_meets_LeadingEdgeMatchesRecord_absorbed :
    let g : Sighting :=
      { tag := ⟨2, 5⟩, stray := false, first := 400, limit := 980, bound := 2, lastTrail := none, width := none }
    let s := held (edge (at1000 .feed) .clear) [rec 2 5 400]
    let t := s.setSightings [g]
    t.acting = true ∧ t.leadingDue = [(0, 980)] ∧ t.absorber 0 980 = some g
      ∧ (s.setSightings [{ g with limit := 979 }]).absorber 0 980 = none := by decide

/-- A station of lanes 1 and 2 with an edge due at each. -/
def twoEdges : State :=
  let s := edge (at1000 .feed) .clear
  (s.setLaneEye 1 { state := .clear, edge := some 980 }).setRun { s.run with lanes := 3 }

/-- A piece of both lanes whose first edge is matched and whose second its sighting absorbs. -/
theorem test_meets_LeadingEdgeMatchesRecord_two :
    let r := { rec 2 5 980 with desc := { piece 2 5 with lanes := 3 } }
    let s := held twoEdges [r]
    s.acting = true ∧ s.leadingDue = [(0, 980), (1, 980)] ∧ s.absorber 0 980 = none ∧ s.bestCandidate 0 980 = some r
      ∧ s.record r.desc.tag = some r ∧ s.bid.own = none ∧ s.absorber 1 980 = none ∧ hasLane r.desc.lanes 1 = true
      ∧ 0 ≤ signedDiff (plus 980 s.run.tolerance) 980 := by decide

set_option maxRecDepth 20000 in
theorem test_meets_LeadingEdgeCreatesStray_full :
    let s := held (edge (at1000 .feed) .clear) (crowd.map (fun r => { r with passed := true }))
    s.acting = true ∧ s.leadingDue = [(0, 980)] ∧ s.absorber 0 980 = none ∧ s.bestCandidate 0 980 = none
      ∧ 64 ≤ s.track.records.length ∧ s.bid.own = none := by decide

/-- A stray at an OUTFEED station whose streams have closed nothing. -/
theorem test_meets_LeadingEdgeCreatesStray_outfeed :
    let s := (edge (at1000 .outfeed) .clear).setStream 0 (counting 1 .none)
    s.acting = true ∧ s.leadingDue = [(0, 980)] ∧ s.absorber 0 980 = none ∧ s.bestCandidate 0 980 = none
      ∧ s.role = .outfeed ∧ s.bid.own = none ∧ (s.outfeed.streams.get 0).closure = none := by decide

/-- Two edges of one advance that match nothing. -/
theorem test_meets_LeadingEdgeCreatesStray_several :
    twoEdges.acting = true ∧ twoEdges.leadingDue = [(0, 980), (1, 980)]
      ∧ twoEdges.absorber 0 980 = none ∧ twoEdges.bestCandidate 0 980 = none
      ∧ twoEdges.absorber 1 980 = none ∧ twoEdges.bestCandidate 1 980 = none
      ∧ twoEdges.track.records.length < 64 ∧ twoEdges.bid.own = none := by decide

theorem test_meets_LeadingEdgeCreatesStray :
    let s := edge (at1000 .feed) .clear
    s.acting = true ∧ s.leadingDue = [(0, 980)] ∧ s.absorber 0 980 = none ∧ s.bestCandidate 0 980 = none
      ∧ s.track.records.length < 64 ∧ s.bid.own = none := by decide

/-- A sighting of tag 2:5 bound to lane 1. -/
def sighting25 : Sighting :=
  { tag := ⟨2, 5⟩, stray := false, first := 400, limit := 520, bound := 1, lastTrail := none, width := none }

theorem test_meets_TrailingEdgeClosesSighting :
    let s := (held (edge (at1000 .feed) .blocked) [rec 2 5 400]).setSightings [sighting25]
    s.acting = true ∧ s.leadingDue = [] ∧ s.trailingDue = [(0, 980)] ∧ s.eye.sightings = [sighting25]
      ∧ sighting25.bound = laneBit 0 ∧ s.record sighting25.tag = some (rec 2 5 400) ∧ s.bid.own = none
      ∧ s.width.piece = none ∧ s.station = .active ∧ s.roomLater = true := by decide

/-- Two sightings in progress, each alone in its tag and in its lane. -/
theorem test_meets_TrailingEdgeClosesSighting_bindsAlone :
    let s := (at1000 .feed).setSightings [sighting25, { sighting25 with tag := ⟨3, 1⟩, bound := 2 }]
    s.bindsAlone 0 sighting25 := by
  unfold State.bindsAlone
  decide

/-- The same sighting opened as a stray, and one bound to two lanes. -/
theorem test_meets_TrailingEdgeClosesSighting_others (stray more : Bool) :
    let g := { sighting25 with stray := stray, bound := if more then 3 else 1 }
    let s := (held (edge (at1000 .feed) .blocked) [rec 2 5 400]).setSightings [g]
    s.acting = true ∧ s.leadingDue = [] ∧ s.trailingDue = [(0, 980)] ∧ s.eye.sightings = [g] ∧ hasLane g.bound 0 = true
      ∧ s.width.piece = none ∧ (more = true → g.bound ≠ laneBit 0) := by cases stray <;> cases more <;> decide

/-- A counted piece under the eye of an OUTFEED station whose record has a reject by now. -/
theorem test_meets_TrailingEdgeClosesSighting_outfeed :
    let r := { rec 2 5 400 with desc := { piece 2 5 with reject := .double } }
    let e : UnderEye := { tag := ⟨2, 5⟩, stream := some 0, serial := 0, counted := true }
    let s := ((held (edge (at1000 .outfeed) .blocked) [r]).setSightings [sighting25]).setStream 0 (counting 1 .none)
    let t := s.setOutfeed { s.outfeed with underEye := [e] }
    t.acting = true ∧ t.leadingDue = [] ∧ t.trailingDue = [(0, 980)] ∧ t.eye.sightings = [sighting25]
      ∧ (t.record sighting25.tag).isSome = true ∧ t.bid.own = none ∧ t.role = .outfeed ∧ t.width.piece = none
      ∧ t.roomLater = true ∧ t.outfeed.underEye.find? (fun u => u.tag == sighting25.tag) = some e
      ∧ (∃ u, exec .trailingEdge t = .next u ∧ ∃ r', u.record ⟨2, 5⟩ = some r' ∧ r'.desc.reject = .double) :=
  ⟨by decide, by decide, by decide, rfl, by decide, rfl, rfl, rfl, by decide, rfl, _, rfl, _, rfl, rfl⟩

theorem test_meets_TrailingEdgeClosesSighting_early : (edge (at1000 .feed) .clear).leadingDue ≠ [] := by decide

theorem test_meets_MissCountedOrReported_first :
    let s := (held (at1000 .feed) [rec 2 5 800]).setStation .joining
    s.acting = true ∧ s.edgesTaken = true ∧ s.record ⟨2, 5⟩ = some (rec 2 5 800) ∧ s.missedNow (rec 2 5 800) = true
      ∧ s.station ≠ .active
      ∧ (rec 2 5 800).missed = false := by decide

/-- The second miss while JOINING, of a piece of another station and of a fired own piece. -/
theorem test_meets_MissCountedOrReported_second :
    let r := { rec 2 5 800 with missed := true }
    let q := { rec 1 9 800 with missed := true, own := true }
    let s := (held (at1000 .feed) [r]).setStation .joining
    let t := (bidding (held (at1000 .feed) [q]) .fired).setStation .joining
    s.acting = true ∧ s.edgesTaken = true ∧ s.record ⟨2, 5⟩ = some r ∧ s.missedNow r = true ∧ s.station ≠ .active
      ∧ s.bid.own = none ∧ t.record ⟨1, 9⟩ = some q ∧ t.missedNow q = true ∧ t.bid.own = some (own .fired)
      ∧ (own .fired).desc.tag = ⟨1, 9⟩ ∧ (t.feed.positions.get (own .fired).serves).state ≠ .bidding := by decide

theorem test_meets_MissCountedOrReported_reported :
    let s := held (at1000 .feed) [rec 2 5 800]
    s.acting = true ∧ s.edgesTaken = true ∧ s.record ⟨2, 5⟩ = some (rec 2 5 800) ∧ s.missedNow (rec 2 5 800) = true
      ∧ s.station = .active
      ∧ ¬ ((rec 2 5 800).own = true ∧ (rec 2 5 800).desc.kind = .piece) ∧ s.roomLater = true := by decide

theorem test_meets_MissCountedOrReported_void :
    let r := { rec 1 9 800 with own := true }
    let s := bidding (held (at1000 .feed) [r]) .fired
    s.acting = true ∧ s.edgesTaken = true ∧ s.station = .active ∧ s.record ⟨1, 9⟩ = some r ∧ s.missedNow r = true
      ∧ r.own = true
      ∧ r.desc.kind = .piece ∧ s.bid.own = some (own .fired) ∧ (own .fired).desc.tag = ⟨1, 9⟩
      ∧ (s.feed.positions.get (own .fired).serves).state ≠ .bidding
      ∧ s.link.outbox.length + s.link.reserved < Config.outboxCapacity := by decide

/-- An edge still to take: MISS, JAM_CONDITION and SPACER_PASSAGE wait. -/
theorem test_meets_edges_to_take : (edge (at1000 .feed) .blocked).edgesTaken = false := by decide

theorem test_meets_RetirementRemovesRecord_fired :
    let r := { rec 1 9 100 with passed := true }
    let s := bidding (held (at1000 .feed) [r]) .fired
    s.acting = true ∧ s.record ⟨1, 9⟩ = some r ∧ s.retiresNow r = true ∧ s.bid.own = some (own .fired)
      ∧ (own .fired).desc.tag = ⟨1, 9⟩ ∧ (s.feed.positions.get (own .fired).serves).state ≠ .bidding := by decide

theorem test_meets_RetirementRemovesRecord :
    let r := { rec 2 5 100 with passed := true }
    let s := held (at1000 .feed) [r]
    s.acting = true ∧ s.record ⟨2, 5⟩ = some r ∧ s.retiresNow r = true := by decide

theorem test_meets_FireOpensClamp :
    let s := bidding (at1000 .feed) .granted
    s.bid.own = some (own .granted) ∧ s.line.atAdvance = true ∧ s.station = .active ∧ s.role = .feed
      ∧ s.bid.hold = HoldSet.empty ∧ s.feed.fire = none
      ∧ signedDiff (own .granted).landing s.line.highWater ≤ s.line.lead := by decide

/-- The state of a sequence at a stage. -/
def firing (st : FireStage) : State :=
  let s := at1000 .feed
  let p : Position := { state := .firing, article := 1, lot := 7, unloading := false }
  s.setFeed { s.feed with
    positions := s.feed.positions.set 0 p, grip := false
    fire := some { stage := st, due := 51000, dead := 10, pulse := 100, position := some 0 } }

theorem test_meets_FireSequenceRuns (st : FireStage) :
    (firing st).feed.fire = some { stage := st, due := 51000, dead := 10, pulse := 100, position := some 0 }
      ∧ ((firing st).feed.positions.get 0).state = .firing := ⟨rfl, rfl⟩

/-- The piece of tag 1:9 at the width sampler. -/
def widthPiece (taken : Bool) (start : Count) : WidthPiece :=
  { tag := ⟨1, 9⟩, article := 1, lot := 7, lane := 0, start := start, edgeTaken := taken }

/-- The state of the sampler in a phase, with so many samples. -/
def sampling (ph : WidthPhase) (n : Nat) : State :=
  let s := at1000 .feed
  s.setWidth { s.width with phase := ph, piece := some (widthPiece false 1000), samples := n, due := 50500 }

theorem test_meets_WidthConversionRuns :
    (sampling .armed 0).acting = true ∧ (sampling .armed 0).width.piece = some (widthPiece false 1000)
      ∧ 0 ≤ signedDiff (sampling .armed 0).line.highWater (widthPiece false 1000).start
      ∧ (sampling .converting 6).width.samples < 7 ∧ (sampling .converting 6).width.phase = .converting
      ∧ (sampling .converting 7).width.samples = 7 := by decide

/-- The trailing edge of the piece in hand, at lane 1's eye. -/
theorem test_meets_WidthConversionRuns_aborts (ph : WidthPhase) (h : ph = .armed ∨ ph = .converting) :
    let g := { sighting25 with tag := ⟨1, 9⟩ }
    let s := (held (edge (sampling ph 3) .blocked) [rec 1 9 400]).setSightings [g]
    s.acting = true ∧ s.leadingDue = [] ∧ s.trailingDue = [(0, 980)] ∧ s.eye.sightings = [g] ∧ hasLane g.bound 0 = true
      ∧ g.stray = false ∧ s.role = .feed ∧ s.bid.own = none ∧ s.width.piece = some (widthPiece false 1000)
      ∧ (widthPiece false 1000).tag = g.tag ∧ (widthPiece false 1000).lane = 0
      ∧ (s.width.phase = .armed ∨ s.width.phase = .converting) ∧ s.outfeed.underEye = [] ∧ s.roomLater = true :=
  by rcases h with rfl | rfl <;> decide

/-- The state of a resting sampler with a pending start. -/
def resting (p : Option WidthPiece) : State :=
  (sampling .resting 8).setWidth { (sampling .resting 8).width with pending := p }

theorem test_meets_RestEndsByPendingStart (p : Option WidthPiece) :
    (resting p).width.phase = .resting ∧ (resting p).width.pending = p := ⟨rfl, rfl⟩

/-- The state with clamp position 1 in a state. -/
def clamped (s : State) (st : PosState) : State :=
  s.setFeed { s.feed with
    ready := true, lastFilled := 0
    positions := s.feed.positions.set 0 { state := st, article := 1, lot := 7, unloading := false } }

/-- The state with every clamp position LOADED. -/
def full : State :=
  let s := at1000 .feed
  s.setFeed { s.feed with positions := Quad.fill { state := .loaded, article := 1, lot := 7, unloading := false } }

theorem test_meets_LoadFillsNextPosition :
    (at1000 .feed).role = .feed ∧ (at1000 .feed).station = .active ∧ (at1000 .feed).loadable 1 = true
      ∧ (at1000 .feed).feed.room = some 0 ∧ (at1000 .feed).loadable 2 = false ∧ full.feed.room = none
      ∧ full.loadable 1 = true ∧ State.reset.station = .setup ∧ (at1000 .feed).port.held = false
      ∧ FeedSequencer.reset.newest = none ∧ full.feed.newest = some 3
      ∧ [(1 : Byte)] ++ [0, 7, 9] = 1 :: 0 :: 7 :: [9] ∧ ([(1 : Byte)] ++ [0]).length < 3 := by decide

theorem test_meets_UnloadFollowsPosition :
    (∀ st, ((clamped (at1000 .feed) st).feed.positions.get 0).state = st) ∧ (at1000 .feed).role = .feed
      ∧ (at1000 .feed).station = .active
      ∧ (bidding (clamped (at1000 .feed) .bidding) .settling).bid.own = some (own .settling)
      ∧ (own .settling).serves = 0 ∧ State.reset.station = .setup ∧ (at1000 .feed).port.held = false
      ∧ (bidding (clamped (at1000 .feed) .bidding) .settling).roomFirst
      ∧ ((clamped (at1000 .feed) .bidding).feed.positions.get 0).unloading = false :=
  ⟨fun _ => rfl, rfl, rfl, rfl, rfl, rfl, rfl, by show 0 < 8; decide, rfl⟩

/-- Positions 1 and 2 LOADED: position 1 is the head, and position 2 after it is unloaded. -/
def twoLoaded : State :=
  let s := clamped (at1000 .feed) .loaded
  s.setFeed { s.feed with
    lastFilled := 1
    positions := s.feed.positions.set 1 { state := .loaded, article := 1, lot := 7, unloading := false } }

theorem test_meets_UnloadFollowsPosition_nextHead :
    twoLoaded.port.held = false ∧ twoLoaded.role = .feed ∧ twoLoaded.station = .active
      ∧ twoLoaded.bid.hold = HoldSet.empty ∧ twoLoaded.bid.own = none ∧ twoLoaded.feed.ready = true
      ∧ twoLoaded.feed.head = some 0 ∧ (twoLoaded.feed.positions.get 0).state = .loaded
      ∧ (twoLoaded.setPosition 0 .none).feed.head = some 1 ∧ (twoLoaded.feed.positions.get 1).state = .loaded
      ∧ (twoLoaded.setPosition 0 .none).findWindow (.head 1) = some 1000 := by decide

/-- A QUEUED bid of the head, put there in the instant at which the bid before it ended. -/
def requeued : State :=
  let s := bidding (clamped (at1000 .feed) .bidding) .queued
  s.setFeed { s.feed with returned := some (0, s.now) }

theorem test_meets_UnloadFollowsPosition_sameInstant :
    requeued.port.held = false ∧ requeued.role = .feed ∧ requeued.station = .active
      ∧ (requeued.feed.positions.get 0).state = .bidding ∧ requeued.bid.own = some (own .queued)
      ∧ (own .queued).state = .queued ∧ (own .queued).serves = 0 ∧ (own .queued).cancelling = false ∧ requeued.bidWaits
      ∧ requeued.feed.returned = some (0, requeued.now) :=
  ⟨rfl, rfl, rfl, rfl, rfl, rfl, rfl, rfl, Or.inr (by decide), rfl⟩

/-- A SETTLING bid of the head whose landing is closer than the lead. -/
def lateBid : State :=
  let s := bidding (clamped (at1000 .feed) .bidding) .settling
  s.setLine { s.line with lead := 100 }

theorem test_meets_UnloadFollowsPosition_afterLate :
    lateBid.port.held = false ∧ lateBid.role = .feed ∧ lateBid.station = .active
      ∧ lateBid.bid.own = some (own .settling) ∧ (own .settling).desc.kind ≠ .spacer ∧ (own .settling).serves = 0
      ∧ (lateBid.feed.positions.get 0).state = .bidding ∧ (lateBid.feed.positions.get 0).unloading = false
      ∧ signedDiff (own .settling).landing lateBid.line.count < lateBid.line.lead
      ∧ lateBid.link.outbox.length + lateBid.link.reserved < Config.outboxCapacity
      ∧ (∀ e ∈ lateBid.link.outbox, e.sending = true → e.msg.kind ≠ .bid) := by decide

/-- LATE first: its own step queues a new bid for the head, and the UNLOAD behind it raises UNLOADED alone (R110). -/
theorem test_unload_after_late_has_no_recall :
    (match exec .settleTimerExpiry lateBid with
      | .next t => (t.bid.own.map (fun o => o.state)) == some .queued && (match exec (.unload 1) t with
          | .next u => u.fifo.held.map (fun h => (h.event.kind, h.event.code)) == [(.recalled, some 6), (.unloaded, none)]
              && u.feed.positions.get 0 == Position.none && u.link.outbox.all (fun e => e.msg.kind != .bid)
          | _ => false)
      | _ => false) = true := by decide

/-- A QUEUED own bid whose BID waits, and one whose BID is SENDING. -/
theorem test_meets_queued_own_bid :
    let s := bidding (clamped (at1000 .feed) .bidding) .queued
    let m : Msg := .bid (piece 1 9) 5000
    (sends s [.fresh m]).bidWaits ∧ ¬ (sends s [inFlight m 0 false]).bidWaits ∧ s.bid.own = some (own .queued)
      ∧ (own .queued).state = .queued ∧ (own .queued).serves = 0 ∧ (own .queued).cancelling = false
      ∧ (s.feed.positions.get 0).state = .bidding ∧ (s.feed.positions.get 0).unloading = false := by
  refine ⟨Or.inr (by simp [sends, State.setLink, Entry.fresh]), ?_, rfl, rfl, rfl, rfl, rfl, rfl⟩
  rintro (h | h)
  · exact h rfl
  · exact h _ (List.mem_singleton.2 rfl) rfl rfl

theorem test_meets_ReadyRiseQueuesBid :
    let s := clamped (at1000 .feed) .loaded
    s.station = .active ∧ s.role = .feed ∧ s.bid.hold = HoldSet.empty ∧ s.bid.own = none
      ∧ s.bid.retry = none ∧ s.outfeed.planDue = 0 ∧ s.outfeed.queue = [] ∧ s.feed.head = some 0
      ∧ (s.feed.positions.get 0).state = .loaded ∧ s.findWindow (.head 0) = some 1000
      ∧ sharedRoom s.link.outbox = true
      ∧ store1.articles[(s.feed.positions.get 0).article - 1]?
          = some { Article.unwritten with enabled := true } := by decide

theorem test_meets_ReadyFallRecallsLanding :
    let s := bidding (clamped (at1000 .feed) .bidding) .granted
    s.role = .feed ∧ s.feed.ready = true ∧ s.bid.own = some (own .granted) ∧ State.reset.bid.own = none := by decide

/-- A waiting bid engine whose horizon is `h` counts, behind a long record. -/
def waiting (h : Int) : State :=
  let r := { rec 2 5 900 with desc := { piece 2 5 with length := 5000 } }
  let s := held (clamped (at1000 .feed) .loaded) [r]
  (s.setBid { s.bid with retry := some 51000 }).setRun { s.run with horizon := h }

theorem test_meets_RetryTimerSearchesAgain :
    (waiting 100).bid.retry = some 51000 ∧ (waiting 100).eligible = some (.head 0)
      ∧ (waiting 100).findWindow (.head 0) = none ∧ (waiting 40000).findWindow (.head 0) = some 5900 := by decide

theorem test_meets_SettleExpiryGrantsOrRecalls :
    let s := bidding (at1000 .feed) .settling
    s.bid.own = some (own .settling) ∧ (own .settling).desc.kind ≠ .spacer
      ∧ s.line.lead ≤ signedDiff (own .settling).landing s.line.count
      ∧ signedDiff (own .settling).landing s.line.count < (5 : Nat) ∧ s.roomFirst := by
  refine ⟨rfl, by decide, by decide, by decide, ?_⟩
  show 0 < 8
  decide

theorem test_meets_SettleExpiryPlacesSpacer :
    ∃ (s : State) (o : OwnBid), s.bid.own = some o ∧ o.state = .settling ∧ o.desc.kind = .spacer :=
  ⟨(at1000 .outfeed).setBid { BidEngine.reset with
      own := some { own .settling with desc := { piece 1 9 with kind := .spacer } } }, _, rfl, rfl, rfl⟩

theorem test_meets_BandMakesBothYield :
    let x : OwnBid := { own .settling with accepted := 60500 }
    let y : OwnBid := { own .settling with desc := piece 2 5, accepted := 50000 }
    let sx := held (at1000 .feed) [rec 2 5 5000]
    let sy := held (at1000 .feed) [rec 1 9 5000]
    sx.record y.desc.tag = some (rec 2 5 5000) ∧ sy.record x.desc.tag = some (rec 1 9 5000)
      ∧ conflict sx.run ((rec 2 5 5000).span sx.line.highWater) x.span = true
      ∧ conflict sy.run ((rec 1 9 5000).span sy.line.highWater) y.span = true
      ∧ y.accepted + (sx.run.line.settle * 1000 - 2000) ≤ x.accepted
      ∧ x.accepted < y.accepted + sx.run.line.settle * 1000 ∧ y.accepted < x.accepted
      ∧ precedes x.desc.rank x.desc.tag.owner.toNat y.desc.rank y.desc.tag.owner.toNat = true := by decide

/-- A throat whose lane 1 has been blocked since count 0, at high-water count 10,001 or less. -/
def blocked (hw : Count) : State :=
  let s := at1000 .throat
  (s.setThroat { s.throat with bases := s.throat.bases.set 0 (some 0) }).setLine { s.line with count := hw, highWater := hw }

theorem test_meets_JamConditionDeclaresJam :
    (blocked 10001).acting = true ∧ (blocked 10001).edgesTaken = true ∧ (blocked 10001).role = .throat
      ∧ (blocked 10001).throat.jammed = false
      ∧ (blocked 10001).blockedDistance 0 = some 10001 ∧ (blocked 10001).jamLimit 0 < 10001
      ∧ (∀ j : Fin 4, j < 0 → (blocked 10001).jamAt j = none) ∧ (blocked 10000).jamAt 0 = none := by decide

theorem test_meets_JamReleaseClearsThroat :
    let s := (at1000 .throat).setThroat { ThroatMonitor.reset with jammed := true, relay := true }
    s.port.held = false ∧ s.role = .throat ∧ s.station = .active ∧ s.throat.jammed = true
      ∧ State.reset.throat.jammed = false := by decide

theorem test_meets_SpacerPassageClosesStack :
    let r := { rec 1 9 999 with desc := { piece 1 9 with kind := .spacer }, state := .spacer }
    let s := (held (at1000 .outfeed) [r]).setStream 0
      (counting 1 (.placed ⟨1, 9⟩))
    s.acting = true ∧ s.edgesTaken = true ∧ s.role = .outfeed ∧ (s.outfeed.streams.get 0).spacer = .placed ⟨1, 9⟩
      ∧ s.record ⟨1, 9⟩ = some r
      ∧ 0 < signedDiff s.line.highWater (plus r.tl (-s.run.eye))
      ∧ (s.outfeed.streams.get 0).current = some (1, 7)
      ∧ s.outfeed.planDue = 0 ∧ s.outfeed.queue = [] ∧ s.bid.request = none ∧ s.bid.own = none := by decide

/-- A stream whose second piece ahead fills a stack of three, one piece having passed. -/
theorem test_meets_SpacerPassageClosesStack_plan :
    let a := { Article.unwritten with enabled := true, stack := 3 }
    let s := (held (at1000 .outfeed) [rec 2 5 2000, rec 2 6 3000]).setStream 0 (counting 1 .none)
    let t := s.setStore { s.store with articles := a :: List.replicate 62 .unwritten }
    (t.outfeed.streams.get 0).current = some (1, 7) ∧ (t.outfeed.streams.get 0).lanes ≠ 0
      ∧ (t.outfeed.streams.get 0).spacer = .none ∧ (t.outfeed.streams.get 0).passed < t.store.stackSize 1
      ∧ t.plan 0 = some (some ⟨2, 6⟩) ∧ ((t.setStream 0 (counting 3 .none)).plan 0) = some none := by decide

/-- Every output pulse running to 51,000, with these programs queued. -/
def pulsing (q : List Nat) : State :=
  let s := at1000 .outfeed
  s.setOutfeed { s.outfeed with
    strobe := some 51000, divert := some 51000, stackChange := Quad.fill (some 51000), foldQueue := q }

theorem test_meets_OutfeedPulsesEnd :
    (pulsing []).outfeed.strobe = some 51000 ∧ (pulsing []).outfeed.foldQueue = []
      ∧ (pulsing [6, 7]).outfeed.foldQueue = 6 :: [7] ∧ (pulsing []).outfeed.divert = some 51000
      ∧ (∀ i, (pulsing []).outfeed.stackChange.get i = some 51000) := by decide

theorem test_meets_JoinTravelActivates :
    let s := (at1000 .throat).setStation .joining
    let t := s.setPeers { s.peers with joined := 40000 }
    t.line.atAdvance = true ∧ t.station = .joining ∧ t.run.join ≤ t.peers.joined := by decide

/-- A station that sends nothing and listens from time 0 takes a frame of any kind that ends at 60000. -/
theorem test_taken (s : State) (k : MsgKind) (h : s.link.listenFrom = 0) (hs : s.sending = none) : s.takes k 60000 :=
  ⟨59980 - 20 * (payloadLength k + 5), by cases k <;> rfl, by omega, Or.inl hs⟩

/-- The hypotheses of the statements about a frame that station 2 sends: it is heard, it is known, and its BID of an
unknown tag has room. -/
theorem test_meets_frames_heard (k : MsgKind) :
    let s := knows2 (at1000 .feed)
    s.hears from2 k ∧ s.holdFollows ∧ s.knows 2 ∧ payload2.length = 16
      ∧ readBid s.run.lineLanes 2 (placedAt payload2).desc = some (piece 2 5)
      ∧ s.record ⟨2, 5⟩ = none ∧ s.track.records.length < 64 ∧ s.bid.own = none :=
  ⟨⟨nofun, by decide, by decide, test_taken _ k rfl rfl⟩, ⟨rfl, rfl⟩, ⟨⟨peer2, rfl, rfl⟩, rfl, rfl⟩, rfl, by decide, rfl, by decide,
    rfl⟩

/-- A frame whose first start bit falls in a spoil window, and one that comes after an own attempt began. -/
theorem test_meets_PeerFrameHeard_not_taken :
    let s := knows2 (at1000 .feed)
    let t := sends s [inFlight .jam 0 false]
    ¬ (s.setLink { s.link with listenFrom := 60000 }).takes .jam 60000
      ∧ ¬ (t.setLink { t.link with began := 59880 }).takes .jam 60000
      ∧ (t.setLink { t.link with began := 59881 }).takes .jam 60000 := by
  refine ⟨?_, ?_, ⟨59880, rfl, Nat.zero_le _, Or.inr (by decide)⟩⟩
  · rintro ⟨x, hx, hl, -⟩
    exact absurd (show x + 120 = 60000 from hx.symm) (by have : 60000 ≤ x := hl; omega)
  · rintro ⟨x, hx, -, h | h⟩
    · exact absurd h (by decide)
    · exact absurd (show x + 120 = 60000 from hx.symm) (by have : x < 59880 := h; omega)

/-- A record that station 2's SIGHTINGs can be about: held as BID, as SPACER, as STRAY, and missed once. -/
theorem test_meets_SightingsFileRecords (r : Record) (h : r.desc.tag = ⟨2, 5⟩) :
    (held (knows2 (at1000 .feed)) [r]).record ⟨2, 5⟩ = some r
      ∧ readStray 0xF { (placedAt payload2).desc with kind := 3 } = some { piece 2 5 with kind := .stray, reject := .stray } := by
  refine ⟨?_, by decide⟩
  show List.find? _ [r] = _
  simp [h]

/-- The own frame of `m`, with the payload `p`, comes back to a station of role FEED. -/
def ownFrame (o : OwnBid) (m : Msg) : State :=
  let s := sends (at1000 .feed) [inFlight m 0 false]
  s.setBid { s.bid with own := some o }

/-- The own number in a header. -/
def from1 : Heard := { time := 60000, sender := 1 }

/-- The own BID accepted while its own bid is QUEUED, with nothing against it but READY, which is low, and against a full
list, a SEEN record and a rival. -/
theorem test_meets_BidFilesRecord_own :
    let o := own .queued
    let o1 := { o with state := .settling, accepted := 60000 }
    let s := ownFrame o (.bid o.desc o.window)
    let y : Rival := { tag := ⟨2, 5⟩, rank := .overdue, accepted := 55000 }
    s.hearsOwn from1 (.bid o.desc o.window) (descBytes o.desc.wire ++ [0, 0, 0]) ∧ s.bid.own = some o
      ∧ o.cancelling = false ∧ s.record o.desc.tag = none ∧ s.bid.rivals = [] ∧ s.link.waitingBid = none
      ∧ (s.link.outbox.filter (fun e => !e.sending)).length < 8 ∧ s.firstBeater o1 [] = none
      ∧ s.track.records.length < 64 ∧ s.role = .feed ∧ s.feed.ready = false
      ∧ 64 ≤ (held s crowd).track.records.length
      ∧ bumps s o1 { rec 2 5 5000 with state := .seen } = true
      ∧ (held s [rec 2 5 5000]).firstBeater o1 [y] = some (y, 1) :=
  ⟨⟨nofun, by decide, by decide, rfl, ⟨_, rfl, rfl⟩, fun _ => by decide, rfl⟩, by decide⟩

/-- The own SIGHTING SEEN about the fired tag, accepted. -/
theorem test_meets_SightingsFileRecords_own :
    let o := own .fired
    let s := held (ownFrame o (.seen o.desc 5000 600)) [rec 1 9 5000]
    s.hearsOwn from1 (.seen o.desc 5000 600) ((descBytes o.desc.wire ++ [0, 0, 0]) ++ [0x02, 0x58])
      ∧ (descBytes o.desc.wire ++ [0, 0, 0]).length = 16 ∧ s.bid.own = some o ∧ (s.record o.desc.tag).isSome = true
      ∧ (s.feed.positions.get o.serves).state ≠ .bidding :=
  ⟨⟨nofun, by decide, by decide, rfl, ⟨_, rfl, rfl⟩, fun _ => by decide, rfl⟩, rfl, rfl, by decide, by decide⟩

/-- The payload of a SIGHTING SEEN and the two operands that hold it, divided after its first byte. -/
theorem test_meets_SightingsFileRecords_split :
    payload2.length = 16 ∧ payload2.take 1 ++ (payload2.drop 1 ++ [0x02, 0x58]) = payload2 ++ [0x02, 0x58]
      ∧ readDesc 0xF (placedAt payload2).desc = some (piece 2 5) := by decide

/-- The own RECALL, VOID, JAM, JAM RELEASE and PURGE, accepted. -/
theorem test_meets_own_frames (m : Msg) (h : m = .jam ∨ m = .jamRelease ∨ m = .purge) :
    (ownFrame (own .fired) m).hearsOwn from1 m []
      ∧ (ownFrame (own .fired) (.recall ⟨1, 9⟩)).hearsOwn from1 (.recall ⟨1, 9⟩) [1, 9]
      ∧ (ownFrame (own .fired) (.void ⟨1, 9⟩)).hearsOwn from1 (.void ⟨1, 9⟩) [1, 9]
      ∧ (1 : Nat) ≤ (ownFrame (own .fired) m).number ∧ (ownFrame (own .fired) m).number ≤ 15 := by
  refine ⟨?_, ⟨nofun, by decide, by decide, rfl, ⟨_, rfl, rfl⟩, fun _ => by decide, rfl⟩,
    ⟨nofun, by decide, by decide, rfl, ⟨_, rfl, rfl⟩, fun _ => by decide, rfl⟩, show 1 ≤ 1 by decide, show 1 ≤ 15 by decide⟩
  rcases h with rfl | rfl | rfl <;> exact ⟨nofun, by decide, by decide, rfl, ⟨_, rfl, rfl⟩, fun x => absurd rfl x, rfl⟩

/-- A BID of station 2 that finds no room in the list. -/
theorem test_meets_BidFilesRecord_full :
    let s := held (knows2 (at1000 .feed)) (crowd.map (fun r => { r with desc := { r.desc with tag := ⟨3, r.desc.tag.seq⟩ } }))
    s.record ⟨2, 5⟩ = none ∧ 64 ≤ s.track.records.length ∧ s.bid.own = none := by decide

theorem test_meets_PeerBidJudgesOwn_beaten :
    let o := { own .settling with desc := { piece 1 9 with rank := .deferred }, accepted := 55000 }
    let f := (at1000 .feed).run
    conflict f { desc := piece 2 5, tl := 5100, tt := 5700 } o.span = true
      ∧ max 50000 from2.time < o.accepted + f.line.settle * 1000
      ∧ precedes (piece 2 5).rank 2 o.desc.rank o.desc.tag.owner.toNat = true
      ∧ conflict f { desc := piece 2 5, tl := 1400, tt := 2000 } o.span = false := by decide

theorem test_meets_JamMembersHold :
    hasStation (at1000 .feed).bid.jamming 2 = false ∧ hasStation (0 ||| stationBit 2) 2 = true := by decide

theorem test_meets_LineTimersExpire :
    let s := knows2 (at1000 .feed)
    let t := (s.setLink { s.link with health := some 51000 }).setPeers { s.peers with hailTimer := some 51000 }
    t.link.health = some 51000 ∧ t.peers.hailTimer = some 51000 ∧ t.station = .active
      ∧ t.peer (2 : BitVec 4).toNat = some peer2
      ∧ peer2.state ≠ .silent ∧ t.roomLater = true ∧ t.bid.own = none := by decide

theorem test_meets_DuplicateEntersFault (k : MsgKind) (st : BidState) :
    (bidding (at1000 .feed) st).station = .active ∧ ((at1000 .feed).setStation .fault).station = .fault
      ∧ (bidding (at1000 .feed) st).takes k 60000 ∧ ¬ (at1000 .feed).takes k 19
      ∧ (bidding (at1000 .feed) st).bid.own = some (own st) ∧ (own st).cancelling = false := by
  refine ⟨rfl, rfl, test_taken _ k rfl rfl, ?_, rfl, rfl⟩
  rintro ⟨x, hx, -⟩
  omega

/-- Station 1's slot for a BID in a grid without the fallback: 1 times 16 plus 1 (R151). -/
theorem test_meets_SlotStartSendsEntry :
    let s := sends (at1000 .feed) [Entry.fresh (.bid (piece 1 9) 5000)]
    let t := s.setLink { s.link with quiet := some 50000, waitingBid := some (.bid (piece 1 9) 5000) }
    t.link.quiet = some 50000 ∧ t.waitingFor (17 : Fin 128).val = some (Entry.fresh (.bid (piece 1 9) 5000))
      ∧ t.sending = none ∧ t.station = .active ∧ sharedRoom t.link.outbox = true
      ∧ t.link.waitingBid = some (.bid (piece 1 9) 5000) := by decide

theorem test_meets_DamagedFrameSpoiled :
    judge [(0xB7, true)] = some { fault := .framing, bytes := 1, broken := false } ∧ (0xB7 : Byte) ≠ 0xB6
      ∧ (at1000 .feed).sending = none ∧ (at1000 .feed).link.listenFrom ≤ 50000
      ∧ (let t := sends (at1000 .feed) [inFlight .jam 0 false]
         t.sending ≠ none ∧ 50000 < (t.setLink { t.link with began := 50001 }).link.began
          ∧ (t.setLink { t.link with began := 50000 }).link.began ≤ 50000) ∧ ([] : List Byte).length = payloadLength .jam
      ∧ ((at1000 .feed).setLink { LinkController.reset with spoil := some ⟨49990, 50002⟩ }).drivesSpoil = true
      ∧ ((at1000 .feed).setLink { LinkController.reset with spoil := some ⟨49988, 50000⟩ }).drivesSpoil = false := by decide

theorem test_meets_SpoiledAttemptRetriesOrDrops :
    (sends (at1000 .feed) [inFlight .jam 6 false]).sending = some (inFlight .jam 6 false)
      ∧ (inFlight .jam 6 false).attempts < 7 ∧ 7 ≤ (inFlight .jam 7 false).attempts
      ∧ (inFlight .jam 0 true).cancelling = true ∧ (at1000 .feed).leaving = false
      ∧ (at1000 .feed).bid.own = none := by decide

/-- The eighth spoiled attempt of the own BID, and of the SIGHTING SEEN about the fired tag. -/
theorem test_meets_SpoiledAttemptRetriesOrDrops_own :
    let q := own .queued
    let f := own .fired
    let s := sends (bidding (at1000 .feed) .queued) [inFlight (.bid q.desc 5000) 7 false]
    let t := sends (bidding (at1000 .feed) .fired) [inFlight (.seen f.desc 5000 600) 7 false]
    s.sending = some (inFlight (.bid q.desc 5000) 7 false) ∧ s.bid.own = some q ∧ s.role = .feed ∧ s.feed.ready = false
      ∧ (s.feed.positions.get q.serves).unloading = false
      ∧ t.sending = some (inFlight (.seen f.desc 5000 600) 7 false) ∧ t.bid.own = some f
      ∧ (t.feed.positions.get f.serves).state ≠ .bidding := by decide

theorem test_meets_WithdrawalCompletes :
    let e := inFlight (.bid (piece 1 9) 5000) 0 true
    let o := { own .queued with cancelling := true }
    let s := sends (at1000 .feed) [e]
    let t := s.setBid { s.bid with own := some o, hold := { s.bid.hold with operator := true } }
    t.bid.own = some o ∧ o.state = .queued ∧ t.sending = some e ∧ e.msg = .bid o.desc 5000 ∧ t.leaving = false
      ∧ t.bid.hold.operator = true ∧ (t.link.outbox.filter (fun x => !x.sending)).length < 7 := by decide

theorem test_meets_LeaveEntersSetup :
    (at1000 .feed).station = .active ∧ (at1000 .feed).leaving = false ∧ (at1000 .feed).sending = none
      ∧ (sends (at1000 .feed) [inFlight .jam 0 false]).sending = some (inFlight .jam 0 false)
      ∧ ((at1000 .feed).setLeaving true).leaving = true ∧ State.reset.station = .setup
      ∧ (at1000 .feed).port.held = false ∧ (inFlight .jam 0 true).cancelling = true := by decide

theorem test_meets_ConfigureWritesStore :
    State.reset.station = .setup ∧ 1 ≤ (63#7).toNat ∧ (63#7).toNat ≤ 63 ∧ 63 < (64#7).toNat
      ∧ (at1000 .feed).station ≠ .setup ∧ State.reset.port.held = false ∧ (at1000 .feed).port.held = false
      ∧ 26 ≤ (List.replicate 26 (0 : Byte)).length ∧ ([0] : List Byte).length < 14 := by decide

theorem test_meets_StartEntersJoining :
    (State.reset.setStore store1).station = .setup ∧ (State.reset.setStore store1).store.written = true
      ∧ State.reset.store.written = false ∧ (State.reset.setStore store1).port.held = false
      ∧ store1.line.lanes ≤ 4 := by decide

theorem test_meets_HoldAndPurgeCommands :
    (bidding (at1000 .feed) .settling).bid.hold.operator = false
      ∧ (let s := at1000 .feed
         (s.setBid { s.bid with hold := { s.bid.hold with operator := true } }).bid.hold.operator = true)
      ∧ (bidding (at1000 .feed) .settling).bid.own = some (own .settling)
      ∧ (at1000 .feed).station = .active ∧ State.reset.station = .setup
      ∧ (bidding (at1000 .feed) .settling).port.held = false := by decide

theorem test_meets_ReadsShowRecords :
    (held (at1000 .feed) [rec 2 5 400]).track.records[(0 : Byte).toNat]? = some (rec 2 5 400)
      ∧ State.reset.fifo.held[(0 : Byte).toNat]? = none ∧ State.reset.port.held = false
      ∧ State.reset.port.reply = [] ∧ peer2.hailed = none := by decide

theorem test_meets_PortAcknowledgesAndRefuses :
    let h (n : BitVec 16) : HeldEvent := { seq := n, event := { kind := .left } }
    ([h 65535, h 0, h 1] : List HeldEvent) = [h 65535] ++ h 0 :: [h 1] ∧ (∀ x ∈ [h 65535], x.seq ≠ 0)
      ∧ (∀ x ∈ [h 65535], x.seq ≠ 0x00#8 ++ 0x07#8) ∧ namesNothing 1 0x82 = true ∧ namesNothing 7 2 = true
      ∧ (h 0).seq = 0x00#8 ++ 0x00#8 ∧ State.reset.port.held = false ∧ ([0] : List Byte).length < 2 := by decide

/-- A command at each moment of its transaction, and a port that is held. -/
theorem test_meets_PortAcknowledgesAndRefuses_moments (m : Cs) :
    hostMoment (.leave m) = some m ∧ (State.reset.setPort { LocalPort.reset with held := true }).port.held = true :=
  ⟨rfl, rfl⟩

/-- A FIFO that holds as many events as it can, and a part under the asserted RESET pin. -/
theorem test_meets_PortAcknowledgesAndRefuses_fill :
    ({ State.reset with fifo := { EventFifo.reset with held := List.replicate 32 { seq := 0, event := { kind := .left } } } } :
      State).fifo.held.length ≤ 32 := by decide

theorem test_meets_ResetRestoresAll :
    ((at1000 .feed).setPort { LocalPort.reset with held := true }).port.held = true
      ∧ ((fullReset (at1000 .feed)).setPort { LocalPort.reset with held := true }).inReset
      ∧ (at1000 .feed).port.held = false ∧ (∀ a, Instr.speedUpdate ≠ .fullReset a) := ⟨rfl, rfl, rfl, nofun⟩

/-- A change between the fall of CS and the taking of the command shows in the next status word alone (R178). -/
theorem test_captured_word_shown :
    let s := State.reset.setPort { LocalPort.reset with captured := some 0x1234 }
    execHoldReleased s = .next { s with port := { LocalPort.reset with status := 0x1234 } } := rfl

theorem test_meets_DescriptionRoundTrip :
    (piece 15 9).lanes &&& ~~~(0xF : Lanes) = 0 ∧ (piece 15 9).tag.owner.toNat ≤ 15
      ∧ ({ piece 15 9 with length := 18000 } : Desc).wire.length = 18000
      ∧ (figures3.hailed).role ≠ none ∧ (figures3.hailed).cpm < 65536 := by decide

set_option maxRecDepth 10000 in
/-- An undamaged JAM of station 3, byte by byte. -/
theorem test_meets_FrameCheckFindsDamage :
    judge ((frameOf .jam 3 []).map (fun b => (b, true))) = none ∧ (frameOf .jam 3 []).length = payloadLength .jam + 5
      ∧ (frameOf .jam 3 [])[1]?.map (fun x => x.toNat / 16) = some (kindValue .jam) := by decide

/-! ## The re-check of a SETTLING or GRANTED own bid (R94) -/

/-- An own bid whose claim begins at a window. -/
def ownAt (w : Count) (st : BidState) : OwnBid := { own st with window := w }

/-- The state with that own bid. -/
def biddingAt (s : State) (w : Count) : State := s.setBid { s.bid with own := some (ownAt w .settling) }

/-- An open stray at 990, as a stray sighting of a moment ago left it. -/
def openStray : Record := { rec 2 5 990 with state := .stray, openFrom := some 990 }

/-- An open stray that reaches the claim of the own bid, and one that stays clear of it. -/
theorem test_meets_EncoderStepMovesCount_grown :
    let s := held (biddingAt (at1000 .feed) 1000) [openStray]
    s.port.held = false ∧ s.line.pair = some (false, false) ∧ 0 < signedDiff (s.line.count + 1) s.line.highWater
      ∧ s.track.records.length ≤ 64 ∧ s.bid.own = some (ownAt 1000 .settling)
      ∧ openStray.openFrom ≠ none ∧ openStray.gapLength (s.line.count + 1) ≠ openStray.gapLength s.line.count
      ∧ openStray.state = .stray ∧ openStray.desc.tag ≠ (ownAt 1000 .settling).desc.tag
      ∧ conflict s.run (openStray.span (s.line.count + 1)) (ownAt 1000 .settling).span = true
      ∧ conflict s.run (openStray.span (s.line.count + 1)) (ownAt 5000 .settling).span = false := by decide

/-- A match that moves a record in SEEN onto the claim of the own bid, or beside it; a record in BID bumps none. -/
theorem test_meets_LeadingEdgeMatchesRecord_bump :
    let r := { rec 2 5 975 with state := .seen }
    let s := biddingAt (held (edge (at1000 .feed) .clear) [r]) 1100
    s.acting = true ∧ s.leadingDue = [(0, 980)] ∧ s.absorber 0 980 = none ∧ s.bestCandidate 0 980 = some r
      ∧ s.record r.desc.tag = some r ∧ s.role ≠ .outfeed ∧ (ownAt 1100 .settling).desc.tag ≠ r.desc.tag
      ∧ r.tl ≠ plus 980 s.run.eye
      ∧ conflict s.run ({ r with tl := plus 980 s.run.eye }.span s.line.highWater) (ownAt 1100 .settling).span = true
      ∧ conflict s.run ({ r with tl := plus 980 s.run.eye }.span s.line.highWater) (ownAt 5000 .settling).span = false
      ∧ State.reset.acting = false := by decide

/-- A new stray on the claim of the own bid. -/
theorem test_meets_LeadingEdgeCreatesStray_bump :
    let s := biddingAt (edge (at1000 .feed) .clear) 900
    s.acting = true ∧ s.leadingDue = [(0, 980)] ∧ s.absorber 0 980 = none ∧ s.bestCandidate 0 980 = none
      ∧ s.track.records.length < 64 ∧ (ownAt 900 .settling).desc.tag ≠ s.nextTag ∧ s.role ≠ .outfeed
      ∧ (∃ t r, exec .leadingEdge s = .next t ∧ t.record s.nextTag = some r ∧ s.bumpedBy r (ownAt 900 .settling)) :=
  ⟨by decide, by decide, by decide, by decide, by decide, by decide, by decide, _, _, rfl, rfl,
    Or.inr rfl, fun r h => absurd (show none = some r from h) nofun, by decide⟩

/-- A sighting whose closure takes a record in BID to SEEN on the claim of the own bid, and beside it. -/
theorem test_meets_TrailingEdgeClosesSighting_bump (w : Count) (h : w = 500 ∨ w = 5000) :
    let s := (biddingAt (held (edge (at1000 .feed) .blocked) [rec 2 5 400]) w).setSightings [sighting25]
    s.acting = true ∧ s.leadingDue = [] ∧ s.trailingDue = [(0, 980)] ∧ s.eye.sightings = [sighting25]
      ∧ sighting25.bound = laneBit 0 ∧ (s.record sighting25.tag).isSome = true ∧ s.width.piece = none
      ∧ s.outfeed.underEye = [] ∧ s.link.outbox.length < 6 ∧ s.roomLater = true
      ∧ (ownAt w .settling).desc.tag ≠ sighting25.tag
      ∧ (∃ t r, exec .trailingEdge s = .next t ∧ t.record ⟨2, 5⟩ = some r ∧ r.state = .seen
          ∧ conflict s.run (r.span s.line.highWater) (ownAt w .settling).span = (w == 500)) := by
  rcases h with rfl | rfl
  · exact ⟨by decide, by decide, by decide, rfl, by decide, by decide, rfl, rfl, by decide, by decide, by decide,
      _, _, rfl, rfl, rfl, by decide⟩
  · exact ⟨by decide, by decide, by decide, rfl, by decide, by decide, rfl, rfl, by decide, by decide, by decide,
      _, _, rfl, rfl, rfl, by decide⟩

/-- The payload of station 2's SIGHTING STRAY of tag 2:5. -/
def strayPayload2 : List Byte := payload2.set 2 0x31

/-- Station 2's SIGHTINGs about a tag not held, on the claim of the own bid. -/
theorem test_meets_SightingsFileRecords_bump (k : MsgKind) :
    let s := biddingAt (knows2 (at1000 .feed)) 1500
    s.hears from2 k ∧ s.knows 2 ∧ payload2.length = 16 ∧ strayPayload2.length = 16
      ∧ payload2.take 1 ++ (payload2.drop 1 ++ [0x02, 0x58]) = payload2 ++ [0x02, 0x58]
      ∧ readDesc s.run.lineLanes (placedAt payload2).desc = some (piece 2 5)
      ∧ (readStray s.run.lineLanes (placedAt strayPayload2).desc).any (fun d => d.tag == ⟨2, 5⟩ && d.kind == .stray) = true
      ∧ (piece 2 5).kind ≠ .spacer ∧ s.track.records.length < 64
      ∧ (∀ i, (s.outfeed.streams.get i).spacer ≠ .requested (some ⟨2, 5⟩))
      ∧ (ownAt 1500 .settling).desc.tag ≠ ⟨2, 5⟩ ∧ s.record ⟨2, 5⟩ = none
      ∧ conflict s.run { desc := piece 2 5, tl := 1400, tt := 2000 } (ownAt 1500 .settling).span = true :=
  ⟨⟨nofun, by decide, by decide, test_taken _ k rfl rfl⟩, ⟨⟨peer2, rfl, rfl⟩, rfl, rfl⟩, rfl, rfl, by decide, by decide,
    by decide, by decide, by decide, by decide, by decide, rfl, by decide⟩

/-- A record under the own tag whose own flag is clear stays where the bid is recalled as late; one that is the station's
own goes (R48). -/
theorem test_recall_keeps_foreign_record (f : Bool) :
    (match exec .settleTimerExpiry (held lateBid [{ rec 1 9 5000 with own := f }]) with
      | .next t => (t.record ⟨1, 9⟩).isSome == !f && (t.fifo.held.map (fun h => h.event.code) == [some 6])
      | _ => false) = true := by cases f <;> decide

/-! ## The other widened clauses -/

theorem test_meets_FireSequenceRuns_others :
    (firing .beforeGrip).feed.fire.bind (fun q => q.position) ≠ some 1
      ∧ ((firing .beforeGrip).feed.positions.get 1).state = .empty := by decide

/-- Positions 1 and 2 occupied, in the order of their filling. -/
theorem test_meets_LoadFillsNextPosition_chain :
    twoLoaded.feed.head = some 0 ∧ twoLoaded.feed.newest = some 1
      ∧ (∀ i : Fin 4, [2, 3, 0, 1][i] = (i - (twoLoaded.feed.lastFilled + 1)).val) := by decide

/-- A lane that a matched sighting blocks, one that a stray's blocks, and a lane with no base. -/
theorem test_meets_JamConditionDeclaresJam_bound (stray : Bool) :
    let g := { sighting25 with stray := stray }
    let s := (held (blocked 900) [rec 2 5 400]).setSightings [g]
    s.eye.sightings = [g] ∧ hasLane g.bound 0 = true ∧ s.record g.tag = some (rec 2 5 400) ∧ 0 ≤ s.run.eye
      ∧ s.throat.bases.get 0 = some 0 ∧ s.throat.bases.get 1 = none := by cases stray <;> decide

/-- A peer with other lanes on the line and another lot break. -/
theorem test_meets_HailUpdatesPeer_difference :
    let f := { figures3.hailed with lineLanes := 2, lotBreak := 7 }
    f.cpm = figures3.line.cpm ∧ f.lineLanes ≠ figures3.line.lanes ∧ firstDifference figures3 f = some (2, 2)
      ∧ firstDifference figures3 figures3.hailed = none := by decide

/-- A conflicting BID of the same rank from a higher station number, one after the interval, and a GRANTED bid. -/
theorem test_meets_PeerBidJudgesOwn_stands :
    let s := knows2 (at1000 .feed)
    conflict s.run { desc := piece 2 5, tl := 5100, tt := 5700 } (own .settling).span = true
      ∧ precedes (piece 2 5).rank 2 (own .settling).desc.rank 1 = false
      ∧ (own .settling).accepted ≤ max s.now from2.time
      ∧ ¬ max s.now from2.time < { own .settling with accepted := 40000 }.accepted + s.run.line.settle * 1000
      ∧ (own .granted).state = .granted := by decide

/-- An OUTFEED station at which tag 2:5 is in every list: in a sighting, under the eye, at the width sampler, and as the
spacer of stream 1. -/
def touched (ph : WidthPhase) (sp : SpacerState) : State :=
  let s := (held (knows2 (at1000 .outfeed)) [rec 2 5 400]).setSightings [sighting25]
  let t := s.setWidth { s.width with
    phase := ph, piece := some { widthPiece false 1000 with tag := ⟨2, 5⟩ }
    pending := some { widthPiece false 1200 with tag := ⟨2, 5⟩ } }
  let u := t.setOutfeed { t.outfeed with underEye := [{ tag := ⟨2, 5⟩, stream := some 0, serial := 0, counted := true }] }
  u.setStream 0 (counting 1 sp)

theorem test_meets_OwnerWithdrawsRecord_forgets (k : MsgKind) (ph : WidthPhase) (sp : SpacerState) :
    (touched ph sp).hears from2 k ∧ (touched ph sp).knows 2 ∧ ((touched ph sp).record ⟨2, 5⟩).isSome = true
      ∧ (⟨2, 5⟩ : Tag).owner.toNat = from2.sender.toNat ∧ (touched ph sp).bid.own = none
      ∧ (touched ph sp).width.phase = ph ∧ ((touched ph sp).width.piece.any (fun p => p.tag == ⟨2, 5⟩)) = true
      ∧ ((touched ph sp).outfeed.streams.get 0).spacer = sp :=
  ⟨⟨nofun, by decide, show (2 : Nat) ≠ 1 by decide, test_taken _ k rfl rfl⟩, ⟨⟨peer2, rfl, rfl⟩, rfl, rfl⟩, rfl, rfl, rfl,
    rfl, rfl, rfl⟩

/-- The withdrawal behind which a requested spacer stands that the bid engine bids for, its BID SENDING or not. -/
def withdrawn (st : BidState) (l : List Entry) : State :=
  let s := touched .idle (.requested (some ⟨2, 5⟩))
  let t := sends s l
  (t.setLink { t.link with began := 60000 }).setBid { t.bid with
    own := some { own st with desc := { piece 1 9 with kind := .spacer } }
    request := some { stream := 0, lanes := 1, length := 100, endPiece := some ⟨2, 5⟩ } }

theorem test_meets_OwnerWithdrawsRecord_spacer (st : BidState) :
    let s := withdrawn st []
    let t := withdrawn st [inFlight (.bid (piece 1 9) 5000) 0 false]
    s.hears from2 .recall ∧ t.hears from2 .recall ∧ s.knows 2 ∧ (s.record ⟨2, 5⟩).isSome = true
      ∧ (s.outfeed.streams.get 0).spacer = .requested (some ⟨2, 5⟩) ∧ s.roomFirst ∧ ¬ t.bidWaits
      ∧ (s.feed.positions.get 0).unloading = false
      ∧ s.bid.own.any (fun o => o.state == st && !o.cancelling && o.serves == 0 && o.desc.tag != ⟨2, 5⟩) = true := by
  have two : (2 : Nat) ≠ 1 := by decide
  refine ⟨⟨nofun, by decide, two, test_taken _ _ rfl rfl⟩, ⟨nofun, by decide, two, 59840, rfl, Nat.zero_le _,
    Or.inr (by show 59840 < 60000; decide)⟩, ⟨⟨peer2, rfl, rfl⟩, rfl, rfl⟩, rfl, rfl, by show 0 < 8; decide, ?_, rfl, ?_⟩
  · rintro (h | h)
    · exact h rfl
    · exact h _ (List.mem_singleton.2 rfl) rfl rfl
  · cases st <;> decide

/-- A PURGE that finds an own bid SETTLING, QUEUED with its BID SENDING, or at a marked position. -/
theorem test_meets_PurgeEmptiesLists_own (st : BidState) :
    let s := bidding (knows2 (clamped (at1000 .feed) .bidding)) st
    let t := (sends s [inFlight (.bid (piece 1 9) 5000) 0 false])
    let u := t.setLink { t.link with began := 60000 }
    s.hears from2 .purge ∧ u.hears from2 .purge ∧ s.knows 2 ∧ s.bid.own = some (own st) ∧ s.bidWaits ∧ ¬ u.bidWaits
      ∧ (s.feed.positions.get (own st).serves).state = .bidding
      ∧ (s.feed.positions.get (own st).serves).unloading = false
      ∧ (own st).serves ≠ 1 := by
  have two : (2 : Nat) ≠ 1 := by decide
  refine ⟨⟨nofun, by decide, two, test_taken _ _ rfl rfl⟩, ⟨nofun, by decide, two, 59880, rfl, Nat.zero_le _,
    Or.inr (by show 59880 < 60000; decide)⟩, ⟨⟨peer2, rfl, rfl⟩, rfl, rfl⟩, rfl, Or.inr nofun, ?_, rfl, rfl,
    show (0 : Fin 4) ≠ 1 by decide⟩
  rintro (h | h)
  · exact h rfl
  · exact h _ (List.mem_singleton.2 rfl) rfl rfl

/-- The entry of another slot does not stand in the way of station 1's slot for a BID, and is not of it. -/
theorem test_meets_SlotStartSendsEntry_others :
    let s := sends (at1000 .feed) [Entry.fresh .jam, Entry.fresh (.bid (piece 1 9) 5000)]
    s.slotOf .jam = 1 ∧ s.waitingFor 17 = some (Entry.fresh (.bid (piece 1 9) 5000)) ∧ s.waitingFor 33 = none := by decide

/-- A header of no kind, one of sender 0, the header of station 3's BID, and payloads of its length and one byte less. -/
theorem test_meets_DamagedFrameSpoiled_headers :
    (∀ k, kindValue k ≠ (0xF3 : Byte).toNat / 16) ∧ (0x60 : Byte).toNat % 16 = 0
      ∧ kindValue .bid = (0x63 : Byte).toNat / 16 ∧ (0x63 : Byte).toNat % 16 ≠ 0
      ∧ (0x10 : Byte).toNat = payloadLength .bid ∧ (0x11 : Byte).toNat ≠ payloadLength .bid
      ∧ (List.replicate 18 (0 : Byte)).length = (0x10 : Byte).toNat + 2
      ∧ (List.replicate 17 (0 : Byte)).length < (0x10 : Byte).toNat + 2 :=
  ⟨fun k => by cases k <;> decide, by decide⟩

/-- A THROAT started after a FEED shows no lead (R9, section 11.5). -/
theorem test_shown_lead (r : Role) :
    ((at1000 r).setLine { (at1000 r).line with lead := 144 }).shownLead = if r = .feed then 144 else 0 := by
  cases r <;> rfl

/-! ## An own bid at a hold cause, and the station's own frames -/

/-- An own bid whose BID is SENDING when `sending` holds, in a list that holds the bid's record, beside a frame of station 2
that begins before the attempt. -/
def holding (st : BidState) (sending : Bool) : State :=
  let s := bidding (held (knows2 (clamped (at1000 .feed) .bidding)) [{ rec 1 9 5000 with own := true }]) st
  let t := sends s (if sending then [inFlight (.bid (piece 1 9) 5000) 0 false] else [])
  t.setLink { t.link with began := 60000, health := some 51000 }

/-- What the statements about MISMATCH, LINE_DOWN and JAM ask of the own bid, in each of its states, withdrawn at once or
marked cancelling. -/
theorem test_meets_held_back (k : MsgKind) (st : BidState) (sending : Bool) :
    let s := holding st sending
    s.hears from2 k ∧ s.knows 2 ∧ s.bid.own = some (own st) ∧ (own st).cancelling = false
      ∧ (s.feed.positions.get (own st).serves).unloading = false
      ∧ (s.feed.positions.get (own st).serves).state = .bidding
      ∧ s.recallFits (own st) ∧ (s.bidWaits ↔ sending = false) ∧ s.link.health = some 51000
      ∧ s.bid.hold.mismatch = false ∧ s.bid.hold.lineDown = false ∧ s.bid.hold.jam = false
      ∧ hasStation s.bid.jamming 2 = false ∧ (s.record (own st).desc.tag).any (fun r => r.own) = true := by
  refine ⟨⟨nofun, by decide, show (2 : Nat) ≠ 1 by decide, ?_⟩, ⟨⟨peer2, rfl, rfl⟩, rfl, rfl⟩, rfl, rfl, rfl, rfl, ?_, ?_, rfl, rfl, rfl,
    rfl, show hasStation 0 2 = false by decide, rfl⟩
  · refine ⟨59980 - 20 * (payloadLength k + 5), by cases k <;> rfl, Nat.zero_le _, Or.inr ?_⟩
    show 59980 - 20 * (payloadLength k + 5) < 60000
    omega
  · intro _
    cases sending
    · show 0 < 8
      decide
    · show 1 < 8
      decide
  · cases sending
    · exact ⟨fun _ => rfl, fun _ => Or.inr nofun⟩
    · refine ⟨?_, nofun⟩
      rintro (h | h)
      · exact absurd rfl h
      · exact absurd rfl (h _ (List.mem_singleton.2 rfl) rfl)

/-- The causes held already. -/
theorem test_meets_held_already (st : BidState) (h : HoldSet) :
    let s := (holding st false).setBid { (holding st false).bid with hold := h }
    s.bid.own = some (own st) ∧ s.bid.hold = h ∧ s.link.health = some 51000 ∧ hasStation s.bid.jamming 2 = false :=
  ⟨rfl, rfl, rfl, show hasStation 0 2 = false by decide⟩

/-- The payload of a HAIL with the figures of this station, and of one whose fourth setting differs. -/
def hailPayload (strayGap : Nat) : List Byte := hailBytes { (at1000 .feed).run.hailed with strayGap := strayGap }

/-- A HAIL of station 2 that brings MISMATCH, and one that leaves it PRESENT: an own bid is recalled with code 4 by the one
alone (R81, R168). -/
theorem test_meets_HailUpdatesPeer_held (differs : Bool) :
    let p := hailPayload ((at1000 .feed).run.line.strayGap + if differs then 1 else 0)
    p.length = 13
      ∧ (match exec (.hail from2 p) (holding .granted false) with
        | .next t => t.peers.anyMismatch == differs && t.bid.own.isNone == differs
            && t.fifo.held.map (fun h => (h.event.kind, h.event.code)) ==
              (if differs then [(.peerMismatch, some 4), (.recalled, some 4)] else [])
        | _ => false) = true := by cases differs <;> decide

/-- The own HAIL, accepted. -/
theorem test_meets_HailUpdatesPeer_own (st : BidState) :
    (ownFrame (own st) .hail).hearsOwn from1 .hail (hailPayload 0) :=
  ⟨nofun, by decide, rfl, by decide, ⟨_, rfl, rfl⟩, fun x => absurd rfl x, rfl⟩

/-- The own JAM, accepted beside an own bid, while the cause is not held. -/
theorem test_meets_JamMembersHold_own (st : BidState) :
    let s := ownFrame (own st) .jam
    s.hearsOwn from1 .jam [] ∧ hasStation s.bid.jamming from1.sender.toNat = false ∧ s.bid.own = some (own st)
      ∧ s.bid.hold.jam = false ∧ (s.feed.positions.get (own st).serves).unloading = false
      ∧ (s.setOutbox (s.link.outbox.filter (fun e => !e.sending))).recallFits (own st) :=
  ⟨⟨nofun, by decide, rfl, rfl, ⟨_, rfl, rfl⟩, fun x => absurd rfl x, rfl⟩, show hasStation 0 1 = false by decide, rfl, rfl, rfl,
    fun _ => show 0 < 8 by decide⟩

/-- A miss of an own piece with no own bid, with one about another tag, and with one about its tag that is not FIRED. -/
theorem test_meets_MissCountedOrReported_unfired (st : BidState) (h : st ≠ .fired) :
    let r := { rec 1 9 800 with own := true }
    let s := held (at1000 .feed) [r]
    let t := s.setBid { s.bid with own := some { own .fired with desc := piece 1 8 } }
    s.acting = true ∧ s.edgesTaken = true ∧ s.station = .active ∧ s.record ⟨1, 9⟩ = some r ∧ s.missedNow r = true
      ∧ r.own = true ∧ r.desc.kind = .piece ∧ s.roomFirst ∧ s.bid.own = none
      ∧ (bidding s st).bid.own = some (own st) ∧ (own st).state ≠ .fired ∧ t.missedNow r = true
      ∧ { own .fired with desc := piece 1 8 }.desc.tag ≠ ⟨1, 9⟩ :=
  ⟨by decide, by decide, rfl, rfl, by decide, rfl, rfl, by show 0 < 8; decide, rfl, rfl, h, by decide, by decide⟩

/-- A stray of tag 2:5, as a SIGHTING STRAY carries it. -/
def strayPiece : Desc := { piece 2 5 with kind := .stray, reject := .stray }

/-- The own SIGHTING SEEN, SIGHTING STRAY and SIGHTING MISSED about tag 2:5, accepted beside an own bid about another
tag, with the record held in any state or not at all, and with the list full. -/
theorem test_meets_own_sightings (st : BidState) (r : Record) (h : r.desc.tag = ⟨2, 5⟩) :
    let seen := ownFrame (own st) (.seen (piece 2 5) 1400 400)
    let stray := ownFrame (own st) (.stray strayPiece 1400)
    let missed := ownFrame (own st) (.missed (piece 2 5) 1400)
    seen.hearsOwn from1 (.seen (piece 2 5) 1400 400) (payload2 ++ [0x01, 0x90])
      ∧ stray.hearsOwn from1 (.stray strayPiece 1400) strayPayload2
      ∧ missed.hearsOwn from1 (.missed (piece 2 5) 1400) payload2
      ∧ (own st).desc.tag ≠ ⟨2, 5⟩ ∧ seen.record ⟨2, 5⟩ = none ∧ (held seen [r]).record ⟨2, 5⟩ = some r
      ∧ (piece 2 5).kind ≠ .spacer ∧ seen.track.records.length < 64
      ∧ (∀ i, (seen.outfeed.streams.get i).spacer ≠ .requested (some ⟨2, 5⟩)) := by
  refine ⟨⟨nofun, by decide, rfl, by decide, ⟨_, rfl, rfl⟩, fun _ => by decide, rfl⟩,
    ⟨nofun, by decide, rfl, by decide, ⟨_, rfl, rfl⟩, fun _ => by decide, rfl⟩,
    ⟨nofun, by decide, rfl, by decide, ⟨_, rfl, rfl⟩, fun _ => by decide, rfl⟩, (by decide : (⟨1, 9⟩ : Tag) ≠ ⟨2, 5⟩), rfl, ?_,
    by decide, by show 0 < 64; decide, fun i => ?_⟩
  · show List.find? _ [r] = _
    simp [h]
  · show ((at1000 .feed).outfeed.streams.get i).spacer ≠ _
    revert i
    decide

/-- The own SIGHTING about the tag of a QUEUED or FIRED own bid. -/
theorem test_meets_SightingsFileRecords_ownTag (st : BidState) (h : st = .queued ∨ st = .fired) :
    let s := ownFrame (own st) (.seen (piece 1 9) 5000 600)
    s.hearsOwn from1 (.seen (piece 1 9) 5000 600) (descBytes (piece 1 9).wire ++ [0, 0, 0] ++ [0x02, 0x58])
      ∧ s.bid.own = some (own st) ∧ (own st).desc.tag = ⟨1, 9⟩ ∧ ((own st).state = .queued ∨ (own st).state = .fired) :=
  ⟨⟨nofun, by decide, rfl, by decide, ⟨_, rfl, rfl⟩, fun _ => by decide, rfl⟩, rfl, rfl, h⟩

/-- A SIGHTING of an unknown tag at a full list, from station 2 and from this station, with no own bid. -/
theorem test_meets_SightingsFileRecords_full (k : MsgKind) :
    let l := crowd.map (fun r => { r with desc := { r.desc with tag := ⟨3, r.desc.tag.seq⟩ } })
    let s := held (knows2 (at1000 .feed)) l
    let seen := sends (held (at1000 .feed) l) [inFlight (.seen (piece 2 5) 1400 400) 0 false]
    let stray := sends (held (at1000 .feed) l) [inFlight (.stray strayPiece 1400) 0 false]
    s.hears from2 k ∧ s.knows 2 ∧ s.holdFollows ∧ s.record ⟨2, 5⟩ = none ∧ 64 ≤ s.track.records.length ∧ s.bid.own = none
      ∧ seen.hearsOwn from1 (.seen (piece 2 5) 1400 400) (payload2 ++ [0x01, 0x90])
      ∧ stray.hearsOwn from1 (.stray strayPiece 1400) strayPayload2 ∧ seen.holdFollows ∧ stray.holdFollows
      ∧ readStray s.run.lineLanes (placedAt strayPayload2).desc = some strayPiece :=
  ⟨⟨nofun, by decide, show (2 : Nat) ≠ 1 by decide, test_taken _ k rfl rfl⟩, ⟨⟨peer2, rfl, rfl⟩, rfl, rfl⟩, ⟨rfl, rfl⟩, by decide,
    by decide, rfl, ⟨nofun, by decide, rfl, by decide, ⟨_, rfl, rfl⟩, fun _ => by decide, rfl⟩,
    ⟨nofun, by decide, rfl, by decide, ⟨_, rfl, rfl⟩, fun _ => by decide, rfl⟩, ⟨rfl, rfl⟩, ⟨rfl, rfl⟩, by decide⟩

/-- The own SIGHTINGs on the claim of the own bid: the record they leave bumps it (R94). -/
theorem test_meets_SightingsFileRecords_ownBump :
    let s := ownFrame (ownAt 1500 .settling) (.stray strayPiece 1400)
    (match exec (.sightingStray from1 strayPayload2) s with
      | .next t => (t.record ⟨2, 5⟩).any (fun r => r.state == .stray && r.reporter == 1 && r.tl == 1400) && t.bid.own.isNone
          && t.fifo.held.map (fun h => (h.event.kind, h.event.code)) == [(.recalled, some 7)]
          && t.link.outbox == [Entry.fresh (.recall ⟨1, 9⟩)]
      | _ => false) = true ∧ (ownAt 1500 .settling).desc.tag ≠ ⟨2, 5⟩ := by decide

/-- A second miss, told by station 2 and by this station, of a record with no own bid and of the FIRED record. -/
theorem test_meets_MissedReportCounted_second :
    let r := { rec 1 9 5000 with missed := true, own := true }
    let m := Msg.missed (piece 1 9) 5000
    let p := descBytes (piece 1 9).wire ++ [0, 0, 0]
    let s := held (bidding (knows2 (at1000 .feed)) .fired) [r]
    let t := held (ownFrame (own .fired) m) [r]
    s.hears from2 .sightingMissed ∧ s.knows 2 ∧ t.hearsOwn from1 m p
      ∧ readDesc s.run.lineLanes (placedAt p).desc = some (piece 1 9)
      ∧ s.record ⟨1, 9⟩ = some r ∧ t.record ⟨1, 9⟩ = some r ∧ r.state ≠ .spacer ∧ r.missed = true
      ∧ s.bid.own = some (own .fired) ∧ t.bid.own = some (own .fired)
      ∧ (s.feed.positions.get (own .fired).serves).state ≠ .bidding
      ∧ (held (knows2 (at1000 .feed)) [r]).bid.own = none :=
  ⟨⟨nofun, by decide, show (2 : Nat) ≠ 1 by decide, test_taken _ _ rfl rfl⟩, ⟨⟨peer2, rfl, rfl⟩, rfl, rfl⟩,
    ⟨nofun, by decide, rfl, by decide, ⟨_, rfl, rfl⟩, fun _ => by decide, rfl⟩, by decide, rfl, rfl, by decide, rfl, rfl, rfl,
    by decide, rfl⟩

/-- The own SIGHTING MISSED counts the first miss of an ACTIVE station, and the second takes the FIRED record with LOST and
UNCONFIRMED (R43, R47, R98). -/
theorem test_own_missed (second : Bool) :
    (match exec (.sightingMissed from1 (descBytes (piece 1 9).wire ++ [0, 0, 0]))
        (held (ownFrame (own .fired) (.missed (piece 1 9) 5000)) [{ rec 1 9 5000 with missed := second, own := true }]) with
      | .next t => t.record ⟨1, 9⟩ == (if second then none else
            some { rec 1 9 5000 with missed := true, own := true, reporter := 1 })
          && t.fifo.held.map (fun h => (h.event.kind, h.event.code)) ==
            (if second then [(.lost, some 1), (.unconfirmed, some 2)] else [])
      | _ => false) = true := by cases second <;> decide

/-! ## The invariants -/

/-- The state after reset meets every invariant, and its first step answers a next state. -/
theorem test_meets_invariants : State.reset.feed.valvesSafe ∧ State.reset.track.records = [] ∧ State.reset.fifo.held = []
    ∧ State.reset.link.outbox = [] ∧ State.reset.holdFollows ∧ State.reset.numbered
    ∧ step State.reset = .next (idle State.reset) :=
  ⟨⟨rfl, rfl⟩, rfl, rfl, rfl, ⟨rfl, rfl⟩, ⟨by decide, by decide, by decide, by decide⟩, rfl⟩

end Sys2Proof.Tests
end

section
/-! The conversion of millimetres to counts (R12). -/
namespace Sys2Proof.Machine

/-- The converted distance is the one whole number of counts at or above `mm * cpm / 1000` and less than one above it
(R12). -/
theorem mmToCounts_eq_iff (cpm : Nat) (mm n : Int) :
    mmToCounts cpm mm = n ↔ mm * cpm ≤ n * 1000 ∧ n * 1000 < mm * cpm + 1000 := by
  have floor_iff : -(mm * cpm) / 1000 = -n ↔ -n * 1000 ≤ -(mm * cpm) ∧ -(mm * cpm) < -n * 1000 + 1000 :=
    Int.ediv_eq_iff_of_pos (k := 1000) (by decide)
  rw [mmToCounts, neg_eq_iff_eq_neg, floor_iff]
  omega

/-- No distance is no count, at every cpm. -/
@[simp] theorem mmToCounts_zero (cpm : Nat) : mmToCounts cpm 0 = 0 := by
  simp [mmToCounts_eq_iff]

/-- Settles O5: both bounds and every figure are instances of `mmToCounts_eq_iff`. -/
theorem distanceConversionRoundsUp : Obligations.DistanceConversionRoundsUp := by
  have figure {cpm : Nat} {mm n : Int} := (mmToCounts_eq_iff cpm mm n).mpr
  exact ⟨fun cpm mm => (mmToCounts_eq_iff cpm mm _).mp rfl, figure (by decide), figure (by decide), figure (by decide),
    figure (by decide), mmToCounts_zero⟩

end Sys2Proof.Machine
end

section
/-! The required gap between two descriptions (R28): one equation for each row of the rule's table. -/
namespace Sys2Proof.Machine

variable {f : Figures} {a b : Desc}

/-- Objects that share no lane need no gap. -/
@[simp] theorem gap_of_not_share (apart : share a.lanes b.lanes = false) : gap f a b = 0 := by
  simp [gap, apart]

/-- A spacer ahead needs no gap, whether or not the lanes meet. -/
@[simp] theorem gap_of_spacer_ahead (ha : a.kind = .spacer) : gap f a b = 0 := by
  simp [gap, ha]

/-- A spacer behind needs no gap, whatever stands ahead of it. -/
@[simp] theorem gap_of_spacer_behind (hb : b.kind = .spacer) : gap f a b = 0 := by
  cases ha : a.kind with
  | spacer => exact gap_of_spacer_ahead ha
  | piece | stray => simp [gap, ha, hb]

/-- Two pieces keep the longer of their own gaps, and the lot break on top where the lot changes. -/
theorem gap_of_piece_piece (shared : share a.lanes b.lanes = true) (ha : a.kind = .piece) (hb : b.kind = .piece) :
    gap f a b = max a.trail b.lead + (if a.lot ≠ b.lot then f.lotBreak else 0) := by
  simp [gap, shared, ha, hb]

/-- A stray brings the station's stray gap in place of the leading gap that it does not carry. -/
theorem gap_of_piece_stray (shared : share a.lanes b.lanes = true) (ha : a.kind = .piece) (hb : b.kind = .stray) :
    gap f a b = max a.trail f.strayGap := by
  simp [gap, shared, ha, hb]

/-- A stray brings the station's stray gap in place of the trailing gap that it does not carry. -/
theorem gap_of_stray_piece (shared : share a.lanes b.lanes = true) (ha : a.kind = .stray) (hb : b.kind = .piece) :
    gap f a b = max f.strayGap b.lead := by
  simp [gap, shared, ha, hb]

/-- Two strays keep the stray gap of the station. -/
theorem gap_of_stray_stray (shared : share a.lanes b.lanes = true) (ha : a.kind = .stray) (hb : b.kind = .stray) :
    gap f a b = f.strayGap := by
  simp [gap, shared, ha, hb]

end Sys2Proof.Machine
end

section
namespace Sys2Proof.Machine

/-- Settles O6: each clause is the equation of `gap` for its pair of kinds. -/
theorem gapFollowsKinds : Obligations.GapFollowsKinds := fun _ _ _ =>
  ⟨gap_of_not_share, fun shared =>
    ⟨gap_of_piece_piece shared, gap_of_piece_stray shared, gap_of_stray_piece shared, gap_of_stray_stray shared,
      gap_of_spacer_ahead, gap_of_spacer_behind⟩⟩

end Sys2Proof.Machine
end

section
/-! The laws of the plain operations: fours, the event FIFO (R184), the outbox lists (R154), the track list (R32) and the
free tag (R27). -/
namespace Sys2Proof.Machine

/-! ## Fours -/

@[simp] theorem Quad.get_set_self {α : Type} (q : Quad α) (i : Fin 4) (x : α) : (q.set i x).get i = x := by
  fin_cases i <;> rfl

theorem Quad.get_set_of_ne {α : Type} (q : Quad α) {i j : Fin 4} (h : j ≠ i) (x : α) : (q.set i x).get j = q.get j := by
  fin_cases i <;> fin_cases j <;> first | rfl | exact absurd rfl h

theorem Quad.get_set {α : Type} (q : Quad α) (i j : Fin 4) (x : α) :
    (q.set i x).get j = if j = i then x else q.get j := by
  split
  · subst_vars; simp
  · exact Quad.get_set_of_ne q ‹_› x

@[simp] theorem Quad.set_get_self {α : Type} (q : Quad α) (i : Fin 4) : q.set i (q.get i) = q := by
  fin_cases i <;> rfl

@[simp] theorem Quad.set_set {α : Type} (q : Quad α) (i : Fin 4) (x y : α) : (q.set i x).set i y = q.set i y := by
  fin_cases i <;> rfl

@[simp] theorem Quad.get_fill {α : Type} (x : α) (i : Fin 4) : (Quad.fill x).get i = x := by
  fin_cases i <;> rfl

@[simp] theorem Quad.get_mapAt {α β : Type} (q : Quad α) (f : Fin 4 → α → β) (i : Fin 4) :
    (q.mapAt f).get i = f i (q.get i) := by
  fin_cases i <;> rfl

/-- Two fours with the same members are the same. -/
theorem Quad.ext_get {α : Type} {p q : Quad α} (h : ∀ i, p.get i = q.get i) : p = q := by
  obtain ⟨a, b, c, d⟩ := p
  obtain ⟨a', b', c', d'⟩ := q
  have h0 : a = a' := h 0
  have h1 : b = b' := h 1
  have h2 : c = c' := h 2
  have h3 : d = d' := h 3
  rw [h0, h1, h2, h3]

/-! ## The event FIFO (R184) -/

theorem consecutive_append (n : BitVec 16) (e : Event) : ∀ l : List HeldEvent, consecutive n l →
    consecutive (n + 1) (l ++ [{ seq := n, event := e }])
  | [], _ => ⟨rfl, trivial⟩
  | h :: hs, ⟨hseq, rest⟩ => by
    have len : (hs ++ [(⟨n, e⟩ : HeldEvent)]).length = hs.length + 1 := by simp
    refine ⟨?_, consecutive_append n e hs rest⟩
    change h.seq + BitVec.ofNat 16 ((hs ++ [(⟨n, e⟩ : HeldEvent)]).length + 1) = n + 1
    rw [len, ← hseq, BitVec.add_assoc, BitVec.ofNat_add (hs.length + 1) 1]
    rfl

theorem consecutive_drop_one {n : BitVec 16} {l : List HeldEvent} (h : consecutive n l) : consecutive n (l.drop 1) := by
  cases l with
  | nil => exact h
  | cons x xs => exact h.2

/-- An event that is entered, dropped, or entered over the oldest leaves the FIFO ordered (R184). -/
theorem EventFifo.enter_ordered (f : EventFifo) (mode : FifoMode) (e : Event) (h : f.ordered) : (f.enter mode e).ordered := by
  obtain ⟨len, run⟩ := h
  unfold EventFifo.enter
  split
  · rename_i room
    exact ⟨by simp only [List.length_append, List.length_singleton]; omega, consecutive_append _ _ _ run⟩
  · cases mode with
    | blocking => exact ⟨len, run⟩
    | overwrite =>
      refine ⟨?_, consecutive_append _ _ _ (consecutive_drop_one run)⟩
      simp only [List.length_append, List.length_drop, List.length_singleton]
      have : Config.fifoCapacity = 32 := rfl
      omega

/-- What an acknowledgement leaves is ordered, and no longer than what was held (R189). -/
theorem afterSeq_ordered (m n : BitVec 16) : ∀ l l' : List HeldEvent, afterSeq m l = some l' → consecutive n l →
    consecutive n l' ∧ l'.length ≤ l.length
  | [], _, h, _ => by cases h
  | x :: xs, l', h, ⟨_, run⟩ => by
    unfold afterSeq at h
    split at h
    · cases h
      exact ⟨run, Nat.le_succ _⟩
    · obtain ⟨run', len⟩ := afterSeq_ordered m n xs l' h run
      exact ⟨run', Nat.le_succ_of_le len⟩

/-! ## The outbox lists (R154) -/

theorem sharedCount_append (l m : List Entry) : sharedCount (l ++ m) = sharedCount l + sharedCount m := by
  simp [sharedCount]

theorem sharedCount_fresh (m : Msg) : sharedCount [Entry.fresh m] = if m.cls = 0 then 0 else 1 := by
  by_cases h : m.cls = 0 <;> simp [sharedCount, Entry.fresh, h]

theorem sharedCount_le_of_sublist {l m : List Entry} (h : l.Sublist m) : sharedCount l ≤ sharedCount m :=
  (h.filter _).length_le

/-- The three capacities of the outbox, for a list of entries (R154). -/
def outboxWithin (l : List Entry) : Prop :=
  l.length ≤ Config.outboxCapacity ∧ sharedCount l ≤ Config.outboxShared ∧ (l.filter (fun e => e.sending)).length ≤ 1

theorem within_iff (k : LinkController) : k.within ↔ outboxWithin k.outbox := Iff.rfl

theorem outboxWithin_of_sublist {l m : List Entry} (h : l.Sublist m) (k : outboxWithin m) : outboxWithin l :=
  ⟨h.length_le.trans k.1, (sharedCount_le_of_sublist h).trans k.2.1, ((h.filter _).length_le).trans k.2.2⟩

/-- A change of entries that keeps each message, and makes none SENDING, keeps the capacities. -/
theorem outboxWithin_map {f : Entry → Entry} (msg : ∀ e, (f e).msg = e.msg)
    (sending : ∀ e, (f e).sending = true → e.sending = true) {l : List Entry} (h : outboxWithin l) :
    outboxWithin (l.map f) := by
  obtain ⟨len, shared, one⟩ := h
  refine ⟨by rwa [List.length_map], ?_, ?_⟩
  · have : sharedCount (l.map f) = sharedCount l := by
      simp only [sharedCount, List.filter_map, List.length_map]
      congr 1
      exact List.filter_congr (fun e _ => by simp [msg])
    rwa [this]
  · rw [List.filter_map, List.length_map]
    refine le_trans (List.Sublist.length_le ?_) one
    exact List.monotone_filter_right l (fun e he => sending e he)

/-- A fresh entry joins a list that has room for one of its class (R154). -/
theorem outboxWithin_append {l : List Entry} {m : Msg} (h : outboxWithin l) (room : l.length < Config.outboxCapacity)
    (shared : m.cls = 0 ∨ sharedCount l < Config.outboxShared) : outboxWithin (l ++ [.fresh m]) := by
  obtain ⟨len, cnt, one⟩ := h
  refine ⟨by simpa using room, ?_, ?_⟩
  · rw [sharedCount_append, sharedCount_fresh]
    split <;> omega
  · simpa [Entry.fresh] using one

theorem dropYoungest_sublist (p : Entry → Bool) (l : List Entry) : (dropYoungest p l).Sublist l := by
  have := (List.eraseP_sublist (p := p) (l := l.reverse)).reverse
  rwa [List.reverse_reverse] at this

theorem length_dropYoungest {p : Entry → Bool} {l : List Entry} (h : l.any p = true) :
    (dropYoungest p l).length + 1 = l.length := by
  obtain ⟨x, hx, hp⟩ := List.any_eq_true.mp h
  have := List.length_eraseP_add_one (l := l.reverse) (p := p) (List.mem_reverse.mpr hx) hp
  simpa [dropYoungest] using this

/-- A message of class 0 takes the place of an entry that leaves for it (R155). -/
theorem outboxWithin_displace {p : Entry → Bool} {l : List Entry} {m : Msg} (h : outboxWithin l) (hp : l.any p = true)
    (hm : m.cls = 0) : outboxWithin (dropYoungest p l ++ [.fresh m]) := by
  refine outboxWithin_append (outboxWithin_of_sublist (dropYoungest_sublist p l) h) ?_ (.inl hm)
  have := length_dropYoungest hp
  have := h.1
  omega

theorem youngest_any {p : Entry → Bool} {l : List Entry} {e : Entry} (h : youngest p l = some e) : l.any p = true :=
  List.any_eq_true.mpr ⟨e, List.mem_reverse.mp (List.mem_of_find?_eq_some h), List.find?_some h⟩

/-- The attempt that begins makes one entry SENDING where none was (R151). -/
theorem startEntry_within (s : State) (slot : Nat) {l : List Entry} (h : outboxWithin l)
    (none_sending : ∀ e ∈ l, e.sending = false) : outboxWithin (s.startEntry slot l) := by
  obtain ⟨len, cnt, -⟩ := h
  have key : ∀ l : List Entry, (∀ e ∈ l, e.sending = false) →
      (s.startEntry slot l).length = l.length ∧ sharedCount (s.startEntry slot l) = sharedCount l
        ∧ ((s.startEntry slot l).filter (fun e => e.sending)).length ≤ 1 := by
    intro l
    induction l with
    | nil => exact fun _ => ⟨rfl, rfl, Nat.zero_le _⟩
    | cons e es ih =>
      intro hl
      obtain ⟨he, hes⟩ := List.forall_mem_cons.mp hl
      obtain ⟨ihLen, ihCnt, ihOne⟩ := ih hes
      have hf : es.filter (fun e => e.sending) = [] := List.filter_eq_nil_iff.mpr (fun x hx => by simp [hes x hx])
      unfold State.startEntry
      split
      · exact ⟨rfl, by by_cases hc : e.msg.cls = 0 <;> simp [sharedCount, hc], by simp [hf]⟩
      · refine ⟨by simp [ihLen], ?_, by simpa [List.filter_cons, he] using ihOne⟩
        have split_cons : ∀ m : List Entry, sharedCount (e :: m) = sharedCount [e] + sharedCount m := fun m =>
          sharedCount_append [e] m
        rw [split_cons, split_cons es, ihCnt]
  obtain ⟨h1, h2, h3⟩ := key l none_sending
  exact ⟨h1 ▸ len, h2 ▸ cnt, h3⟩

/-! ## The track list (R32) -/

/-- At most 64 records, no tag twice (R32). -/
def recordsWithin (l : List Record) : Prop :=
  l.length ≤ Config.trackCapacity ∧ (l.map (fun r => r.desc.tag)).Nodup

theorem recordsWithin_of_sublist {l m : List Record} (h : l.Sublist m) (k : recordsWithin m) : recordsWithin l :=
  ⟨h.length_le.trans k.1, (h.map _).nodup k.2⟩

theorem insertRecord_perm (r : Record) : ∀ l : List Record, (insertRecord r l).Perm (r :: l)
  | [] => .refl _
  | x :: xs => by
    unfold insertRecord
    split
    · exact .refl _
    · exact ((insertRecord_perm r xs).cons x).trans (.swap r x xs)

/-- A record under a tag that a list with room does not hold keeps the list within its limits (R32). -/
theorem recordsWithin_insert {r : Record} {l : List Record} (h : recordsWithin l) (room : l.length < Config.trackCapacity)
    (fresh : ∀ x ∈ l, x.desc.tag ≠ r.desc.tag) : recordsWithin (insertRecord r l) := by
  refine ⟨by rw [length_insertRecord]; exact room, ?_⟩
  rw [((insertRecord_perm r l).map _).nodup_iff, List.map_cons, List.nodup_cons]
  exact ⟨fun hm => by obtain ⟨x, hx, e⟩ := List.mem_map.mp hm; exact fresh x hx e, h.2⟩

/-- A record put in the place of one that the list holds, or held before records left it, keeps the list within (R33). -/
theorem recordsWithin_replace {r : Record} {l m : List Record} (sub : l.Sublist m) (h : recordsWithin m)
    (held : ∃ x ∈ m, x.desc.tag = r.desc.tag) : recordsWithin (replaceRecord r l) := by
  refine recordsWithin_insert (recordsWithin_of_sublist (List.filter_sublist.trans sub) h) ?_
    (fun x hx => ((mem_eraseTag _ _ _).mp hx).2)
  obtain ⟨x, hx, e⟩ := held
  refine lt_of_le_of_lt (sub.filter _).length_le (lt_of_lt_of_le ?_ h.1)
  exact List.length_filter_lt_length_iff_exists.mpr ⟨x, hx, by simp [e]⟩

/-- A change of records that keeps each tag keeps the list within its limits. -/
theorem recordsWithin_map {f : Record → Record} (tag : ∀ r, (f r).desc.tag = r.desc.tag) {l : List Record}
    (h : recordsWithin l) : recordsWithin (l.map f) := by
  refine ⟨by rw [List.length_map]; exact h.1, ?_⟩
  have : (l.map f).map (fun r => r.desc.tag) = l.map (fun r => r.desc.tag) := by simp [List.map_map, Function.comp_def, tag]
  rw [this]
  exact h.2

/-- The record found under a tag of a list within its limits is every record of that tag. -/
theorem record_of_mem {s : State} (h : (s.track.records.map (fun r => r.desc.tag)).Nodup) {x : Record}
    (hx : x ∈ s.track.records) : s.record x.desc.tag = some x := by
  unfold State.record
  induction hl : s.track.records generalizing s with
  | nil => rw [hl] at hx; cases hx
  | cons y ys ih =>
    rw [hl] at h hx
    rw [List.map_cons, List.nodup_cons] at h
    by_cases e : y.desc.tag = x.desc.tag
    · rcases List.mem_cons.mp hx with rfl | hx
      · simp
      · exact absurd (List.mem_map.mpr ⟨x, hx, e.symm⟩) h.1
    · rcases List.mem_cons.mp hx with rfl | hx
      · exact absurd rfl e
      · have := ih (s := s.setRecords ys) h.2 hx rfl
        simpa [e] using this

/-! ## The free tag (R27) -/

/-- The search for a free sequence ends at a free tag, or has met every tag on its way. -/
theorem freeSeq_spec (owner : Byte) (rs : List Record) : ∀ (n : Nat) (q : Byte),
    (∀ r ∈ rs, r.desc.tag ≠ { owner := owner, seq := freeSeq owner rs n q }) ∨
      ∀ i < n, ∃ r ∈ rs, r.desc.tag = { owner := owner, seq := q + BitVec.ofNat 8 i }
  | 0, _ => .inr (fun i hi => absurd hi (Nat.not_lt_zero i))
  | n + 1, q => by
    unfold freeSeq
    split
    · rename_i taken
      obtain ⟨r, hr, ht⟩ := List.any_eq_true.mp taken
      refine (freeSeq_spec owner rs n (q + 1)).imp id (fun met i hi => ?_)
      cases i with
      | zero => exact ⟨r, hr, by simpa using ht⟩
      | succ i =>
        obtain ⟨r', hr', ht'⟩ := met i (Nat.lt_of_succ_lt_succ hi)
        exact ⟨r', hr', by rw [ht', BitVec.add_assoc, Nat.add_comm i 1, BitVec.ofNat_add]; rfl⟩
    · rename_i free
      refine .inl (fun r hr e => free (List.any_eq_true.mpr ⟨r, hr, by simp [e]⟩))

/-- 65 tries meet 65 different tags, more than a list within its capacity holds: the next tag is free (R27). -/
theorem nextTag_fresh {s : State} (h : s.track.records.length ≤ Config.trackCapacity) :
    ∀ r ∈ s.track.records, r.desc.tag ≠ s.nextTag := by
  refine (freeSeq_spec s.ownerByte s.track.records 65 s.track.counter).resolve_right (fun met => ?_)
  choose f mem tag using fun i : Fin 65 => met i.val i.isLt
  have inj : Function.Injective f := by
    intro i j hij
    have e := (tag i).symm.trans ((congrArg (fun r : Record => r.desc.tag) hij).trans (tag j))
    have e' := congrArg BitVec.toNat (congrArg Tag.seq e)
    have hi := i.isLt
    have hj := j.isLt
    simp only [BitVec.toNat_add, BitVec.toNat_ofNat] at e'
    have := s.track.counter.isLt
    exact Fin.ext (by omega)
  have card : (List.ofFn f).length ≤ s.track.records.length :=
    (List.nodup_ofFn.mpr inj).subperm (fun x hx => by
      obtain ⟨i, rfl⟩ := List.mem_ofFn.mp hx
      exact mem i) |>.length_le
  rw [List.length_ofFn] at card
  have : Config.trackCapacity = 64 := rfl
  omega

theorem record_nextTag {s : State} (h : s.track.records.length ≤ Config.trackCapacity) : s.record s.nextTag = none :=
  List.find?_eq_none.mpr (fun r hr => by simpa using nextTag_fresh h r hr)

end Sys2Proof.Machine
end

section
/-! What every operation keeps (R2, R8, R9, R32, R80, R99, R112, R154, R169, R184): one lemma per operation of the model,
and from them the lemma that each step keeps all of it. -/
namespace Sys2Proof.Machine

/-- What a step may not break: each limit and each agreement that holds before it holds after it. -/
structure KeepsSafe (s t : State) : Prop where
  valves : s.feed.valvesSafe → t.feed.valvesSafe
  fifo : s.fifo.ordered → t.fifo.ordered
  track : s.track.within → t.track.within
  hold : s.numbered → s.holdFollows → t.holdFollows
  numbered : s.numbered → t.numbered
  link : s.link.within → t.link.within
  line : s.line.within → t.line.within
  passed : s.passedWithin → t.passedWithin

theorem KeepsSafe.refl (s : State) : KeepsSafe s s := ⟨id, id, id, fun _ => id, id, id, id, id⟩

theorem KeepsSafe.trans {s t u : State} (h : KeepsSafe s t) (k : KeepsSafe t u) : KeepsSafe s u where
  valves := k.valves ∘ h.valves
  fifo := k.fifo ∘ h.fifo
  track := k.track ∘ h.track
  hold := fun n a => k.hold (h.numbered n) (h.hold n a)
  numbered := k.numbered ∘ h.numbered
  link := k.link ∘ h.link
  line := k.line ∘ h.line
  passed := k.passed ∘ h.passed

theorem KeepsSafe.ite {s t u : State} {p : Prop} [Decidable p] (h : KeepsSafe s t) (k : KeepsSafe s u) :
    KeepsSafe s (if p then t else u) := by
  split
  · exact h
  · exact k

theorem KeepsSafe.foldl {α : Type} (f : State → α → State) (h : ∀ s a, KeepsSafe s (f s a)) :
    ∀ (as : List α) (s : State), KeepsSafe s (as.foldl f s)
  | [], s => .refl s
  | a :: as, s => (h s a).trans (KeepsSafe.foldl f h as (f s a))

/-! ## Writes of one block -/

/-- The blocks that no limit speaks of. -/
abbrev freeBlocks : List Block := [.station, .leaving, .now, .eye, .width, .throat, .outfeed, .port, .pending]

/-- Writing only blocks that no limit speaks of keeps every limit. -/
theorem KeepsSafe.of_free {s t : State} (h : SameBut freeBlocks s t) : KeepsSafe s t := by
  have feed : t.feed = s.feed := h .feed (by decide)
  have fifo : t.fifo = s.fifo := h .fifo (by decide)
  have track : t.track = s.track := h .track (by decide)
  have bid : t.bid = s.bid := h .bid (by decide)
  have peers : t.peers = s.peers := h .peers (by decide)
  have run : t.run = s.run := h .run (by decide)
  have store : t.store = s.store := h .store (by decide)
  have link : t.link = s.link := h .link (by decide)
  have line : t.line = s.line := h .line (by decide)
  constructor <;>
    simp only [State.passedWithin, State.holdFollows, State.numbered, State.number, feed, fifo, track, bid, peers, run,
      store, link, line, imp_self, implies_true]

theorem KeepsSafe.of_frame {l : List Block} {s t : State} (h : SameBut l s t) (hl : ∀ b ∈ l, b ∈ freeBlocks) :
    KeepsSafe s t := .of_free (h.widen hl)

theorem setBid_keepsSafe (s : State) (b : BidEngine) (jam : b.hold.jam = s.bid.hold.jam)
    (mismatch : b.hold.mismatch = s.bid.hold.mismatch) (jamming : b.jamming = s.bid.jamming)
    (passed : b.passedOver ≤ s.bid.passedOver ∨ b.passedOver ≤ s.run.line.limit) : KeepsSafe s (s.setBid b) :=
  { KeepsSafe.refl s with
    hold := fun _ h => ⟨(jam.trans h.1).trans (by rw [← jamming]; rfl), mismatch.trans h.2⟩
    passed := fun h => passed.elim (fun k => k.trans h) id }

theorem setFeed_keepsSafe (s : State) (f : FeedSequencer) (h : s.feed.valvesSafe → f.valvesSafe) :
    KeepsSafe s (s.setFeed f) := { KeepsSafe.refl s with valves := h }

/-- The feed sequencer written with the outputs and the fire sequence as they stood. -/
theorem setFeed_outputs_keepsSafe (s : State) (f : FeedSequencer) (grip : f.grip = s.feed.grip)
    (drop : f.drop = s.feed.drop) (fire : f.fire = s.feed.fire) : KeepsSafe s (s.setFeed f) :=
  setFeed_keepsSafe s f (fun h => by
    unfold FeedSequencer.valvesSafe at h ⊢
    rwa [grip, drop, fire])

theorem setLink_keepsSafe (s : State) (k : LinkController) (h : outboxWithin s.link.outbox → outboxWithin k.outbox) :
    KeepsSafe s (s.setLink k) := { KeepsSafe.refl s with link := h }

theorem setTrack_keepsSafe (s : State) (x : TrackList) (h : recordsWithin s.track.records → recordsWithin x.records) :
    KeepsSafe s (s.setTrack x) := { KeepsSafe.refl s with track := h }

theorem setLine_keepsSafe (s : State) (x : LineCounter) (h : s.line.within → x.within) : KeepsSafe s (s.setLine x) :=
  { KeepsSafe.refl s with line := h }

/-- The line counter written with the slip counter, the speed and the lead as they stood. -/
theorem setLine_figures_keepsSafe (s : State) (x : LineCounter) (slips : x.slips = s.line.slips)
    (speed : x.speed = s.line.speed) (lead : x.lead = s.line.lead) : KeepsSafe s (s.setLine x) :=
  setLine_keepsSafe s x (fun h => by
    unfold LineCounter.within at h ⊢
    rwa [slips, speed, lead])

theorem setPeers_keepsSafe (s : State) (x : PeerTable) (h : x.anyMismatch = s.peers.anyMismatch) :
    KeepsSafe s (s.setPeers x) := { KeepsSafe.refl s with hold := fun _ k => ⟨k.1, k.2.trans h.symm⟩ }

theorem setStore_keepsSafe (s : State) (x : Store) (h : s.numbered → 1 ≤ x.station.number ∧ x.station.number ≤ 15) :
    KeepsSafe s (s.setStore x) := { KeepsSafe.refl s with numbered := fun k => ⟨k.1, k.2.1, h k⟩ }

theorem raise_keepsSafe (e : Event) (s : State) : KeepsSafe s (raise e s) :=
  { KeepsSafe.refl s with fifo := EventFifo.enter_ordered _ _ _ }

/-! ## The shared operations -/

theorem advanceTo_keepsSafe (t : Nat) (s : State) : KeepsSafe s (advanceTo t s) :=
  .ite (.refl s) ((KeepsSafe.of_frame (setNow_frame s t) (by decide)).trans (setLine_figures_keepsSafe _ _ rfl rfl rfl))

theorem setPosition_keepsSafe (s : State) (i : Fin 4) (p : Position) : KeepsSafe s (s.setPosition i p) :=
  setFeed_outputs_keepsSafe _ _ rfl rfl rfl

theorem unloadPosition_keepsSafe (i : Fin 4) (tag : Option Tag) (s : State) : KeepsSafe s (unloadPosition i tag s) :=
  (setPosition_keepsSafe _ _ _).trans (raise_keepsSafe _ _)

theorem returnPosition_keepsSafe (i : Fin 4) (s : State) : KeepsSafe s (returnPosition i s) :=
  setFeed_outputs_keepsSafe _ _ rfl rfl rfl

theorem releasePosition_keepsSafe (o : OwnBid) (s : State) : KeepsSafe s (releasePosition o s) :=
  .ite (.ite (unloadPosition_keepsSafe _ _ _) (returnPosition_keepsSafe _ _)) (.refl s)

theorem endOwn_keepsSafe (s : State) : KeepsSafe s (endOwn s) := by
  unfold endOwn
  split
  · exact .refl s
  · exact (setBid_keepsSafe s { s.bid with own := none, rivals := [] } rfl rfl rfl (.inl le_rfl)).trans
      (releasePosition_keepsSafe _ _)

theorem handDropped_keepsSafe (m : Msg) (s : State) : KeepsSafe s (handDropped m s) := by
  unfold handDropped
  split
  · exact .ite ((endOwn_keepsSafe s).trans (raise_keepsSafe _ _)) (.refl s)
  · exact .refl s

theorem setOutbox_keepsSafe (s : State) (l : List Entry) (h : outboxWithin s.link.outbox → outboxWithin l) :
    KeepsSafe s (s.setOutbox l) := setLink_keepsSafe _ _ h

theorem enqueueFirst_keepsSafe (m : Msg) (s : State) (hm : m.cls = 0) : KeepsSafe s (enqueueFirst m s) := by
  unfold enqueueFirst
  dsimp only
  split
  · rename_i room
    exact setOutbox_keepsSafe _ _ (fun h => outboxWithin_append h (by omega) (.inl hm))
  · split
    · rename_i hail
      exact setOutbox_keepsSafe _ _ (fun h => outboxWithin_displace h hail hm)
    · split
      · rename_i sighting
        exact ((setOutbox_keepsSafe _ _ (fun h => outboxWithin_displace h (youngest_any sighting) hm)).trans
          (raise_keepsSafe _ _)).trans (handDropped_keepsSafe _ _)
      · exact raise_keepsSafe _ _

theorem roomLater_room {s : State} (h : s.roomLater = true) :
    s.link.outbox.length < Config.outboxCapacity ∧ sharedCount s.link.outbox < Config.outboxShared := by
  unfold State.roomLater at h
  simp only [Bool.and_eq_true, decide_eq_true_eq] at h
  omega

theorem enqueue_keepsSafe (m : Msg) (s : State) : KeepsSafe s (enqueue m s) := by
  have later : ∀ l : State, KeepsSafe s l → KeepsSafe s
      (if s.roomLater then s.setOutbox (s.link.outbox ++ [.fresh m]) else l) := by
    intro l hl
    split
    · rename_i room
      exact setOutbox_keepsSafe _ _ (fun h => outboxWithin_append h (roomLater_room room).1 (.inr (roomLater_room room).2))
    · exact hl
  have dropped : KeepsSafe s (handDropped m (raise (dropEvent m 3 (some 0)) s)) :=
    (raise_keepsSafe _ _).trans (handDropped_keepsSafe _ _)
  unfold enqueue
  split
  · split
    · rename_i room
      unfold sharedRoom at room
      simp only [Bool.and_eq_true, decide_eq_true_eq] at room
      exact setOutbox_keepsSafe _ _ (fun h => outboxWithin_append h room.2 (.inr room.1))
    · exact setLink_keepsSafe _ _ id
  · exact later _ dropped
  · exact later _ dropped
  · exact later _ dropped
  · split
    · rename_i room
      have room := (Bool.and_eq_true _ _ ▸ room).1
      exact setOutbox_keepsSafe _ _ (fun h => outboxWithin_append h (roomLater_room room).1 (.inr (roomLater_room room).2))
    · exact .refl s
  · refine enqueueFirst_keepsSafe m s ?_
    unfold Msg.cls
    cases m <;> first | rfl | exact absurd rfl ‹_›

theorem noteChange_keepsSafe (lanes : Lanes) (s : State) : KeepsSafe s (noteChange lanes s) := by
  have h := setBid_keepsSafe s { s.bid with changed := true } rfl rfl rfl (.inl le_rfl)
  unfold noteChange
  dsimp only
  split
  · exact h.trans (.of_frame (planAgain_frame _ _) (by decide))
  · exact h

theorem relieveTrack_keepsSafe (s : State) : KeepsSafe s (relieveTrack s) :=
  .ite (setBid_keepsSafe _ _ rfl rfl rfl (.inl le_rfl)) (.refl s)

theorem dropRival_keepsSafe (tag : Tag) (s : State) : KeepsSafe s (dropRival tag s) :=
  setBid_keepsSafe _ _ rfl rfl rfl (.inl le_rfl)

theorem forgetTag_keepsSafe (tag : Tag) (s : State) : KeepsSafe s (forgetTag tag s) :=
  ((KeepsSafe.of_frame (discardSighting_frame tag s) (by decide)).trans
    (.of_frame (widthForget_frame tag _) (by decide))).trans (dropRival_keepsSafe tag _)

theorem setRecords_keepsSafe (s : State) (l : List Record) (h : recordsWithin s.track.records → recordsWithin l) :
    KeepsSafe s (s.setRecords l) := setTrack_keepsSafe _ _ h

theorem dropRecord_keepsSafe (tag : Tag) (s : State) : KeepsSafe s (dropRecord tag s) := by
  unfold dropRecord
  split
  · exact .refl s
  · have h := setRecords_keepsSafe s (eraseTag tag s.track.records) (recordsWithin_of_sublist List.filter_sublist)
    exact ((((h.trans (relieveTrack_keepsSafe _)).trans (forgetTag_keepsSafe tag _)).trans
      (.of_frame (losePlaced_frame tag _) (by decide))).trans (noteChange_keepsSafe _ _))

theorem dropOwnRecord_keepsSafe (tag : Tag) (s : State) : KeepsSafe s (dropOwnRecord tag s) :=
  .ite (dropRecord_keepsSafe tag s) (.refl s)

/-! ## Recall, hold and withdrawal -/

theorem cancelBid_keepsSafe (s : State) : KeepsSafe s (cancelBid s) :=
  setLink_keepsSafe _ _ (outboxWithin_of_sublist List.filter_sublist)

theorem markCancelling_keepsSafe (o : OwnBid) (s : State) : KeepsSafe s (markCancelling o s) := by
  refine KeepsSafe.trans (setOutbox_keepsSafe s _ (outboxWithin_map (fun e => ?_) (fun e => ?_)))
    (setBid_keepsSafe _ _ rfl rfl rfl (.inl le_rfl))
  · split <;> rfl
  · split <;> exact id

theorem recallOwn_keepsSafe (code : Nat) (a : Option Int) (s : State) : KeepsSafe s (recallOwn code a s) := by
  have landing : ∀ o : OwnBid, KeepsSafe s
      (raise (recalledEvent o code a) (endOwn (dropOwnRecord o.desc.tag (enqueue (.recall o.desc.tag) s)))) := fun o =>
    (((enqueue_keepsSafe _ s).trans (dropOwnRecord_keepsSafe _ _)).trans (endOwn_keepsSafe _)).trans (raise_keepsSafe _ _)
  unfold recallOwn
  split
  · exact .refl s
  · split
    · exact .ite (.refl s) (.ite ((raise_keepsSafe _ s).trans (markCancelling_keepsSafe _ _))
        (((raise_keepsSafe _ s).trans (cancelBid_keepsSafe _)).trans (endOwn_keepsSafe _)))
    · exact landing _
    · exact landing _
    · exact .refl s

/-- A cause other than JAM and MISMATCH joins or leaves the hold set for no reason that a limit speaks of. -/
theorem putHold_keepsSafe (c : HoldCause) (x : Bool) (s : State) (jam : c ≠ .jam) (mismatch : c ≠ .mismatch) :
    KeepsSafe s (putHold c x s) := by
  cases c with
  | jam => exact absurd rfl jam
  | mismatch => exact absurd rfl mismatch
  | operator | lineDown | trackFull => exact setBid_keepsSafe _ _ rfl rfl rfl (.inl le_rfl)

theorem holdJoin_keepsSafe (c : HoldCause) (s : State) (jam : c ≠ .jam) (mismatch : c ≠ .mismatch) :
    KeepsSafe s (holdJoin c s) :=
  .ite (.refl s) ((putHold_keepsSafe c true s jam mismatch).trans (recallOwn_keepsSafe _ _ _))

theorem endRequest_keepsSafe (i : Fin 4) (s : State) : KeepsSafe s (endRequest i s) := by
  have h := setBid_keepsSafe s { s.bid with request := none, retry := none } rfl rfl rfl (.inl le_rfl)
  exact .ite (h.trans (recallOwn_keepsSafe _ _ _)) h

theorem withdrawSpacer_keepsSafe (i : Fin 4) (s : State) : KeepsSafe s (withdrawSpacer i s) := by
  have h := KeepsSafe.of_frame (dropRequest_frame i s) (by decide)
  exact .ite (h.trans (endRequest_keepsSafe i _)) h

theorem endPieceGone_keepsSafe (tag : Tag) (s : State) : KeepsSafe s (endPieceGone tag s) :=
  .foldl _ (fun t i => .ite (withdrawSpacer_keepsSafe i t) (.refl t)) _ _

theorem removeRecord_keepsSafe (tag : Tag) (s : State) : KeepsSafe s (removeRecord tag s) :=
  (dropRecord_keepsSafe tag s).trans (endPieceGone_keepsSafe tag _)

theorem unconfirm_keepsSafe (tag : Tag) (code : Nat) (s : State) : KeepsSafe s (unconfirm tag code s) :=
  .ite ((endOwn_keepsSafe s).trans (raise_keepsSafe _ _)) (.refl s)

theorem recheck_keepsSafe (tag : Tag) (s : State) : KeepsSafe s (recheck tag s) := by
  unfold recheck
  split
  · exact .ite (recallOwn_keepsSafe _ _ _) (.refl s)
  · exact .refl s

/-! ## Changes and filing -/

/-- A record that the list holds is changed (R33). -/
theorem changeRecord_keepsSafe {old r : Record} {s : State} (held : ∃ x ∈ s.track.records, x.desc.tag = r.desc.tag) :
    KeepsSafe s (changeRecord old r s) := by
  have h := setRecords_keepsSafe s (replaceRecord r s.track.records)
    (fun k => recordsWithin_replace (List.Sublist.refl _) k held)
  have k := KeepsSafe.ite (p := old.altered s.line.highWater r = true) (h.trans (noteChange_keepsSafe r.desc.lanes _)) h
  exact .ite (k.trans (recheck_keepsSafe _ _)) k

theorem insertNew_keepsSafe {r : Record} {s : State} (fresh : ∀ x ∈ s.track.records, x.desc.tag ≠ r.desc.tag)
    (room : s.track.records.length < Config.trackCapacity) : KeepsSafe s (insertNew r s) :=
  ((setRecords_keepsSafe s _ (fun k => recordsWithin_insert k room fresh)).trans (noteChange_keepsSafe _ _)).trans
    (recheck_keepsSafe _ _)

/-- The list between the removal of a replaced record's traces and the filing of the new one is a part of what it was. -/
theorem replaceWhole_keepsSafe {old r : Record} {s : State} (mem : old ∈ s.track.records)
    (tag : old.desc.tag = r.desc.tag) : KeepsSafe s (replaceWhole old r s) := by
  have w := ((noteChange_withdrawn old.desc.lanes s).trans (forgetTag_withdrawn old.desc.tag _)).trans
    (endPieceGone_withdrawn old.desc.tag _)
  have h := ((noteChange_keepsSafe old.desc.lanes s).trans (forgetTag_keepsSafe old.desc.tag _)).trans
    (endPieceGone_keepsSafe old.desc.tag _)
  unfold replaceWhole putRecord
  refine KeepsSafe.trans ?_ ((noteChange_keepsSafe _ _).trans (recheck_keepsSafe _ _))
  generalize endPieceGone old.desc.tag (forgetTag old.desc.tag (noteChange old.desc.lanes s)) = u at w h
  exact { h with track := fun k => recordsWithin_replace w.sub k ⟨old, mem, tag⟩ }

theorem overflow_keepsSafe (d : Desc) (source : Nat) (s : State) : KeepsSafe s (overflow d source s) :=
  .ite (.refl s) ((raise_keepsSafe _ s).trans (holdJoin_keepsSafe _ _ (by decide) (by decide)))

theorem fresh_of_record_none {s : State} {t : Tag} (h : s.record t = none) : ∀ x ∈ s.track.records, x.desc.tag ≠ t :=
  fun x hx => by simpa using List.find?_eq_none.mp h x hx

theorem fileRecord_keepsSafe (r : Record) (source : Nat) (s : State) : KeepsSafe s (fileRecord r source s) := by
  unfold fileRecord
  split
  · rename_i held
    exact replaceWhole_keepsSafe (record_tag held).2 (record_tag held).1
  · rename_i fresh
    split
    · rename_i room
      exact insertNew_keepsSafe (fresh_of_record_none fresh) room
    · exact overflow_keepsSafe _ _ _

/-! ## The end of a step -/

theorem queueBid_keepsSafe (t : Target) (w : Count) (s : State) : KeepsSafe s (queueBid t w s) := by
  have tag : KeepsSafe s (takeTag s) := setTrack_keepsSafe _ _ id
  have mark : KeepsSafe (takeTag s) (markBidding t (takeTag s)) := by
    cases t with
    | head i => exact setPosition_keepsSafe _ _ _
    | spacer r => exact .refl _
  unfold queueBid
  refine KeepsSafe.trans ?_ (enqueue_keepsSafe _ _)
  refine KeepsSafe.trans (tag.trans mark) ?_
  exact setBid_keepsSafe _ _ rfl rfl rfl (.inl le_rfl)

theorem reconsider_keepsSafe (s : State) : KeepsSafe s (reconsider s) := by
  unfold reconsider search
  split
  · refine .ite ?_ (.refl s)
    split
    · exact queueBid_keepsSafe _ _ s
    · exact setBid_keepsSafe _ _ rfl rfl rfl (.inl le_rfl)
  · exact setBid_keepsSafe _ _ rfl rfl rfl (.inl le_rfl)

theorem handRequest_keepsSafe (s : State) : KeepsSafe s (handRequest s) := by
  unfold handRequest
  split
  · exact (KeepsSafe.of_frame (setOutfeed_frame s _) (by decide)).trans (setBid_keepsSafe _ _ rfl rfl rfl (.inl le_rfl))
  · exact .refl s

theorem clearMarks_keepsSafe (s : State) : KeepsSafe s (clearMarks s) :=
  (setBid_keepsSafe s { s.bid with changed := false } rfl rfl rfl (.inl le_rfl)).trans
    (.of_frame (setOutfeed_frame _ _) (by decide))

theorem finish_keepsSafe (s : State) : KeepsSafe s (finish s) :=
  (((KeepsSafe.of_frame (planStreams_frame s) (by decide)).trans (handRequest_keepsSafe _)).trans
    (reconsider_keepsSafe _)).trans (clearMarks_keepsSafe _)

end Sys2Proof.Machine
end

section
/-! What every operation keeps: the eye unit, the feed station, the outfeed director, the line counter and the bid engine. -/
namespace Sys2Proof.Machine

/-! ## Blocks that no limit speaks of -/

theorem setStation_keepsSafe (s : State) (x : StationState) : KeepsSafe s (s.setStation x) := { KeepsSafe.refl s with }

theorem setLeaving_keepsSafe (s : State) (x : Bool) : KeepsSafe s (s.setLeaving x) := { KeepsSafe.refl s with }

theorem setEye_keepsSafe (s : State) (x : EyeUnit) : KeepsSafe s (s.setEye x) := { KeepsSafe.refl s with }

theorem setWidth_keepsSafe (s : State) (x : WidthSampler) : KeepsSafe s (s.setWidth x) := { KeepsSafe.refl s with }

theorem setThroat_keepsSafe (s : State) (x : ThroatMonitor) : KeepsSafe s (s.setThroat x) := { KeepsSafe.refl s with }

theorem setOutfeed_keepsSafe (s : State) (x : OutfeedDirector) : KeepsSafe s (s.setOutfeed x) := { KeepsSafe.refl s with }

theorem setPort_keepsSafe (s : State) (x : LocalPort) : KeepsSafe s (s.setPort x) := { KeepsSafe.refl s with }

theorem setPending_keepsSafe (s : State) (x : List Instr) : KeepsSafe s (s.setPending x) := { KeepsSafe.refl s with }

theorem setLaneEye_keepsSafe (s : State) (k : Fin 4) (e : Eye) : KeepsSafe s (s.setLaneEye k e) := setEye_keepsSafe _ _

theorem setSightings_keepsSafe (s : State) (l : List Sighting) : KeepsSafe s (s.setSightings l) := setEye_keepsSafe _ _

theorem setStream_keepsSafe (s : State) (i : Fin 4) (x : Stream) : KeepsSafe s (s.setStream i x) := setOutfeed_keepsSafe _ _

theorem planAgain_keepsSafe (i : Fin 4) (s : State) : KeepsSafe s (planAgain i s) := setOutfeed_keepsSafe _ _

theorem setBase_keepsSafe (k : Fin 4) (c : Option Count) (s : State) : KeepsSafe s (setBase k c s) :=
  .ite (setThroat_keepsSafe _ _) (.refl s)

/-! ## The outfeed director at the eye -/

theorem divertPulse_keepsSafe (s : State) : KeepsSafe s (divertPulse s) := setOutfeed_keepsSafe _ _

theorem stackPulse_keepsSafe (i : Fin 4) (s : State) : KeepsSafe s (stackPulse i s) := setOutfeed_keepsSafe _ _

theorem foldPiece_keepsSafe (d : Desc) (s : State) : KeepsSafe s (foldPiece d s) :=
  .ite (setOutfeed_keepsSafe _ _) (.ite (setOutfeed_keepsSafe _ _) (raise_keepsSafe _ _))

theorem beginStack_keepsSafe (i : Fin 4) (d : Desc) (s : State) : KeepsSafe s (beginStack i d s) := setStream_keepsSafe _ _ _

theorem withdrawRequested_keepsSafe (i : Fin 4) (s : State) : KeepsSafe s (withdrawRequested i s) := by
  unfold withdrawRequested
  split
  · exact withdrawSpacer_keepsSafe i s
  · exact .refl s

theorem changeStack_keepsSafe (i : Fin 4) (s : State) : KeepsSafe s (changeStack i s) :=
  (((stackPulse_keepsSafe i s).trans (raise_keepsSafe _ _)).trans (setStream_keepsSafe _ _ _)).trans
    (withdrawRequested_keepsSafe i _)

theorem countPiece_keepsSafe (i : Fin 4) (d : Desc) (s : State) : KeepsSafe s (countPiece i d s) := by
  unfold countPiece
  dsimp only
  split
  · exact beginStack_keepsSafe i d s
  · exact .ite (setStream_keepsSafe _ _ _)
      (.ite ((changeStack_keepsSafe i s).trans (beginStack_keepsSafe i d _)) (beginStack_keepsSafe i d s))

theorem enterUnderEye_keepsSafe (tag : Tag) (i : Option (Fin 4)) (counted : Bool) (s : State) :
    KeepsSafe s (enterUnderEye tag i counted s) := setOutfeed_keepsSafe _ _

theorem judgeGap_keepsSafe (i : Fin 4) (d : Desc) (first : Count) (s : State) : KeepsSafe s (judgeGap i d first s) := by
  unfold judgeGap
  split
  · exact .refl s
  · split
    · exact .refl s
    · exact .ite (raise_keepsSafe _ _) (.refl s)

theorem outfeedMatch_keepsSafe (r : Record) (first : Count) (s : State) : KeepsSafe s (outfeedMatch r first s) := by
  unfold outfeedMatch
  refine .ite (.refl s) ?_
  split
  · exact .refl s
  · rename_i i _
    have judged := judgeGap_keepsSafe i r.desc first s
    refine .ite ?_ ?_
    · exact (((judged.trans (divertPulse_keepsSafe _)).trans (raise_keepsSafe _ _)).trans
        (enterUnderEye_keepsSafe _ _ _ _)).trans (planAgain_keepsSafe _ _)
    · exact (((judged.trans (countPiece_keepsSafe _ _ _)).trans (foldPiece_keepsSafe _ _)).trans
        (enterUnderEye_keepsSafe _ _ _ _)).trans (planAgain_keepsSafe _ _)

theorem outfeedStray_keepsSafe (d : Desc) (first : Count) (s : State) : KeepsSafe s (outfeedStray d first s) := by
  have diverted : ∀ t, KeepsSafe s t → KeepsSafe s (enterUnderEye d.tag (s.outfeed.streamOf d.lanes) false
      (raise { kind := .diverted, tag := some d.tag, code := some (rejectCode .stray) } (divertPulse t))) := fun _ h =>
    ((h.trans (divertPulse_keepsSafe _)).trans (raise_keepsSafe _ _)).trans (enterUnderEye_keepsSafe _ _ _ _)
  refine .ite (.refl s) (diverted _ ?_)
  split
  · exact (judgeGap_keepsSafe _ d first s).trans (planAgain_keepsSafe _ _)
  · exact .refl s

theorem divertLate_keepsSafe (i : Fin 4) (e : UnderEye) (reject : Reject) (s : State) :
    KeepsSafe s (divertLate i e reject s) :=
  .ite (((divertPulse_keepsSafe s).trans (setStream_keepsSafe _ _ _)).trans (raise_keepsSafe _ _))
    ((divertPulse_keepsSafe s).trans (raise_keepsSafe _ _))

theorem outfeedClosure_keepsSafe (tag : Tag) (last : Count) (s : State) : KeepsSafe s (outfeedClosure tag last s) := by
  unfold outfeedClosure
  split
  · exact .refl s
  · dsimp only
    split
    · exact setOutfeed_keepsSafe _ _
    · refine KeepsSafe.trans ?_ ((setStream_keepsSafe _ _ _).trans (planAgain_keepsSafe _ _))
      exact (setOutfeed_keepsSafe s _).trans (.ite (divertLate_keepsSafe _ _ _ _) (.refl _))

/-! ## The width sampler -/

theorem deliver_keepsSafe (tag : Tag) (v : Verdict) (s : State) : KeepsSafe s (deliver tag v s) := setSightings_keepsSafe _ _

theorem widthMatch_keepsSafe (r : Record) (k : Fin 4) (first : Count) (s : State) :
    KeepsSafe s (widthMatch r k first s) := by
  unfold widthMatch
  refine .ite ?_ (.refl s)
  dsimp only
  split
  · exact setWidth_keepsSafe _ _
  · exact setWidth_keepsSafe _ _

/-- A verdict about a piece the sampler lets go of, with its event. -/
theorem unmeasured_keepsSafe (w : WidthSampler) (tag : Tag) (e : Event) (s : State) :
    KeepsSafe s (raise e (deliver tag .unmeasured (s.setWidth w))) :=
  ((setWidth_keepsSafe s w).trans (deliver_keepsSafe _ _ _)).trans (raise_keepsSafe _ _)

theorem widthTrail_keepsSafe (tag : Tag) (k : Fin 4) (s : State) : KeepsSafe s (widthTrail tag k s) := by
  unfold widthTrail
  extract_lets noted w t
  have taken : KeepsSafe s t := setWidth_keepsSafe _ _
  split
  · exact taken
  · refine .ite ?_ taken
    split
    · exact taken.trans (unmeasured_keepsSafe _ _ _ _)
    · exact taken.trans (unmeasured_keepsSafe _ _ _ _)
    · exact taken

theorem takeSample_keepsSafe (p : WidthPiece) (code : BitVec 12) (s : State) : KeepsSafe s (takeSample p code s) :=
  .ite (setWidth_keepsSafe _ _) ((setWidth_keepsSafe _ _).trans (deliver_keepsSafe _ _ _))

theorem endRest_keepsSafe (code : BitVec 12) (s : State) : KeepsSafe s (endRest code s) := by
  unfold endRest
  split
  · exact setWidth_keepsSafe _ _
  · exact .ite (unmeasured_keepsSafe _ _ _ _) (.ite (setWidth_keepsSafe _ _) (setWidth_keepsSafe _ _))

/-! ## Leading edges -/

theorem openSighting_keepsSafe (tag : Tag) (stray : Bool) (first : Count) (bound : Lanes) (s : State) :
    KeepsSafe s (openSighting tag stray first bound s) := setSightings_keepsSafe _ _

theorem matchEdge_keepsSafe (k : Fin 4) (n : Count) {r : Record} {s : State} (mem : r ∈ s.track.records) :
    KeepsSafe s (matchEdge k n r s) :=
  let r1 := { r with tl := plus n s.run.eye, passed := true, reporter := s.number }
  have changed : KeepsSafe s (changeRecord r r1 s) := changeRecord_keepsSafe ⟨r, mem, rfl⟩
  ((changed.trans (openSighting_keepsSafe _ _ _ _ _)).trans (widthMatch_keepsSafe _ _ _ _)).trans
    (outfeedMatch_keepsSafe _ _ _)

/-- What a fold that chooses between two members chooses is a member. -/
theorem foldl_choice_mem {α : Type} (p : α → α → Prop) [∀ a b, Decidable (p a b)] : ∀ (l : List α) (a : α),
    l.foldl (fun a b => if p a b then b else a) a ∈ a :: l
  | [], a => List.mem_singleton.mpr rfl
  | b :: l, a => by
    have h := foldl_choice_mem p l (if p a b then b else a)
    rcases List.mem_cons.mp h with h | h
    · rw [List.foldl_cons, h]
      split <;> simp
    · exact List.mem_cons_of_mem _ (List.mem_cons_of_mem _ h)

theorem bestCandidate_mem {s : State} {k : Fin 4} {n : Count} {r : Record} (h : s.bestCandidate k n = some r) :
    r ∈ s.track.records.filter (s.candidate k n) := by
  unfold State.bestCandidate at h
  split at h
  · cases h
  · rename_i x xs candidates
    rw [candidates, ← Option.some.inj h]
    exact foldl_choice_mem (fun a b => apart n (s.arrival b) < apart n (s.arrival a)) xs x

theorem judgeEdge_keepsSafe (k : Fin 4) (n : Count) (s : State) : KeepsSafe s (judgeEdge k n s).1 := by
  unfold judgeEdge
  split
  · exact setSightings_keepsSafe _ _
  · split
    · rename_i best
      exact matchEdge_keepsSafe k n (List.mem_filter.mp (bestCandidate_mem best)).1
    · exact .refl s

theorem judgeEdges_keepsSafe : ∀ (l : List (Fin 4 × Count)) (x : State × Lanes × Option Count),
    KeepsSafe x.1 (judgeEdges l x).1
  | [], x => .refl x.1
  | (k, n) :: rest, (s, l, c) => by
    have judged := judgeEdge_keepsSafe k n s
    unfold judgeEdges
    dsimp only
    split
    · exact judged.trans (judgeEdges_keepsSafe rest ((judgeEdge k n s).1, l ||| laneBit k, some n))
    · exact judged.trans (judgeEdges_keepsSafe rest ((judgeEdge k n s).1, l, c))

theorem createStray_keepsSafe (n : Count) (unmatched : Lanes) (s : State) : KeepsSafe s (createStray n unmatched s) := by
  have tag : KeepsSafe s (takeTag s) := setTrack_keepsSafe _ _ id
  unfold createStray
  extract_lets d r t
  split
  · rename_i room
    have inserted : KeepsSafe t (insertNew r t) := insertNew_keepsSafe (nextTag_fresh room.le) room
    exact (tag.trans inserted).trans ((openSighting_keepsSafe _ _ _ _ _).trans (outfeedStray_keepsSafe _ _ _))
  · exact tag.trans (overflow_keepsSafe _ _ _)

theorem takeLeading_keepsSafe (k : Fin 4) (n : Count) (s : State) : KeepsSafe s (takeLeading k n s) :=
  (setLaneEye_keepsSafe _ _ _).trans (setBase_keepsSafe _ _ _)

theorem leadingEdges_keepsSafe (s : State) : KeepsSafe s (leadingEdges s) := by
  have taken := KeepsSafe.foldl (fun t (kn : Fin 4 × Count) => takeLeading kn.1 kn.2 t)
    (fun t kn => takeLeading_keepsSafe kn.1 kn.2 t) s.leadingDue s
  unfold leadingEdges
  dsimp only
  have judged := judgeEdges_keepsSafe s.leadingDue
    (s.leadingDue.foldl (fun t (kn : Fin 4 × Count) => takeLeading kn.1 kn.2 t) s, 0, none)
  split
  · exact (taken.trans judged).trans (createStray_keepsSafe _ _ _)
  · exact taken.trans judged

/-! ## Trailing edges, misses, retirement -/

theorem report_keepsSafe (m : Msg) (s : State) : KeepsSafe s (report m s) := .ite (enqueue_keepsSafe m s) (.refl s)

theorem closeSighting_keepsSafe (g : Sighting) (last : Count) (s : State) : KeepsSafe s (closeSighting g last s) := by
  unfold closeSighting
  extract_lets t measured
  have removed : KeepsSafe s t := setSightings_keepsSafe _ _
  split
  · exact removed
  · rename_i r held
    have mem := (record_tag held).2
    have closed : ∀ (r1 : Record) (m : Msg), r.desc.tag = r1.desc.tag →
        KeepsSafe s (outfeedClosure g.tag last (report m (changeRecord r r1 t))) := fun r1 m tag =>
      ((removed.trans (changeRecord_keepsSafe ⟨r, mem, tag⟩)).trans (report_keepsSafe _ _)).trans
        (outfeedClosure_keepsSafe _ _ _)
    exact .ite (closed _ _ rfl) (closed _ _ rfl)

theorem trailingEdge_keepsSafe (k : Fin 4) (n : Count) (s : State) : KeepsSafe s (trailingEdge k n s) := by
  have cleared : KeepsSafe s (setBase k none (s.setLaneEye k { state := .clear, edge := none })) :=
    (setLaneEye_keepsSafe _ _ _).trans (setBase_keepsSafe _ _ _)
  unfold trailingEdge
  extract_lets t
  split
  · exact cleared
  · rename_i g _
    extract_lets u
    have sampled : KeepsSafe s u := cleared.trans (.ite (p := g.stray = true) (.refl t) (widthTrail_keepsSafe _ _ _))
    split
    · exact sampled
    · exact sampled.trans (.ite (closeSighting_keepsSafe _ _ _) (setSightings_keepsSafe _ _))

theorem voidOwn_keepsSafe (tag : Tag) (s : State) : KeepsSafe s (voidOwn tag s) := by
  have h := (enqueue_keepsSafe (.void tag) s).trans
    (setBid_keepsSafe _ { (enqueue (.void tag) s).bid with deferral := (enqueue (.void tag) s).feedPeers } rfl rfl rfl
      (.inl le_rfl))
  exact .ite ((h.trans (endOwn_keepsSafe _)).trans (raise_keepsSafe _ _)) h

theorem countMiss_keepsSafe (r : Record) (reporter : Nat) (s : State) : KeepsSafe s (countMiss r reporter s) := by
  refine .ite (((raise_keepsSafe _ s).trans (removeRecord_keepsSafe _ _)).trans (unconfirm_keepsSafe _ _ _)) ?_
  refine setRecords_keepsSafe _ _ (recordsWithin_map (fun x => ?_))
  split <;> rfl

theorem declareMiss_keepsSafe (r : Record) (s : State) : KeepsSafe s (declareMiss r s) := by
  unfold declareMiss
  extract_lets t
  have passed : KeepsSafe s t := setRecords_keepsSafe _ _ (recordsWithin_map (fun x => by split <;> rfl))
  exact passed.trans (.ite (.ite (voidOwn_keepsSafe _ _) (enqueue_keepsSafe _ _)) (countMiss_keepsSafe _ _ _))

/-! ## The fire sequence -/

/-- A fire begins only where no sequence runs, so DROP is off (log 18). -/
theorem fireBid_keepsSafe (o : OwnBid) {s : State} (idle : s.feed.fire = none) : KeepsSafe s (fireBid o s) := by
  unfold fireBid
  extract_lets d q f p t
  have begun : KeepsSafe s t := setFeed_keepsSafe _ _ (fun h => by
    unfold FeedSequencer.valvesSafe at h ⊢
    rw [idle] at h
    exact ⟨rfl, h.2⟩)
  refine (begun.trans ?_).trans (raise_keepsSafe _ _)
  exact setBid_keepsSafe _ _ rfl rfl rfl (.inl (Nat.zero_le _))

/-! ## The rows of these blocks -/

/-- A row keeps every limit: where it gives a state, that state is safe with the one before. -/
def Keeps (s : State) (x : Host.Outcome State Fault Refusal) : Prop := ∀ t, x = .next t → KeepsSafe s t

theorem Keeps.next {s t : State} (h : KeepsSafe s t) : Keeps s (.next t) := fun _ e => by
  cases e
  exact h

theorem Keeps.finish {s t : State} (h : KeepsSafe s t) : Keeps s (.next (finish t)) :=
  .next (h.trans (finish_keepsSafe t))

theorem Keeps.same (s : State) : Keeps s (.next s) := .next (.refl s)

theorem Keeps.ite {s : State} {x y : Host.Outcome State Fault Refusal} {p : Prop} [Decidable p] (h : Keeps s x)
    (k : Keeps s y) : Keeps s (if p then x else y) := by
  split
  · exact h
  · exact k

theorem leadingEdge_keeps (s : State) : Keeps s (execLeadingEdge s) := .ite (.finish (leadingEdges_keepsSafe s)) (.same s)

theorem trailingEdge_keeps (s : State) : Keeps s (execTrailingEdge s) :=
  .ite (.finish (.foldl _ (fun t (kn : Fin 4 × Count) => trailingEdge_keepsSafe kn.1 kn.2 t) _ s)) (.same s)

theorem miss_keeps (tag : Tag) (s : State) : Keeps s (execMiss tag s) := by
  unfold execMiss
  split
  · exact .ite (.finish (declareMiss_keepsSafe _ s)) (.same s)
  · exact .same s

theorem retirement_keeps (tag : Tag) (s : State) : Keeps s (execRetirement tag s) := by
  unfold execRetirement
  split
  · exact .ite (.finish ((removeRecord_keepsSafe tag s).trans (unconfirm_keepsSafe tag 1 _))) (.same s)
  · exact .same s

theorem fire_keeps (s : State) : Keeps s (execFire s) := by
  unfold execFire
  split
  · split
    · rename_i fires
      unfold State.fires at fires
      simp only [Bool.and_eq_true, Option.isNone_iff_eq_none] at fires
      exact .next (fireBid_keepsSafe _ fires.1.2)
    · exact .same s
  · exact .same s

/-- A stage of the fire sequence that leaves the outputs as its own stage gives. -/
theorem stage_keepsSafe (due : Nat) (s : State) (f : FeedSequencer) (h : f.valvesSafe) :
    KeepsSafe s ((advanceTo due s).setFeed f) :=
  (advanceTo_keepsSafe due s).trans (setFeed_keepsSafe _ _ (fun _ => h))

theorem fireDropOn_keeps (s : State) : Keeps s (execFireDropOn s) := by
  unfold execFireDropOn
  split
  · exact .ite (.next (stage_keepsSafe _ s _ ⟨rfl, rfl⟩)) (.same s)
  · exact .same s

/-- DROP goes off while GRIP is off, as it is in every stage of a running sequence. -/
theorem fireDropOff_keeps (s : State) : Keeps s (execFireDropOff s) := by
  unfold execFireDropOff
  split
  · rename_i q running
    split
    · rename_i dropping
      refine .next ((advanceTo_keepsSafe _ s).trans (setFeed_keepsSafe _ _ (fun h => ?_)))
      rw [advanceTo_frame q.due s .feed (by decide)] at h
      unfold FeedSequencer.valvesSafe at h ⊢
      simp only [running, dropping] at h
      exact ⟨h.1, rfl⟩
    · exact .same s
  · exact .same s

theorem fireGripOn_keeps (s : State) : Keeps s (execFireGripOn s) := by
  unfold execFireGripOn
  split
  · exact .ite (.finish (stage_keepsSafe _ s _ ⟨rfl, rfl⟩)) (.same s)
  · exact .same s

theorem widthStart_keeps (code : BitVec 12) (s : State) : Keeps s (execWidthStart code s) := by
  unfold execWidthStart
  split
  · exact .ite (.next (setWidth_keepsSafe _ _)) (.same s)
  · exact .same s

theorem widthSample_keeps (code : BitVec 12) (s : State) : Keeps s (execWidthSample code s) := by
  unfold execWidthSample
  split
  · exact .ite (.next ((advanceTo_keepsSafe _ s).trans (takeSample_keepsSafe _ _ _))) (.same s)
  · exact .same s

theorem restTimerExpiry_keeps (code : BitVec 12) (s : State) : Keeps s (execRestTimerExpiry code s) :=
  .ite (.next ((advanceTo_keepsSafe _ s).trans (endRest_keepsSafe _ _))) (.same s)

theorem spacerPassage_keeps (i : Fin 4) (s : State) : Keeps s (execSpacerPassage i s) := by
  unfold execSpacerPassage
  split
  · exact .finish ((((stackPulse_keepsSafe i s).trans (raise_keepsSafe _ _)).trans (setStream_keepsSafe _ _ _)).trans
      (planAgain_keepsSafe i _))
  · exact .same s

theorem strobeEnd_keeps (s : State) : Keeps s (execStrobeEnd s) := by
  unfold execStrobeEnd
  split
  · rename_i due _
    refine .next ((advanceTo_keepsSafe due s).trans ?_)
    unfold nextStrobe
    split
    · exact setOutfeed_keepsSafe _ _
    · exact setOutfeed_keepsSafe _ _
  · exact .same s

theorem divertPulseEnd_keeps (s : State) : Keeps s (execDivertPulseEnd s) := by
  unfold execDivertPulseEnd
  split
  · exact .next ((advanceTo_keepsSafe _ s).trans (setOutfeed_keepsSafe _ _))
  · exact .same s

theorem stackChangePulseEnd_keeps (i : Fin 4) (s : State) : Keeps s (execStackChangePulseEnd i s) := by
  unfold execStackChangePulseEnd
  split
  · exact .next ((advanceTo_keepsSafe _ s).trans (setOutfeed_keepsSafe _ _))
  · exact .same s

/-! ## The line counter -/

theorem recallLanding_keepsSafe (code : Nat) (s : State) : KeepsSafe s (recallLanding code s) := by
  unfold recallLanding
  split
  · exact .ite (recallOwn_keepsSafe _ _ _) (.refl s)
  · exact .refl s

theorem enterExcursion_keepsSafe (s : State) : KeepsSafe s (enterExcursion s) :=
  ((setLine_figures_keepsSafe s { s.line with excursion := true } rfl rfl rfl).trans (raise_keepsSafe _ _)).trans
    (recallLanding_keepsSafe 9 _)

theorem growStrays_keepsSafe (s : State) : KeepsSafe s (growStrays s) :=
  .foldl _ (fun t (r : Record) => (noteChange_keepsSafe r.desc.lanes t).trans (recheck_keepsSafe r.desc.tag _)) _ s

theorem countJoin_keepsSafe (s : State) : KeepsSafe s (countJoin s) := .ite (setPeers_keepsSafe _ _ rfl) (.refl s)

theorem handAdvance_keepsSafe (eyes : Lanes) (s : State) : KeepsSafe s (handAdvance eyes s) := by
  refine .ite (.refl s) (KeepsSafe.trans ?_ (growStrays_keepsSafe _))
  refine KeepsSafe.trans ?_ (countJoin_keepsSafe _)
  exact (setLine_figures_keepsSafe s { s.line with atAdvance := true } rfl rfl rfl).trans (setEye_keepsSafe _ _)

theorem stepForward_keepsSafe (eyes : Lanes) (s : State) : KeepsSafe s (stepForward eyes s) :=
  have advanced := setLine_figures_keepsSafe s
    { s.line with count := s.line.count + 1, highWater := s.line.count + 1, atAdvance := false } rfl rfl rfl
  .ite (advanced.trans (handAdvance_keepsSafe eyes _)) (setLine_figures_keepsSafe s _ rfl rfl rfl)

theorem stepBackward_keepsSafe (s : State) : KeepsSafe s (stepBackward s) := by
  have moved := setLine_figures_keepsSafe s { s.line with count := s.line.count - 1, atAdvance := false } rfl rfl rfl
  exact .ite (moved.trans (enterExcursion_keepsSafe _)) moved

/-- The slip counter stops at 65535 (R2). -/
theorem stepIllegal_keepsSafe (s : State) : KeepsSafe s (stepIllegal s) :=
  setLine_keepsSafe _ _ (fun h => ⟨Nat.min_le_left _ _, h.2⟩)

theorem encoderStep_keepsSafe (p : Bool × Bool) (eyes : Lanes) (s : State) : KeepsSafe s (encoderStep p eyes s) := by
  unfold encoderStep
  split
  · exact setLine_figures_keepsSafe s _ rfl rfl rfl
  · refine .ite (.refl s) ?_
    extract_lets paired t
    have taken : KeepsSafe s t :=
      (setLine_figures_keepsSafe s { s.line with pair := some p } rfl rfl rfl).trans (setFeed_outputs_keepsSafe _ _ rfl rfl rfl)
    exact taken.trans
      (.ite (stepForward_keepsSafe eyes t) (.ite (stepBackward_keepsSafe t) (stepIllegal_keepsSafe t)))

/-- An effect that a part under the RESET pin does not have. -/
theorem outsideReset_keepsSafe {f : State → State} {s : State} (h : KeepsSafe s (f s)) : KeepsSafe s (outsideReset f s) :=
  .ite (.refl s) h

theorem encoderStep_keeps (a b : Bool) (eyes : Lanes) (s : State) : Keeps s (execEncoderStep a b eyes s) :=
  .next (outsideReset_keepsSafe ((encoderStep_keepsSafe _ eyes s).trans (finish_keepsSafe _)))

theorem excursion_keeps (s : State) : Keeps s (execExcursion s) := by
  refine .next (outsideReset_keepsSafe ?_)
  split
  · exact .ite ((encoderStep_keepsSafe _ 0 s).trans (finish_keepsSafe _)) (.refl s)
  · exact .refl s

/-- The speed is clamped to 4000 either way (R8). -/
theorem speedOf_bounds (change : Int) : -4000 ≤ speedOf change ∧ speedOf change ≤ 4000 := by
  unfold speedOf clampInt
  omega

/-- The lead is limited to 2000 counts (R9). -/
theorem leadOf_le (v : Int) (delay : Nat) : leadOf v delay ≤ 2000 := Nat.min_le_left _ _

theorem speedUpdate_keeps (s : State) : Keeps s (execSpeedUpdate s) := by
  refine .next (outsideReset_keepsSafe ((advanceTo_keepsSafe s.line.speedDue s).trans ?_))
  refine setLine_keepsSafe _ _ (fun h => ⟨h.1, ?_, ?_, leadOf_le _ _⟩)
  · exact (speedOf_bounds _).1
  · exact (speedOf_bounds _).2

/-! ## The bid engine -/

/-- A beaten bid counts one more piece passed over, up to the limit (R99). -/
theorem beaten_keepsSafe (o : OwnBid) (owner code : Nat) (s : State) : KeepsSafe s (beaten o owner code s) := by
  unfold beaten
  extract_lets n t
  have counted : KeepsSafe s (s.setBid { s.bid with passedOver := n }) := by
    refine setBid_keepsSafe _ _ rfl rfl rfl ?_
    by_cases full : s.run.line.limit ≤ s.bid.passedOver
    · exact .inl (if_pos full).le
    · refine .inr ((if_neg full).le.trans ?_)
      omega
  exact (((counted.trans (enqueue_keepsSafe _ _)).trans (dropOwnRecord_keepsSafe _ _)).trans (endOwn_keepsSafe _)).trans
    (raise_keepsSafe _ _)

theorem judgePeerBid_keepsSafe (y : Rival) (s : State) : KeepsSafe s (judgePeerBid y s) := by
  unfold judgePeerBid
  split
  · refine .ite ?_ (.refl s)
    split
    · exact beaten_keepsSafe _ _ _ s
    · exact .refl s
  · exact .refl s

theorem enterRival_keepsSafe (y : Rival) (s : State) : KeepsSafe s (enterRival y s) := by
  unfold enterRival
  split
  · exact .ite (setBid_keepsSafe _ _ rfl rfl rfl (.inl le_rfl)) (.refl s)
  · exact .refl s

theorem fileOwn_keepsSafe (r : Record) (s : State) : KeepsSafe s (fileOwn r s) := by
  unfold fileOwn
  split
  · rename_i held
    exact replaceWhole_keepsSafe (record_tag held).2 (record_tag held).1
  · rename_i fresh
    split
    · rename_i room
      exact insertNew_keepsSafe (fresh_of_record_none fresh) room
    · exact .ite (.refl s) ((raise_keepsSafe _ s).trans (putHold_keepsSafe _ _ _ (by decide) (by decide)))

theorem settleEnds_keepsSafe (o : OwnBid) (l : List Rival) (s : State) : KeepsSafe s (settleEnds o l s) := by
  unfold settleEnds
  split
  · exact beaten_keepsSafe _ _ _ s
  · split
    · exact recallOwn_keepsSafe _ _ s
    · exact .ite (recallOwn_keepsSafe _ _ s)
        (.ite (recallOwn_keepsSafe _ _ s) (setBid_keepsSafe _ _ rfl rfl rfl (.inl le_rfl)))

theorem acceptLive_keepsSafe (o : OwnBid) (s : State) : KeepsSafe s (acceptLive o s) := by
  unfold acceptLive
  extract_lets o1 b t
  have settling : KeepsSafe s t := setBid_keepsSafe _ _ rfl rfl rfl (.inl le_rfl)
  exact (settling.trans (fileOwn_keepsSafe _ t)).trans (settleEnds_keepsSafe _ _ _)

theorem acceptOrphan_keepsSafe (d : Desc) (tl : Count) (s : State) : KeepsSafe s (acceptOrphan d tl s) := by
  unfold acceptOrphan
  extract_lets t u
  have filed : KeepsSafe s t := fileRecord_keepsSafe _ _ s
  have ended : KeepsSafe t u := by
    unfold u
    split
    · exact .ite (endOwn_keepsSafe t) (.refl t)
    · exact .refl t
  exact ((filed.trans ended).trans (enqueue_keepsSafe _ _)).trans (dropOwnRecord_keepsSafe _ _)

theorem acceptOwnBid_keepsSafe (d : Desc) (tl : Count) (s : State) : KeepsSafe s (acceptOwnBid d tl s) := by
  unfold acceptOwnBid
  split
  · exact .ite (acceptLive_keepsSafe _ s) (acceptOrphan_keepsSafe d tl s)
  · exact acceptOrphan_keepsSafe d tl s

theorem grant_keepsSafe (o : OwnBid) (s : State) : KeepsSafe s (grant o s) := by
  have placed : KeepsSafe s (placeSpacer o s) :=
    ((setStream_keepsSafe s o.serves { s.outfeed.streams.get o.serves with spacer := .placed o.desc.tag }).trans
      (setBid_keepsSafe _ { s.bid with request := none } rfl rfl rfl (.inl le_rfl))).trans (endOwn_keepsSafe _)
  exact .ite placed (.ite (recallOwn_keepsSafe _ _ s) (setBid_keepsSafe _ _ rfl rfl rfl (.inl le_rfl)))

theorem settleTimerExpiry_keeps (s : State) : Keeps s (execSettleTimerExpiry s) := by
  unfold execSettleTimerExpiry
  split
  · exact .ite (.finish ((advanceTo_keepsSafe _ s).trans (grant_keepsSafe _ _))) (.same s)
  · exact .same s

theorem retryTimerExpiry_keeps (s : State) : Keeps s (execRetryTimerExpiry s) := by
  unfold execRetryTimerExpiry
  split
  · exact .finish ((advanceTo_keepsSafe _ s).trans (setBid_keepsSafe _ _ rfl rfl rfl (.inl le_rfl)))
  · exact .same s

theorem readyRise_keeps (s : State) : Keeps s (execReadyRise s) := .finish (setFeed_outputs_keepsSafe s _ rfl rfl rfl)

theorem readyFall_keeps (s : State) : Keeps s (execReadyFall s) := by
  have low := setFeed_outputs_keepsSafe s { s.feed with ready := false } rfl rfl rfl
  exact .ite (.finish (low.trans (recallLanding_keepsSafe 8 _))) (.next low)

end Sys2Proof.Machine
end

section
/-! What every operation keeps: the peer table, the throat monitor, the entries to SETUP, JOINING and FAULT, acceptance, the
link controller and the local port; and the lemma for a step. -/
namespace Sys2Proof.Machine

/-! ## The causes JAM and MISMATCH -/

/-- The bid engine written with the JAM cause for the jamming set it holds, and MISMATCH as it was (R80). -/
theorem setBid_jam_keepsSafe (s : State) (b : BidEngine)
    (jam : s.numbered → s.holdFollows → b.hold.jam = (b.jamming != 0))
    (mismatch : b.hold.mismatch = s.bid.hold.mismatch) (passed : b.passedOver ≤ s.bid.passedOver) :
    KeepsSafe s (s.setBid b) :=
  { KeepsSafe.refl s with
    hold := fun n h => ⟨jam n h, mismatch.trans h.2⟩
    passed := fun h => passed.trans h }

/-- The MISMATCH cause made that of a new peer table (R169). -/
theorem setMismatch_keepsSafe (s : State) (p : PeerTable) :
    KeepsSafe s ((s.setPeers p).setBid { s.bid with hold := { s.bid.hold with mismatch := p.anyMismatch } }) :=
  { KeepsSafe.refl s with hold := fun _ h => ⟨h.1, rfl⟩ }

/-- A new peer table, with the MISMATCH cause after it (R169). -/
theorem followMismatch_keepsSafe (s : State) (p : PeerTable) : KeepsSafe s (followMismatch (s.setPeers p)) := by
  have joined : p.anyMismatch = true → KeepsSafe s (putHold .mismatch true (s.setPeers p)) := fun h => by
    have := setMismatch_keepsSafe s p
    rwa [h] at this
  have left : p.anyMismatch = false → KeepsSafe s (putHold .mismatch false (s.setPeers p)) := fun h => by
    have := setMismatch_keepsSafe s p
    rwa [h] at this
  have stands : s.bid.hold.mismatch = p.anyMismatch → KeepsSafe s (s.setPeers p) := fun h =>
    { KeepsSafe.refl s with hold := fun _ k => ⟨k.1, h⟩ }
  unfold followMismatch
  split
  · rename_i any
    unfold holdJoin
    split
    · rename_i held
      exact stands (held.trans any.symm)
    · exact (joined any).trans (recallOwn_keepsSafe _ _ _)
  · rename_i none
    have none := Bool.eq_false_iff.mpr none
    split
    · exact left none
    · rename_i held
      exact stands ((Bool.eq_false_iff.mpr held).trans none.symm)

/-! ## The peer table -/

theorem raiseMismatch_setPeers (n : Nat) (h : Option Hailed) (s : State) (p : PeerTable) :
    raiseMismatch n h (s.setPeers p) = (raiseMismatch n h s).setPeers p := by
  unfold raiseMismatch
  dsimp only [State.setPeers_run]
  split <;> rfl

theorem raiseMismatch_keepsSafe (n : Nat) (h : Option Hailed) (s : State) : KeepsSafe s (raiseMismatch n h s) := by
  unfold raiseMismatch
  split <;> exact raise_keepsSafe _ _

theorem peerEvents_setPeers (old new : Peer) (s : State) (p : PeerTable) :
    peerEvents old new (s.setPeers p) = (peerEvents old new s).setPeers p := by
  have joined : (if old.state = .silent then raise (joinedEvent new.number new.hailed 2) (s.setPeers p)
      else if old.state = .mismatch ∧ new.state = .present then raise (joinedEvent new.number new.hailed 3) (s.setPeers p)
      else s.setPeers p) =
      (if old.state = .silent then raise (joinedEvent new.number new.hailed 2) s
        else if old.state = .mismatch ∧ new.state = .present then raise (joinedEvent new.number new.hailed 3) s
        else s).setPeers p := by
    split
    · rfl
    · split <;> rfl
  unfold peerEvents
  dsimp only
  rw [joined]
  split
  · exact raiseMismatch_setPeers _ _ _ _
  · rfl

theorem peerEvents_keepsSafe (old new : Peer) (s : State) : KeepsSafe s (peerEvents old new s) := by
  have joined : KeepsSafe s (if old.state = .silent then raise (joinedEvent new.number new.hailed 2) s
      else if old.state = .mismatch ∧ new.state = .present then raise (joinedEvent new.number new.hailed 3) s
      else s) := .ite (raise_keepsSafe _ _) (.ite (raise_keepsSafe _ _) (.refl s))
  exact .ite (joined.trans (raiseMismatch_keepsSafe _ _ _)) joined

theorem peerHeard_keepsSafe (n : Nat) (hail : Option Hailed) (s : State) : KeepsSafe s (peerHeard n hail s) := by
  unfold peerHeard
  split
  · extract_lets p0 p1 p2 table t
    have raised := raise_keepsSafe (joinedEvent n p2.hailed 1) s
    split
    · have t_eq : raiseMismatch n p2.hailed t = (raiseMismatch n p2.hailed (raise (joinedEvent n p2.hailed 1) s)).setPeers
          { s.peers with entries := s.peers.entries ++ [p2] } := raiseMismatch_setPeers _ _ (raise _ s) _
      rw [t_eq]
      exact (raised.trans (raiseMismatch_keepsSafe _ _ _)).trans (followMismatch_keepsSafe _ _)
    · exact raised.trans (followMismatch_keepsSafe _ _)
  · rename_i p _
    extract_lets p1 p2
    unfold putPeer
    rw [peerEvents_setPeers]
    exact (peerEvents_keepsSafe p p2 s).trans (followMismatch_keepsSafe _ _)

theorem leaveDeferral_keepsSafe (n : Nat) (s : State) : KeepsSafe s (leaveDeferral n s) :=
  setBid_keepsSafe _ _ rfl rfl rfl (.inl le_rfl)

theorem peerTtlExpiry_keeps (station : BitVec 4) (s : State) : Keeps s (execPeerTtlExpiry station s) := by
  unfold execPeerTtlExpiry
  split
  · rename_i p _
    refine .ite (.same s) (.finish ?_)
    have h : ∀ e : Event, KeepsSafe s (leaveDeferral p.number (raise e (advanceTo p.ttlEnds s))) := fun e =>
      ((advanceTo_keepsSafe _ s).trans (raise_keepsSafe e _)).trans (leaveDeferral_keepsSafe _ _)
    exact (h _).trans (followMismatch_keepsSafe _ _)
  · exact .same s

theorem hailTimerExpiry_keeps (s : State) : Keeps s (execHailTimerExpiry s) := by
  unfold execHailTimerExpiry
  split
  · exact .ite (.next (((advanceTo_keepsSafe _ s).trans (setPeers_keepsSafe _ _ (by
      rw [advanceTo_frame _ s .peers (by decide)]; rfl))).trans (enqueue_keepsSafe _ _))) (.same s)
  · exact .same s

theorem enterActive_keepsSafe (s : State) : KeepsSafe s (enterActive s) :=
  ((setStation_keepsSafe s .active).trans (raise_keepsSafe (activeEvent s) _)).trans
    (.ite ((setThroat_keepsSafe _ _).trans (enqueue_keepsSafe _ _)) (.refl _))

theorem joinTravelComplete_keeps (s : State) : Keeps s (execJoinTravelComplete s) :=
  .ite (.finish (enterActive_keepsSafe s)) (.same s)

/-! ## The throat monitor -/

theorem declareJam_keepsSafe (k : Fin 4) (x : Int) (s : State) : KeepsSafe s (declareJam k x s) := by
  have declared := (setThroat_keepsSafe s { s.throat with jammed := true, relay := true }).trans
    (raise_keepsSafe (s.jamEvent k x) _)
  exact .ite ((declared.trans (setThroat_keepsSafe _ _)).trans (enqueue_keepsSafe _ _)) declared

theorem jamCondition_keeps (s : State) : Keeps s (execJamCondition s) := by
  unfold execJamCondition
  split
  · exact .finish (declareJam_keepsSafe _ _ s)
  · exact .same s

theorem rebase_keepsSafe (s : State) : KeepsSafe s (rebase s) := .ite (setThroat_keepsSafe _ _) (.refl s)

theorem releaseJam_keepsSafe (s : State) : KeepsSafe s (releaseJam s) := by
  have released := (setThroat_keepsSafe s { s.throat with jammed := false, announced := false, relay := false }).trans
    (rebase_keepsSafe _)
  exact .ite (released.trans (enqueue_keepsSafe _ _)) released

/-! ## SETUP, START, full reset, FAULT, PURGE -/

/-- LEAVE leaves the outputs and the stage of a running sequence as they are (R122). -/
theorem FeedSequencer.left_valvesSafe {f : FeedSequencer} (h : f.valvesSafe) : f.left.valvesSafe := by
  unfold FeedSequencer.valvesSafe FeedSequencer.left at *
  cases run : f.fire with
  | none =>
    rw [run] at h
    exact h
  | some q =>
    rw [run] at h
    exact h

/-- Nothing recorded is within every capacity. -/
theorem recordsWithin_nil : recordsWithin [] := ⟨Nat.zero_le _, List.nodup_nil⟩

/-- An empty outbox is within every capacity. -/
theorem outboxWithin_nil : outboxWithin [] := ⟨Nat.zero_le _, Nat.zero_le _, Nat.zero_le _⟩

theorem enterSetup_keepsSafe (s : State) : KeepsSafe s (enterSetup s) where
  valves := FeedSequencer.left_valvesSafe
  fifo := EventFifo.enter_ordered _ _ _
  track := fun _ => recordsWithin_nil
  hold := fun _ _ => ⟨rfl, rfl⟩
  numbered := id
  link := fun _ => outboxWithin_nil
  line := id
  passed := fun _ => Nat.zero_le _

theorem leaveIfDue_keepsSafe (s : State) : KeepsSafe s (leaveIfDue s) := .ite (enterSetup_keepsSafe s) (.refl s)

theorem startStation_keepsSafe (eyes : Lanes) (lineFree : Nat) (s : State) : KeepsSafe s (startStation eyes lineFree s) := by
  unfold startStation
  refine KeepsSafe.trans ?_ (enqueue_keepsSafe _ _)
  exact {
    valves := id
    fifo := id
    track := fun _ => recordsWithin_nil
    hold := fun _ _ => ⟨rfl, rfl⟩
    numbered := fun n => ⟨n.2.2.1, n.2.2.2, n.2.2⟩
    link := fun _ => outboxWithin_nil
    line := id
    passed := fun _ => Nat.zero_le _ }

/-- The state after full reset is within every limit, whatever stood before it (R185). -/
theorem fullReset_keepsSafe (s : State) : KeepsSafe s (fullReset s) where
  valves := fun _ => ⟨rfl, rfl⟩
  fifo := fun _ => ⟨Nat.zero_le _, trivial⟩
  track := fun _ => recordsWithin_nil
  hold := fun _ _ => ⟨rfl, rfl⟩
  numbered := fun _ => by
    show 1 ≤ 1 ∧ 1 ≤ 15 ∧ 1 ≤ 1 ∧ 1 ≤ 15
    decide
  link := fun _ => outboxWithin_nil
  line := fun _ => by
    show LineCounter.reset.within
    unfold LineCounter.within
    decide
  passed := fun _ => Nat.zero_le _

theorem cancelWaiting_keepsSafe (s : State) : KeepsSafe s (cancelWaiting s) :=
  setLink_keepsSafe _ _ (outboxWithin_of_sublist List.filter_sublist)

theorem faultOwn_keepsSafe (s : State) : KeepsSafe s (faultOwn s) := by
  unfold faultOwn
  split
  · exact .refl s
  · split
    · exact .ite (endOwn_keepsSafe s) ((raise_keepsSafe _ s).trans (endOwn_keepsSafe _))
    · exact ((dropOwnRecord_keepsSafe _ s).trans (raise_keepsSafe _ _)).trans (endOwn_keepsSafe _)
    · exact ((dropOwnRecord_keepsSafe _ s).trans (raise_keepsSafe _ _)).trans (endOwn_keepsSafe _)
    · exact (raise_keepsSafe _ s).trans (endOwn_keepsSafe _)

theorem enterFault_keepsSafe (k : MsgKind) (s : State) : KeepsSafe s (enterFault k s) :=
  let t := faultOwn (cancelWaiting (raise (faultEvent k) s))
  have ended : KeepsSafe s t :=
    ((raise_keepsSafe (faultEvent k) s).trans (cancelWaiting_keepsSafe _)).trans (faultOwn_keepsSafe _)
  (ended.trans (setPeers_keepsSafe t { t.peers with hailTimer := none } rfl)).trans (setStation_keepsSafe _ _)

theorem purgeOwn_keepsSafe (s : State) : KeepsSafe s (purgeOwn s) := by
  unfold purgeOwn
  split
  · exact .refl s
  · exact .ite (setBid_keepsSafe _ _ rfl rfl rfl (.inl le_rfl)) (endOwn_keepsSafe s)

theorem purgeOutbox_within {l : List Entry} (h : outboxWithin l) : outboxWithin (purgeOutbox l) := by
  refine outboxWithin_map (fun e => ?_) (fun e => ?_) (outboxWithin_of_sublist List.filter_sublist h)
  · split <;> rfl
  · split <;> exact id

/-- An accepted PURGE empties the jamming set with its cause, and clears the passed-over count (R103, R161). -/
theorem purgeAll_keepsSafe (n : Nat) (s : State) : KeepsSafe s (purgeAll n s) := by
  refine ((raise_keepsSafe (purgedEvent n) s).trans (purgeOwn_keepsSafe _)).trans ?_
  unfold purgeAll
  generalize purgeOwn (raise (purgedEvent n) s) = t
  extract_lets k1 k2 u e1 v w
  have cancelled : KeepsSafe t u :=
    (setLink_keepsSafe t _ purgeOutbox_within).trans (setRecords_keepsSafe _ [] (fun _ => recordsWithin_nil))
  have emptied : KeepsSafe u v := by
    refine (setEye_keepsSafe u _).trans (setBid_jam_keepsSafe _ _ (fun _ _ => rfl) rfl (Nat.zero_le _))
  have dropped : KeepsSafe v w := (setWidth_keepsSafe v _).trans (setOutfeed_keepsSafe _ _)
  exact (((cancelled.trans emptied).trans dropped).trans (setThroat_keepsSafe _ _)).trans (rebase_keepsSafe _)

/-! ## The link controller at acceptance -/

theorem restartGrid_keepsSafe (s : State) : KeepsSafe s (restartGrid s) := setLink_keepsSafe _ _ id

theorem recordSender_keepsSafe (n : Nat) (s : State) : KeepsSafe s (recordSender n s) := setLink_keepsSafe _ _ id

theorem holdLeave_keepsSafe (c : HoldCause) (s : State) (jam : c ≠ .jam) (mismatch : c ≠ .mismatch) :
    KeepsSafe s (holdLeave c s) := putHold_keepsSafe c false s jam mismatch

theorem lineHeard_keepsSafe (n : Nat) (s : State) : KeepsSafe s (lineHeard n s) := by
  have reloaded := setLink_keepsSafe s { s.link with health := some (s.now + Config.healthTime) } id
  exact .ite ((reloaded.trans (holdLeave_keepsSafe .lineDown _ (by decide) (by decide))).trans (raise_keepsSafe _ _)) reloaded

/-! ## What each message does -/

theorem bidEffect_keepsSafe (d : Desc) (tl : Count) (n : Nat) (s : State) : KeepsSafe s (bidEffect d tl n s) := by
  unfold bidEffect
  extract_lets t y
  have filed : KeepsSafe s t := fileRecord_keepsSafe _ 1 s
  exact (filed.trans (enterRival_keepsSafe y t)).trans (judgePeerBid_keepsSafe y _)

theorem takeFree_keepsSafe (used : Bool) (s : State) : KeepsSafe s (takeFree used s) :=
  .ite (setTrack_keepsSafe _ _ id) (.refl s)

@[simp] theorem takeFree_records (used : Bool) (s : State) : (takeFree used s).track.records = s.track.records := by
  unfold takeFree
  split <;> rfl

theorem fileSeen_keepsSafe (d : Desc) (tl : Count) (m n : Nat) (s : State) : KeepsSafe s (fileSeen d tl m n s) := by
  unfold fileSeen
  split
  · rename_i r held
    refine .ite (.refl s) ((takeFree_keepsSafe _ s).trans (changeRecord_keepsSafe ⟨r, ?_, rfl⟩))
    rw [takeFree_records]
    exact (record_tag held).2
  · exact .ite (.refl s) ((takeFree_keepsSafe _ s).trans (fileRecord_keepsSafe _ _ _))

theorem seenBid_keepsSafe (d : Desc) (m n : Nat) (s : State) : KeepsSafe s (seenBid d m n s) :=
  .ite (.ite ((endOwn_keepsSafe s).trans (raise_keepsSafe _ _)) (.refl s)) (.ite (leaveDeferral_keepsSafe n s) (.refl s))

theorem seenEffect_keepsSafe (d : Desc) (tl : Count) (m n : Nat) (s : State) : KeepsSafe s (seenEffect d tl m n s) :=
  (fileSeen_keepsSafe d tl m n s).trans (seenBid_keepsSafe d m n _)

theorem strayEffect_keepsSafe (d : Desc) (tl : Count) (n : Nat) (s : State) : KeepsSafe s (strayEffect d tl n s) := by
  unfold strayEffect
  split
  · rename_i r held
    exact .ite (changeRecord_keepsSafe ⟨r, (record_tag held).2, rfl⟩) (fileRecord_keepsSafe _ _ s)
  · exact fileRecord_keepsSafe _ _ s

theorem missedEffect_keepsSafe (tag : Tag) (n : Nat) (s : State) : KeepsSafe s (missedEffect tag n s) := by
  unfold missedEffect
  split
  · exact .ite (.refl s) (countMiss_keepsSafe _ n s)
  · exact .refl s

theorem withdrawEffect_keepsSafe (tag : Tag) (n : Nat) (s : State) : KeepsSafe s (withdrawEffect tag n s) :=
  .ite (removeRecord_keepsSafe tag s) (.refl s)

/-- A set that a station joins is not empty. -/
theorem union_stationBit_ne_zero (w : Stations) {n : Nat} (low : 1 ≤ n) (high : n ≤ 15) : w ||| stationBit n ≠ 0 := by
  intro h
  have bit := congrArg (fun v : Stations => v.getLsbD (n - 1)) h
  simp [stationBit, Nat.one_le_iff_ne_zero.mp low] at bit
  omega

/-- The sender of a JAM joins the jamming set, and the JAM cause stands (R80). -/
theorem jamEffect_keepsSafe (n : Nat) (s : State) (station : s.numbered → 1 ≤ n ∧ n ≤ 15) : KeepsSafe s (jamEffect n s) := by
  have some_member : s.numbered → true = (s.bid.jamming ||| stationBit n != 0) := fun h =>
    (bne_iff_ne.mpr (union_stationBit_ne_zero _ (station h).1 (station h).2)).symm
  refine .ite (.refl s) ?_
  unfold holdJoin
  split
  · rename_i held
    exact (setBid_jam_keepsSafe s { s.bid with jamming := s.bid.jamming ||| stationBit n }
      (fun n _ => Eq.trans held (some_member n)) rfl le_rfl).trans (raise_keepsSafe _ _)
  · refine KeepsSafe.trans ?_ (recallOwn_keepsSafe _ _ _)
    exact (setBid_jam_keepsSafe s
      { s.bid with jamming := s.bid.jamming ||| stationBit n, hold := s.bid.hold.put .jam true }
      (fun n _ => some_member n) rfl le_rfl).trans (raise_keepsSafe _ _)

/-- The JAM cause leaves with the last member of the jamming set, and stands while it has one (R80). -/
theorem jamReleaseEffect_keepsSafe (n : Nat) (s : State) : KeepsSafe s (jamReleaseEffect n s) := by
  unfold jamReleaseEffect
  split
  · rename_i member
    unfold relieveJam
    split
    · rename_i last
      have last : s.bid.jamming &&& ~~~(stationBit n) = 0 := last
      exact (setBid_jam_keepsSafe s
        { s.bid with jamming := s.bid.jamming &&& ~~~(stationBit n), hold := s.bid.hold.put .jam false }
        (fun _ _ => by simp [HoldSet.put, last]) rfl le_rfl).trans (raise_keepsSafe _ _)
    · rename_i others
      have others : s.bid.jamming &&& ~~~(stationBit n) ≠ 0 := others
      refine (setBid_jam_keepsSafe s { s.bid with jamming := s.bid.jamming &&& ~~~(stationBit n) }
        (fun _ h => ?_) rfl le_rfl).trans (raise_keepsSafe _ _)
      have held : s.bid.jamming ≠ 0 := fun none => by simp [none] at others
      exact h.1.trans ((bne_iff_ne.mpr held).trans (bne_iff_ne.mpr others).symm)
  · exact .refl s

theorem ownEffect_keepsSafe (m : Msg) (s : State) : KeepsSafe s (ownEffect m s) := by
  match m with
  | .recall t => exact withdrawEffect_keepsSafe t _ s
  | .void t => exact withdrawEffect_keepsSafe t _ s
  | .jam => exact jamEffect_keepsSafe _ s (fun h => ⟨h.1, h.2.1⟩)
  | .jamRelease => exact jamReleaseEffect_keepsSafe _ s
  | .purge => exact purgeAll_keepsSafe _ s
  | .bid d tl => exact acceptOwnBid_keepsSafe d tl s
  | .seen d tl n => exact seenEffect_keepsSafe d tl n _ s
  | .missed d tl => exact missedEffect_keepsSafe d.tag _ s
  | .stray d tl => exact strayEffect_keepsSafe d tl _ s
  | .hail => exact .refl s

theorem endSending_keepsSafe (s : State) : KeepsSafe s (endSending s) :=
  setLink_keepsSafe _ _ (outboxWithin_of_sublist List.filter_sublist)

theorem dropMarks_keepsSafe (s : State) : KeepsSafe s (dropMarks s) :=
  .ite (setFeed_outputs_keepsSafe _ _ rfl rfl rfl) (.refl s)

theorem acceptOwn_keepsSafe (m : Msg) (s : State) : KeepsSafe s (acceptOwn m s) :=
  ((((((dropMarks_keepsSafe s).trans (endSending_keepsSafe _)).trans (restartGrid_keepsSafe _)).trans
    (recordSender_keepsSafe _ _)).trans (ownEffect_keepsSafe m _)).trans (leaveIfDue_keepsSafe _)).trans (finish_keepsSafe _)

theorem duplicate_keepsSafe (k : MsgKind) (s : State) : KeepsSafe s (duplicate k s) := by
  have grid := restartGrid_keepsSafe s
  exact .ite grid ((grid.trans (enterFault_keepsSafe k _)).trans (finish_keepsSafe _))

theorem acceptPeer_keepsSafe (n : Nat) (hail : Option Hailed) {f : State → State} (h : ∀ t, KeepsSafe t (f t)) (s : State) :
    KeepsSafe s (acceptPeer n hail f s) :=
  (((((peerHeard_keepsSafe n hail s).trans (restartGrid_keepsSafe _)).trans (recordSender_keepsSafe n _)).trans
    (lineHeard_keepsSafe n _)).trans (h _)).trans (finish_keepsSafe _)

/-- An accepted frame keeps every limit, where its effect does for a sender that is a station. -/
theorem accept_keeps (h : Heard) (k : MsgKind) (payload : List Byte) (tag : Option Tag) (hail : Option Hailed)
    {f : State → State} (hf : h.sender ≠ 0 → ∀ t, KeepsSafe t (f t)) (s : State) :
    Keeps s (.next (accept h k payload tag hail f s)) := by
  refine .next ?_
  unfold accept
  split
  · exact .refl s
  · rename_i taken
    have sender : h.sender ≠ 0 := fun zero => taken (.inr (.inl zero))
    have moved := advanceTo_keepsSafe h.time s
    refine .ite ?_ (.ite (moved.trans (acceptPeer_keepsSafe _ _ (hf sender) _)) (.refl s))
    split
    · exact moved.trans (acceptOwn_keepsSafe _ _)
    · exact .ite (moved.trans (duplicate_keepsSafe k _)) (.refl s)

theorem bid_keeps (h : Heard) (payload : List Byte) (s : State) : Keeps s (execBid h payload s) := by
  refine accept_keeps h _ _ _ _ (fun _ t => ?_) s
  split
  · exact bidEffect_keepsSafe _ _ _ t
  · exact .refl t

theorem sightingSeen_keeps (h : Heard) (payload measured : List Byte) (s : State) :
    Keeps s (execSightingSeen h payload measured s) := by
  refine accept_keeps h _ _ _ _ (fun _ t => ?_) s
  split
  · exact seenEffect_keepsSafe _ _ _ _ t
  · exact .refl t

theorem sightingMissed_keeps (h : Heard) (payload : List Byte) (s : State) : Keeps s (execSightingMissed h payload s) := by
  refine accept_keeps h _ _ _ _ (fun _ t => ?_) s
  split
  · exact missedEffect_keepsSafe _ _ t
  · exact .refl t

theorem sightingStray_keeps (h : Heard) (payload : List Byte) (s : State) : Keeps s (execSightingStray h payload s) := by
  refine accept_keeps h _ _ _ _ (fun _ t => ?_) s
  split
  · exact strayEffect_keepsSafe _ _ _ t
  · exact .refl t

theorem jam_keeps (h : Heard) (s : State) : Keeps s (execJam h s) :=
  accept_keeps h _ _ _ _ (fun sender t => jamEffect_keepsSafe _ t (fun _ =>
    ⟨Nat.one_le_iff_ne_zero.mpr (fun zero => sender (BitVec.eq_of_toNat_eq zero)), Nat.le_of_lt_succ h.sender.isLt⟩)) s

theorem recall_keeps (h : Heard) (payload : List Byte) (s : State) : Keeps s (execRecall h payload s) :=
  accept_keeps h _ _ _ _ (fun _ t => withdrawEffect_keepsSafe _ _ t) s

theorem void_keeps (h : Heard) (payload : List Byte) (s : State) : Keeps s (execVoid h payload s) :=
  accept_keeps h _ _ _ _ (fun _ t => withdrawEffect_keepsSafe _ _ t) s

theorem jamReleaseAccepted_keeps (h : Heard) (s : State) : Keeps s (execJamReleaseAccepted h s) :=
  accept_keeps h _ _ _ _ (fun _ t => jamReleaseEffect_keepsSafe _ t) s

theorem purge_keeps (h : Heard) (s : State) : Keeps s (execPurge h s) :=
  accept_keeps h _ _ _ _ (fun _ t => purgeAll_keepsSafe _ t) s

theorem hail_keeps (h : Heard) (payload : List Byte) (s : State) : Keeps s (execHail h payload s) :=
  accept_keeps h _ _ _ _ (fun _ t => .refl t) s

theorem duplicateNumber_keeps (time : Nat) (k : MsgKind) (s : State) : Keeps s (execDuplicateNumber time k s) :=
  .ite (.next ((advanceTo_keepsSafe time s).trans (duplicate_keepsSafe k _))) (.same s)

/-! ## The link controller away from acceptance -/

/-- An attempt begins where nothing is SENDING (R151, R154). -/
theorem slotStart_keeps (slot : Fin 128) (heard : Bool) (s : State) : Keeps s (execSlotStart slot s heard) := by
  refine .ite (.next (setLink_keepsSafe _ _ id)) ?_
  split
  · rename_i q e _ _
    split
    · rename_i may
      refine .next ((advanceTo_keepsSafe _ s).trans (setLink_keepsSafe _ _ (fun h => startEntry_within _ _ h ?_)))
      rw [advanceTo_frame _ s .link (by decide)]
      unfold State.mayBegin State.sending at may
      simp only [Bool.and_eq_true, Option.isNone_iff_eq_none, List.find?_eq_none] at may
      exact fun e he => Bool.eq_false_iff.mpr (may.2 e he)
    · exact .same s
  · exact .same s

theorem frameError_keeps (run : Run) (s : State) : Keeps s (execFrameError run s) := by
  unfold execFrameError
  split
  · exact .ite (.next ((advanceTo_keepsSafe _ s).trans (setLink_keepsSafe _ _ id))) (.same s)
  · exact .same s

theorem spoiledFrameDiscarded_keeps (time : Nat) (s : State) : Keeps s (execSpoiledFrameDiscarded time s) :=
  .ite (.same s) (.next ((advanceTo_keepsSafe time s).trans (restartGrid_keepsSafe _)))

theorem endQueued_keepsSafe (tag : Option Tag) (s : State) : KeepsSafe s (endQueued tag s) := by
  unfold endQueued
  split
  · exact .ite (endOwn_keepsSafe s) (.refl s)
  · exact .refl s

theorem dropSending_keepsSafe (e : Entry) (s : State) : KeepsSafe s (dropSending e s) := by
  have told := (endSending_keepsSafe s).trans (raise_keepsSafe (dropEvent e.msg 1 (some Config.maxAttempts)) _)
  unfold dropSending
  dsimp only
  split
  · exact told.trans (endQueued_keepsSafe _ _)
  · exact told.trans (handDropped_keepsSafe _ _)

theorem cancelSending_keepsSafe (e : Entry) (s : State) : KeepsSafe s (cancelSending e s) := by
  unfold cancelSending
  split
  · exact (endSending_keepsSafe s).trans (endQueued_keepsSafe _ _)
  · exact endSending_keepsSafe s

theorem retrySending_keepsSafe (s : State) : KeepsSafe s (retrySending s) := by
  refine setLink_keepsSafe _ _ (outboxWithin_map (fun e => ?_) (fun e => ?_))
  · split <;> rfl
  · split
    · exact fun waiting => absurd waiting Bool.false_ne_true
    · exact id

theorem spoilAttempt_keepsSafe (e : Entry) (s : State) : KeepsSafe s (spoilAttempt e s) :=
  (dropMarks_keepsSafe s).trans
    (.ite (cancelSending_keepsSafe e _) (.ite (dropSending_keepsSafe e _) (retrySending_keepsSafe _)))

theorem afterSpoiled_keepsSafe (s : State) : KeepsSafe s (afterSpoiled s) :=
  (leaveIfDue_keepsSafe s).trans (finish_keepsSafe _)

theorem windowSpoiled_keepsSafe (time : Nat) (e : Entry) (s : State) : KeepsSafe s (windowSpoiled time e s) :=
  (((advanceTo_keepsSafe time s).trans (restartGrid_keepsSafe _)).trans (spoilAttempt_keepsSafe e _)).trans
    (afterSpoiled_keepsSafe _)

theorem readbackMismatch_keeps (time : Nat) (s : State) : Keeps s (execReadbackMismatch time s) := by
  unfold execReadbackMismatch
  split
  · rename_i e _
    extract_lets t ends k u
    have stopped : KeepsSafe t (t.setLink { t.link with quiet := some (ends + Config.windowTime), listenFrom := ends }) :=
      setLink_keepsSafe _ _ id
    have spoiled : KeepsSafe s u := ((advanceTo_keepsSafe time s).trans stopped).trans (spoilAttempt_keepsSafe e _)
    exact .next ((spoiled.trans (.ite (advanceTo_keepsSafe _ u) (.refl u))).trans (afterSpoiled_keepsSafe _))
  · exact .same s

theorem attemptSpoiled_keeps (time : Nat) (s : State) : Keeps s (execAttemptSpoiled time s) := by
  unfold execAttemptSpoiled
  split
  · exact .next (windowSpoiled_keepsSafe time _ s)
  · exact .same s

theorem endAttempt_keepsSafe (time : Nat) (clean : Bool) (e : Entry) (s : State) :
    KeepsSafe s (endAttempt time clean e s) :=
  .ite ((advanceTo_keepsSafe time s).trans (acceptOwn_keepsSafe _ _)) (windowSpoiled_keepsSafe time e s)

theorem withdrawalCompletion_keeps (time : Nat) (clean : Bool) (s : State) :
    Keeps s (execWithdrawalCompletion time clean s) := by
  unfold execWithdrawalCompletion
  split
  · exact .ite (.next (endAttempt_keepsSafe time clean _ s)) (.same s)
  · exact .ite (.finish (endOwn_keepsSafe s)) (.same s)
  · exact .same s

theorem leaveCompletion_keeps (time : Nat) (clean : Bool) (s : State) : Keeps s (execLeaveCompletion time clean s) := by
  refine .ite ?_ (.same s)
  split
  · exact .next (endAttempt_keepsSafe time clean _ s)
  · exact .next (enterSetup_keepsSafe s)

theorem lineHealthTimeout_keeps (s : State) : Keeps s (execLineHealthTimeout s) := by
  unfold execLineHealthTimeout
  split
  · rename_i t _
    have stopped := (advanceTo_keepsSafe t s).trans
      (setLink_keepsSafe _ { (advanceTo t s).link with health := none } id)
    exact .finish ((stopped.trans (holdJoin_keepsSafe .lineDown _ (by decide) (by decide))).trans (raise_keepsSafe _ _))
  · exact .same s

theorem sharedRoom_room {l : List Entry} (h : sharedRoom l = true) :
    l.length < Config.outboxCapacity ∧ sharedCount l < Config.outboxShared := by
  unfold sharedRoom at h
  simp only [Bool.and_eq_true, decide_eq_true_eq] at h
  exact h.symm

theorem bidEntersOutbox_keeps (s : State) : Keeps s (execBidEntersOutbox s) := by
  unfold execBidEntersOutbox
  split
  · split
    · rename_i room
      exact .next (setLink_keepsSafe _ _
        (fun h => outboxWithin_append h (sharedRoom_room room).1 (.inr (sharedRoom_room room).2)))
    · exact .same s
  · exact .same s

/-! ## The local port -/

theorem transact_keeps {f : State → State} {s : State} (h : KeepsSafe s (f s)) (cs : Cs) :
    Keeps s (.next (transact cs f s)) := by
  refine .next (.ite (.refl s) ?_)
  cases cs with
  | falls => exact setPort_keepsSafe _ _
  | taken => exact h

theorem take_keepsSafe (r : Result) {f : State → State} {s : State} (h : KeepsSafe s (f s)) : KeepsSafe s (take r f s) :=
  h.trans (setPort_keepsSafe _ _)

theorem refuse_keepsSafe (r : Result) (s : State) : KeepsSafe s (refuse r s) := take_keepsSafe r (.refl s)

theorem cutShort_keepsSafe (s : State) : KeepsSafe s (cutShort s) := setPort_keepsSafe _ _

theorem withData_keepsSafe (n : Nat) (data : List Byte) {f : State → State} {s : State} (h : KeepsSafe s (f s)) :
    KeepsSafe s (withData n data f s) := .ite (cutShort_keepsSafe s) h

theorem reply_keepsSafe (record : Option (List Byte)) (s : State) : KeepsSafe s (reply record s) := by
  cases record with
  | none => exact setPort_keepsSafe _ _
  | some l => exact setPort_keepsSafe _ _

theorem inSetup_keepsSafe {f : State → State} {s : State} (h : KeepsSafe s (f s)) : KeepsSafe s (inSetup f s) :=
  .ite h (refuse_keepsSafe _ s)

/-- A written station number lies between 1 and 15 (R180). -/
theorem stationOf_number (w : StationWrite) : 1 ≤ (stationOf w).number ∧ (stationOf w).number ≤ 15 := by
  unfold stationOf clampNat
  dsimp only
  omega

theorem configureStation_keeps (data : List Byte) (s : State) (cs : Cs) : Keeps s (execConfigureStation data s cs) :=
  transact_keeps (inSetup_keepsSafe (withData_keepsSafe _ _
    (take_keepsSafe _ (setStore_keepsSafe _ _ (fun _ => stationOf_number _))))) cs

theorem configureLine_keeps (data : List Byte) (s : State) (cs : Cs) : Keeps s (execConfigureLine data s cs) :=
  transact_keeps (inSetup_keepsSafe (withData_keepsSafe _ _ (take_keepsSafe _
    (setStore_keepsSafe s { s.store with line := lineOf (lineAt data) } (fun h => h.2.2))))) cs

theorem configureArticle_keeps (n : BitVec 7) (data : List Byte) (s : State) (cs : Cs) :
    Keeps s (execConfigureArticle n data s cs) := by
  refine transact_keeps (inSetup_keepsSafe ?_) cs
  split
  · exact withData_keepsSafe _ _ (take_keepsSafe _ (setStore_keepsSafe _ _ (fun h => h.2.2)))
  · exact refuse_keepsSafe _ s

theorem start_keeps (eyes : Lanes) (lineFree : Nat) (s : State) (cs : Cs) : Keeps s (execStart eyes s lineFree cs) := by
  refine transact_keeps ?_ cs
  exact .ite (take_keepsSafe _ (startStation_keepsSafe eyes lineFree s)) (refuse_keepsSafe _ s)

theorem endQueuedAny_keepsSafe (s : State) : KeepsSafe s (awaitLeave.endQueuedAny s) := by
  unfold awaitLeave.endQueuedAny
  split
  · exact .ite (endOwn_keepsSafe s) (.refl s)
  · exact .refl s

theorem awaitLeave_keepsSafe (s : State) : KeepsSafe s (awaitLeave s) := by
  unfold awaitLeave
  extract_lets t k u
  have ended : KeepsSafe s t := .ite (.refl s) (endQueuedAny_keepsSafe s)
  have cancelled : KeepsSafe t u := setLink_keepsSafe _ _ (fun h =>
    outboxWithin_map (f := fun e => { e with cancelling := true }) (fun _ => rfl) (fun _ => id)
      (outboxWithin_of_sublist List.filter_sublist h))
  exact (ended.trans cancelled).trans (setLeaving_keepsSafe _ _)

theorem leaveStation_keepsSafe (s : State) : KeepsSafe s (leaveStation s) :=
  .ite (.refl s) (.ite ((awaitLeave_keepsSafe s).trans (finish_keepsSafe _)) (enterSetup_keepsSafe s))

theorem leave_keeps (s : State) (cs : Cs) : Keeps s (execLeave s cs) := by
  refine transact_keeps ?_ cs
  exact .ite (refuse_keepsSafe _ s) (take_keepsSafe _ (leaveStation_keepsSafe s))

theorem reset_keeps (s : State) (cs : Cs) : Keeps s (execReset s cs) :=
  transact_keeps ((fullReset_keepsSafe s).trans (setPort_keepsSafe _ _)) cs

theorem fullReset_keeps (asserted : Bool) (s : State) : Keeps s (execFullReset s asserted) :=
  .next ((fullReset_keepsSafe s).trans (setPort_keepsSafe _ _))

theorem load_keeps (article lot : List Byte) (s : State) (cs : Cs) : Keeps s (execLoad article lot s cs) := by
  refine transact_keeps ?_ cs
  refine .ite (withData_keepsSafe _ _ (.ite ?_ (refuse_keepsSafe _ s))) (refuse_keepsSafe _ s)
  split
  · have filled : ∀ i article lot, KeepsSafe s (fillPosition i article lot s) := fun _ _ _ =>
      setFeed_outputs_keepsSafe s _ rfl rfl rfl
    exact take_keepsSafe _ ((filled _ _ _).trans (finish_keepsSafe _))
  · exact refuse_keepsSafe _ s

theorem takeBackBid_keepsSafe (s : State) : KeepsSafe s (takeBackBid s) :=
  (setBid_keepsSafe s { s.bid with own := none, rivals := [] } rfl rfl rfl (.inl le_rfl)).trans (cancelBid_keepsSafe _)

theorem unloadBidding_keepsSafe (i : Fin 4) (s : State) : KeepsSafe s (unloadBidding i s) := by
  unfold unloadBidding
  split
  · exact .ite ((takeBackBid_keepsSafe s).trans (unloadPosition_keepsSafe _ _ _))
      (.ite ((setPosition_keepsSafe s i _).trans (recallOwn_keepsSafe _ _ _))
        ((recallOwn_keepsSafe _ _ s).trans (unloadPosition_keepsSafe _ _ _)))
  · exact unloadPosition_keepsSafe _ _ _

theorem endWait_keepsSafe (i : Fin 4) (s : State) : KeepsSafe s (endWait i s) :=
  .ite (setBid_keepsSafe _ _ rfl rfl rfl (.inl le_rfl)) (.refl s)

theorem unloadEffect_keepsSafe (i : Fin 4) (s : State) : KeepsSafe s (unloadEffect i s) := by
  unfold unloadEffect
  split
  · exact refuse_keepsSafe _ s
  · exact take_keepsSafe _ (((endWait_keepsSafe i s).trans (unloadPosition_keepsSafe _ _ _)).trans (finish_keepsSafe _))
  · exact take_keepsSafe _ ((unloadBidding_keepsSafe i s).trans (finish_keepsSafe _))
  · exact refuse_keepsSafe _ s

theorem unload_keeps (position : Byte) (s : State) (cs : Cs) : Keeps s (execUnload position s cs) := by
  refine transact_keeps ?_ cs
  refine .ite ?_ (refuse_keepsSafe _ s)
  split
  · exact unloadEffect_keepsSafe _ s
  · exact refuse_keepsSafe _ s

theorem holdRequested_keeps (s : State) (cs : Cs) : Keeps s (execHoldRequested s cs) :=
  transact_keeps (take_keepsSafe _
    ((holdJoin_keepsSafe .operator s (by decide) (by decide)).trans (finish_keepsSafe _))) cs

theorem holdReleased_keeps (s : State) (cs : Cs) : Keeps s (execHoldReleased s cs) :=
  transact_keeps (take_keepsSafe _
    ((holdLeave_keepsSafe .operator s (by decide) (by decide)).trans (finish_keepsSafe _))) cs

theorem jamRelease_keeps (s : State) (cs : Cs) : Keeps s (execJamRelease s cs) := by
  have released := (releaseJam_keepsSafe s).trans (finish_keepsSafe _)
  refine transact_keeps ?_ cs
  exact .ite (take_keepsSafe _ released) (refuse_keepsSafe _ s)

theorem purgeCommand_keeps (s : State) (cs : Cs) : Keeps s (execPurgeCommand s cs) := by
  have queued := (enqueue_keepsSafe .purge s).trans (finish_keepsSafe _)
  refine transact_keeps ?_ cs
  exact .ite (take_keepsSafe _ queued) (refuse_keepsSafe _ s)

/-- Acknowledged events leave the FIFO ordered (R189). -/
theorem acknowledge_keepsSafe (n : BitVec 16) (s : State) : KeepsSafe s (acknowledge n s) := by
  unfold acknowledge
  split
  · rename_i l rest
    refine take_keepsSafe _ { KeepsSafe.refl s with fifo := fun h => ?_ }
    obtain ⟨run, len⟩ := afterSeq_ordered n _ _ _ rest h.2
    exact ⟨len.trans h.1, run⟩
  · exact take_keepsSafe _ { KeepsSafe.refl s with }

theorem unknownHeader_keepsSafe (command argument : Byte) (s : State) : KeepsSafe s (unknownHeader command argument s) :=
  .ite (refuse_keepsSafe _ s) (.ite (refuse_keepsSafe _ s) (.refl s))

theorem ackEvents_keeps (data : List Byte) (s : State) (cs : Cs) : Keeps s (execAckEvents data s cs) :=
  transact_keeps (withData_keepsSafe _ _ (acknowledge_keepsSafe _ s)) cs

/-- A read command of whatever record. -/
theorem read_keeps (record : State → Option (List Byte)) (s : State) (cs : Cs) :
    Keeps s (.next (transact cs (fun t => reply (record t) t) s)) :=
  transact_keeps (f := fun t => reply (record t) t) (reply_keepsSafe (record s) s) cs

theorem readEvent_keeps (k : Byte) (s : State) (cs : Cs) : Keeps s (execReadEvent k s cs) :=
  read_keeps _ s cs

theorem readTrack_keeps (ordinal : Byte) (s : State) (cs : Cs) : Keeps s (execReadTrack ordinal s cs) :=
  read_keeps _ s cs

theorem readPeer_keeps (number : Byte) (s : State) (cs : Cs) : Keeps s (execReadPeer number s cs) :=
  read_keeps _ s cs

theorem readStation_keeps (s : State) (cs : Cs) : Keeps s (execReadStation s cs) :=
  read_keeps _ s cs

theorem unknownCommand_keeps (command argument : Byte) (s : State) (cs : Cs) :
    Keeps s (execUnknownCommand command argument s cs) :=
  transact_keeps (unknownHeader_keepsSafe command argument s) cs

theorem transactionCut_keeps (bytes : List Byte) (s : State) (cs : Cs) : Keeps s (execTransactionCut s bytes cs) := by
  refine transact_keeps ?_ cs
  exact .ite (cutShort_keepsSafe s) (.refl s)

/-! ## Every command, and a step -/

theorem exec_keeps (i : Instr) (s : State) : Keeps s (exec i s) := by
  match i with
  | .encoderStep a b eyes => exact encoderStep_keeps a b eyes s
  | .excursion => exact excursion_keeps s
  | .speedUpdate => exact speedUpdate_keeps s
  | .leadingEdge => exact leadingEdge_keeps s
  | .trailingEdge => exact trailingEdge_keeps s
  | .miss tag => exact miss_keeps tag s
  | .retirement tag => exact retirement_keeps tag s
  | .fire => exact fire_keeps s
  | .fireDropOn => exact fireDropOn_keeps s
  | .fireDropOff => exact fireDropOff_keeps s
  | .fireGripOn => exact fireGripOn_keeps s
  | .widthStart code => exact widthStart_keeps code s
  | .widthSample code => exact widthSample_keeps code s
  | .restTimerExpiry code => exact restTimerExpiry_keeps code s
  | .readyRise => exact readyRise_keeps s
  | .readyFall => exact readyFall_keeps s
  | .retryTimerExpiry => exact retryTimerExpiry_keeps s
  | .settleTimerExpiry => exact settleTimerExpiry_keeps s
  | .spacerPassage stream => exact spacerPassage_keeps stream s
  | .strobeEnd => exact strobeEnd_keeps s
  | .divertPulseEnd => exact divertPulseEnd_keeps s
  | .stackChangePulseEnd stream => exact stackChangePulseEnd_keeps stream s
  | .jamCondition => exact jamCondition_keeps s
  | .joinTravelComplete => exact joinTravelComplete_keeps s
  | .slotStart slot heard => exact slotStart_keeps slot heard s
  | .frameError run => exact frameError_keeps run s
  | .readbackMismatch time => exact readbackMismatch_keeps time s
  | .attemptSpoiled time => exact attemptSpoiled_keeps time s
  | .bid heard payload => exact bid_keeps heard payload s
  | .sightingSeen heard payload measured => exact sightingSeen_keeps heard payload measured s
  | .sightingMissed heard payload => exact sightingMissed_keeps heard payload s
  | .sightingStray heard payload => exact sightingStray_keeps heard payload s
  | .recall heard payload => exact recall_keeps heard payload s
  | .void heard payload => exact void_keeps heard payload s
  | .jam heard => exact jam_keeps heard s
  | .jamReleaseAccepted heard => exact jamReleaseAccepted_keeps heard s
  | .purge heard => exact purge_keeps heard s
  | .hail heard payload => exact hail_keeps heard payload s
  | .duplicateNumber time kind => exact duplicateNumber_keeps time kind s
  | .lineHealthTimeout => exact lineHealthTimeout_keeps s
  | .peerTtlExpiry station => exact peerTtlExpiry_keeps station s
  | .hailTimerExpiry => exact hailTimerExpiry_keeps s
  | .bidEntersOutbox => exact bidEntersOutbox_keeps s
  | .withdrawalCompletion time clean => exact withdrawalCompletion_keeps time clean s
  | .leaveCompletion time clean => exact leaveCompletion_keeps time clean s
  | .configureStation data cs => exact configureStation_keeps data s cs
  | .configureLine data cs => exact configureLine_keeps data s cs
  | .configureArticle n data cs => exact configureArticle_keeps n data s cs
  | .start eyes lineFree cs => exact start_keeps eyes lineFree s cs
  | .leave cs => exact leave_keeps s cs
  | .reset cs => exact reset_keeps s cs
  | .fullReset asserted => exact fullReset_keeps asserted s
  | .load article lot cs => exact load_keeps article lot s cs
  | .unload position cs => exact unload_keeps position s cs
  | .holdRequested cs => exact holdRequested_keeps s cs
  | .holdReleased cs => exact holdReleased_keeps s cs
  | .jamRelease cs => exact jamRelease_keeps s cs
  | .purgeCommand cs => exact purgeCommand_keeps s cs
  | .ackEvents data cs => exact ackEvents_keeps data s cs
  | .readEvent k cs => exact readEvent_keeps k s cs
  | .readTrack ordinal cs => exact readTrack_keeps ordinal s cs
  | .readPeer number cs => exact readPeer_keeps number s cs
  | .readStation cs => exact readStation_keeps s cs
  | .unknownCommand command argument cs => exact unknownCommand_keeps command argument s cs
  | .transactionCut bytes cs => exact transactionCut_keeps bytes s cs
  | .spoiledFrameDiscarded time => exact spoiledFrameDiscarded_keeps time s

theorem step_keepsSafe {s t : State} (h : step s = .next t) : KeepsSafe s t := by
  unfold step at h
  split at h
  · exact Keeps.next (outsideReset_keepsSafe (advanceTo_keepsSafe _ s)) t h
  · rename_i c rest _
    exact (setPending_keepsSafe s rest).trans (exec_keeps c _ t h)

/-- Settles O56. -/
theorem valvesStaySafe : Obligations.ValvesStaySafe := by
  refine ⟨fun s t safe h => (step_keepsSafe h).valves safe, fun f safe both => ?_⟩
  unfold FeedSequencer.valvesSafe at safe
  split at safe
  · simp [both.2] at safe
  · split at safe <;> simp [both.1] at safe

/-- Settles O57. -/
theorem eventFifoStaysOrdered : Obligations.EventFifoStaysOrdered := fun _ _ safe h => (step_keepsSafe h).fifo safe

/-- Settles O58. -/
theorem trackListStaysWithin : Obligations.TrackListStaysWithin := fun _ _ safe h => (step_keepsSafe h).track safe

/-- Settles O59. -/
theorem holdSetFollowsCauses : Obligations.HoldSetFollowsCauses := fun _ _ follows numbered h =>
  ⟨(step_keepsSafe h).hold numbered follows, (step_keepsSafe h).numbered numbered⟩

/-- Settles O60. -/
theorem capacitiesKept : Obligations.CapacitiesKept :=
  ⟨fun _ _ safe h => (step_keepsSafe h).link safe, fun _ _ safe h => (step_keepsSafe h).line safe,
    fun _ _ safe h => (step_keepsSafe h).passed safe⟩

end Sys2Proof.Machine
end

section
/-! The time base and the end of a step, field by field: what `advanceTo` and `finish` leave as it was, so that no proof about
a row unfolds them. -/
namespace Sys2Proof.Machine

/-! ## The time base (log 3, log 4) -/

theorem advanceTo_now (t : Nat) (s : State) : (advanceTo t s).now = max s.now t := by
  unfold advanceTo
  split
  · rename_i past
    exact (max_eq_left past).symm
  · rename_i ahead
    exact (max_eq_right (not_le.mp ahead).le).symm

/-- Time leaves the line counter as it is, but for the instant of the last advance. -/
theorem advanceTo_line (t : Nat) (s : State) :
    (advanceTo t s).line = { s.line with atAdvance := s.line.atAdvance && decide (t ≤ s.now) } := by
  unfold advanceTo
  split <;> simp [*]

@[simp] theorem advanceTo_count (t : Nat) (s : State) : (advanceTo t s).line.count = s.line.count := by rw [advanceTo_line]
@[simp] theorem advanceTo_highWater (t : Nat) (s : State) : (advanceTo t s).line.highWater = s.line.highWater := by
  rw [advanceTo_line]
@[simp] theorem advanceTo_lead (t : Nat) (s : State) : (advanceTo t s).line.lead = s.line.lead := by rw [advanceTo_line]
@[simp] theorem advanceTo_margin (t : Nat) (s : State) : (advanceTo t s).line.margin = s.line.margin := by rw [advanceTo_line]
@[simp] theorem advanceTo_station (t : Nat) (s : State) : (advanceTo t s).station = s.station := advanceTo_frame t s .station (by decide)
@[simp] theorem advanceTo_leaving (t : Nat) (s : State) : (advanceTo t s).leaving = s.leaving := advanceTo_frame t s .leaving (by decide)
@[simp] theorem advanceTo_store (t : Nat) (s : State) : (advanceTo t s).store = s.store := advanceTo_frame t s .store (by decide)
@[simp] theorem advanceTo_run (t : Nat) (s : State) : (advanceTo t s).run = s.run := advanceTo_frame t s .run (by decide)
@[simp] theorem advanceTo_track (t : Nat) (s : State) : (advanceTo t s).track = s.track := advanceTo_frame t s .track (by decide)
@[simp] theorem advanceTo_eye (t : Nat) (s : State) : (advanceTo t s).eye = s.eye := advanceTo_frame t s .eye (by decide)
@[simp] theorem advanceTo_bid (t : Nat) (s : State) : (advanceTo t s).bid = s.bid := advanceTo_frame t s .bid (by decide)
@[simp] theorem advanceTo_feed (t : Nat) (s : State) : (advanceTo t s).feed = s.feed := advanceTo_frame t s .feed (by decide)
@[simp] theorem advanceTo_width (t : Nat) (s : State) : (advanceTo t s).width = s.width := advanceTo_frame t s .width (by decide)
@[simp] theorem advanceTo_throat (t : Nat) (s : State) : (advanceTo t s).throat = s.throat := advanceTo_frame t s .throat (by decide)
@[simp] theorem advanceTo_outfeed (t : Nat) (s : State) : (advanceTo t s).outfeed = s.outfeed := advanceTo_frame t s .outfeed (by decide)
@[simp] theorem advanceTo_link (t : Nat) (s : State) : (advanceTo t s).link = s.link := advanceTo_frame t s .link (by decide)
@[simp] theorem advanceTo_peers (t : Nat) (s : State) : (advanceTo t s).peers = s.peers := advanceTo_frame t s .peers (by decide)
@[simp] theorem advanceTo_port (t : Nat) (s : State) : (advanceTo t s).port = s.port := advanceTo_frame t s .port (by decide)
@[simp] theorem advanceTo_fifo (t : Nat) (s : State) : (advanceTo t s).fifo = s.fifo := advanceTo_frame t s .fifo (by decide)
@[simp] theorem advanceTo_pending (t : Nat) (s : State) : (advanceTo t s).pending = s.pending := advanceTo_frame t s .pending (by decide)

/-! ## Raising an event (R191) -/

@[simp] theorem raise_station (e : Event) (s : State) : (raise e s).station = s.station := rfl
@[simp] theorem raise_leaving (e : Event) (s : State) : (raise e s).leaving = s.leaving := rfl
@[simp] theorem raise_now (e : Event) (s : State) : (raise e s).now = s.now := rfl
@[simp] theorem raise_store (e : Event) (s : State) : (raise e s).store = s.store := rfl
@[simp] theorem raise_run (e : Event) (s : State) : (raise e s).run = s.run := rfl
@[simp] theorem raise_line (e : Event) (s : State) : (raise e s).line = s.line := rfl
@[simp] theorem raise_track (e : Event) (s : State) : (raise e s).track = s.track := rfl
@[simp] theorem raise_eye (e : Event) (s : State) : (raise e s).eye = s.eye := rfl
@[simp] theorem raise_bid (e : Event) (s : State) : (raise e s).bid = s.bid := rfl
@[simp] theorem raise_feed (e : Event) (s : State) : (raise e s).feed = s.feed := rfl
@[simp] theorem raise_width (e : Event) (s : State) : (raise e s).width = s.width := rfl
@[simp] theorem raise_throat (e : Event) (s : State) : (raise e s).throat = s.throat := rfl
@[simp] theorem raise_outfeed (e : Event) (s : State) : (raise e s).outfeed = s.outfeed := rfl
@[simp] theorem raise_link (e : Event) (s : State) : (raise e s).link = s.link := rfl
@[simp] theorem raise_peers (e : Event) (s : State) : (raise e s).peers = s.peers := rfl
@[simp] theorem raise_port (e : Event) (s : State) : (raise e s).port = s.port := rfl
@[simp] theorem raise_pending (e : Event) (s : State) : (raise e s).pending = s.pending := rfl

/-! ## The end of a step (log 9) -/

@[simp] theorem finish_station (s : State) : (finish s).station = s.station := finish_frame s .station (by decide)
@[simp] theorem finish_leaving (s : State) : (finish s).leaving = s.leaving := finish_frame s .leaving (by decide)
@[simp] theorem finish_now (s : State) : (finish s).now = s.now := finish_frame s .now (by decide)
@[simp] theorem finish_store (s : State) : (finish s).store = s.store := finish_frame s .store (by decide)
@[simp] theorem finish_run (s : State) : (finish s).run = s.run := finish_frame s .run (by decide)
@[simp] theorem finish_line (s : State) : (finish s).line = s.line := finish_frame s .line (by decide)
@[simp] theorem finish_eye (s : State) : (finish s).eye = s.eye := finish_frame s .eye (by decide)
@[simp] theorem finish_width (s : State) : (finish s).width = s.width := finish_frame s .width (by decide)
@[simp] theorem finish_throat (s : State) : (finish s).throat = s.throat := finish_frame s .throat (by decide)
@[simp] theorem finish_peers (s : State) : (finish s).peers = s.peers := finish_frame s .peers (by decide)
@[simp] theorem finish_port (s : State) : (finish s).port = s.port := finish_frame s .port (by decide)
@[simp] theorem finish_fifo (s : State) : (finish s).fifo = s.fifo := finish_frame s .fifo (by decide)
@[simp] theorem finish_pending (s : State) : (finish s).pending = s.pending := finish_frame s .pending (by decide)
@[simp] theorem finish_track_records (s : State) : (finish s).track.records = s.track.records := (finish_keeps s).records
@[simp] theorem finish_track_free (s : State) : (finish s).track.free = s.track.free := (finish_keeps s).free
@[simp] theorem finish_bid_hold (s : State) : (finish s).bid.hold = s.bid.hold := (finish_keeps s).hold
@[simp] theorem finish_bid_passedOver (s : State) : (finish s).bid.passedOver = s.bid.passedOver := (finish_keeps s).passedOver
@[simp] theorem finish_bid_jamming (s : State) : (finish s).bid.jamming = s.bid.jamming := (finish_keeps s).jamming
@[simp] theorem finish_bid_deferral (s : State) : (finish s).bid.deferral = s.bid.deferral := (finish_keeps s).deferral
@[simp] theorem finish_feed_ready (s : State) : (finish s).feed.ready = s.feed.ready := (finish_keeps s).ready
@[simp] theorem finish_feed_grip (s : State) : (finish s).feed.grip = s.feed.grip := (finish_keeps s).grip
@[simp] theorem finish_feed_drop (s : State) : (finish s).feed.drop = s.feed.drop := (finish_keeps s).drop
@[simp] theorem finish_feed_fire (s : State) : (finish s).feed.fire = s.feed.fire := (finish_keeps s).fire
@[simp] theorem finish_feed_lastFilled (s : State) : (finish s).feed.lastFilled = s.feed.lastFilled := (finish_keeps s).lastFilled
@[simp] theorem finish_feed_returned (s : State) : (finish s).feed.returned = s.feed.returned := (finish_keeps s).returned
@[simp] theorem finish_outfeed_strobe (s : State) : (finish s).outfeed.strobe = s.outfeed.strobe := (finish_keeps s).strobe
@[simp] theorem finish_outfeed_divert (s : State) : (finish s).outfeed.divert = s.outfeed.divert := (finish_keeps s).divert
@[simp] theorem finish_outfeed_stackChange (s : State) :
    (finish s).outfeed.stackChange = s.outfeed.stackChange := (finish_keeps s).stackChange
@[simp] theorem finish_outfeed_foldCode (s : State) : (finish s).outfeed.foldCode = s.outfeed.foldCode := (finish_keeps s).foldCode
@[simp] theorem finish_outfeed_foldQueue (s : State) : (finish s).outfeed.foldQueue = s.outfeed.foldQueue := (finish_keeps s).foldQueue
@[simp] theorem finish_outfeed_underEye (s : State) : (finish s).outfeed.underEye = s.outfeed.underEye := (finish_keeps s).underEye
@[simp] theorem finish_link_quiet (s : State) : (finish s).link.quiet = s.link.quiet := (finish_keeps s).quiet
@[simp] theorem finish_link_frame (s : State) : (finish s).link.frame = s.link.frame := (finish_keeps s).frame
@[simp] theorem finish_link_lastSender (s : State) : (finish s).link.lastSender = s.link.lastSender := (finish_keeps s).lastSender
@[simp] theorem finish_link_health (s : State) : (finish s).link.health = s.link.health := (finish_keeps s).health
@[simp] theorem finish_link_spoil (s : State) : (finish s).link.spoil = s.link.spoil := (finish_keeps s).spoil
@[simp] theorem finish_link_listenFrom (s : State) : (finish s).link.listenFrom = s.link.listenFrom := (finish_keeps s).listenFrom
@[simp] theorem finish_link_began (s : State) : (finish s).link.began = s.link.began := (finish_keeps s).began

theorem finish_own {s : State} {o : OwnBid} (h : s.bid.own = some o) : (finish s).bid.own = some o := (finish_keeps s).own o h

theorem finish_record (s : State) (t : Tag) : (finish s).record t = s.record t := record_congr (finish_track_records s) t

/-- What stands in the outbox stands there after the end of a step (R85). -/
theorem mem_finish_outbox {s : State} {e : Entry} (h : e ∈ s.link.outbox) : e ∈ (finish s).link.outbox := by
  obtain ⟨l, more, _⟩ := (finish_keeps s).outbox
  rw [more]
  exact List.mem_append_left _ h

/-- A search makes a LOADED head BIDDING, and leaves every other position (R85, R107). -/
theorem queueBid_positions (t : Target) (w : Count) (s : State) (i : Fin 4) :
    (queueBid t w s).feed.positions.get i = s.feed.positions.get i
      ∨ (t = .head i ∧ (queueBid t w s).feed.positions.get i = { s.feed.positions.get i with state := .bidding }) := by
  have sent : (queueBid t w s).feed = (markBidding t (takeTag s)).feed := by
    unfold queueBid
    rw [enqueue_bid_frame _ _ _ .feed (by decide)]
    rfl
  rw [sent]
  cases t with
  | spacer r => exact .inl rfl
  | head j =>
    by_cases same : i = j
    · subst same
      exact .inr ⟨rfl, Quad.get_set_self _ _ _⟩
    · exact .inl (Quad.get_set_of_ne _ same _)

/-- The head that an eligible FEED station bids for is LOADED (R78). -/
theorem State.eligible_head {s : State} {i : Fin 4} (h : s.eligible = some (.head i)) :
    (s.feed.positions.get i).state = .loaded := by
  unfold State.eligible at h
  split at h
  · split at h
    · split at h
      · split at h
        · rename_i loaded
          cases h
          exact loaded.1
        · cases h
      · cases h
    · cases request : s.bid.request <;> simp [request] at h
    · cases h
  · cases h

/-- At the end of a step a position stands, or was LOADED and is BIDDING (R78, R107). -/
theorem finish_positions (s : State) (i : Fin 4) :
    (finish s).feed.positions.get i = s.feed.positions.get i
      ∨ ((s.feed.positions.get i).state = .loaded
          ∧ (finish s).feed.positions.get i = { s.feed.positions.get i with state := .bidding }) := by
  have planned : (handRequest (planStreams s)).feed = s.feed :=
    (handRequest_frame _ .feed (by decide)).trans (planStreams_frame s .feed (by decide))
  have settled : (finish s).feed = (reconsider (handRequest (planStreams s))).feed := rfl
  rw [settled, ← planned]
  generalize handRequest (planStreams s) = t
  unfold reconsider search
  split
  · rename_i target eligible
    split
    · split
      · rcases queueBid_positions target _ t i with stands | ⟨head, bidding⟩
        · exact .inl stands
        · subst head
          exact .inr ⟨State.eligible_head eligible, bidding⟩
      · exact .inl rfl
    · exact .inl rfl
  · exact .inl rfl

end Sys2Proof.Machine
end

section
/-! The obligations of the step, the precedence, the conflict relation, the window search, and the rows that write one block. -/
namespace Sys2Proof.Machine

/-- Settles O1. -/
theorem stepRunsFrontCommand : Obligations.StepRunsFrontCommand := fun _ _ _ => rfl

/-! ## Precedence and the 2 ms band (R87, R90) -/

theorem precedes_iff (x y : Rank) (m n : Nat) : precedes x m y n = true ↔ y.level < x.level ∨ (x = y ∧ m < n) := by
  have level : x.level = y.level ↔ x = y := by cases x <;> cases y <;> simp [Rank.level]
  simp [precedes, level]

/-- Of two bids with different owners exactly one comes first. -/
theorem precedes_total {x y : Rank} {m n : Nat} (owners : m ≠ n) :
    precedes x m y n = true ↔ precedes y n x m = false := by
  have level : x = y ↔ x.level = y.level := by cases x <;> cases y <;> simp [Rank.level]
  rw [← Bool.not_eq_true, precedes_iff, precedes_iff, eq_comm (a := y), level]
  omega

theorem precedes_asymm {x y : Rank} {m n : Nat} (h : precedes x m y n = true) : precedes y n x m = false := by
  rw [← Bool.not_eq_true, precedes_iff]
  rcases (precedes_iff x y m n).mp h with rank | ⟨rfl, owner⟩
  · rintro (other | ⟨rfl, -⟩)
    · omega
    · exact lt_irrefl _ rank
  · omega

/-- Settles O25. -/
theorem precedenceDecides : Obligations.PrecedenceDecides :=
  ⟨precedes_iff, by decide, fun _ _ _ _ => precedes_total⟩

/-- What a peer bid does to an own bid whose claim it conflicts with (R90). -/
theorem beatCode_of_conflict {s : State} {o : OwnBid} {y : Rival} {r : Record} (held : s.record y.tag = some r)
    (conflicting : conflict s.run (r.span s.line.highWater) o.span = true) :
    s.beatCode o y = if s.firstBeat o y then some 1 else if s.secondBeat o y then some 2 else none := by
  unfold State.beatCode
  rw [held]
  simp [conflicting]

/-- Settles O26: at the later bid's station only the second condition holds, at the earlier one's the first. -/
theorem bandMakesBothYield : Obligations.BandMakesBothYield := by
  intro sx sy x y rx ry heldY heldX conflictX conflictY settle late early after first
  rw [beatCode_of_conflict heldY conflictX, beatCode_of_conflict heldX conflictY]
  have timeX : sx.settleTime = sx.run.line.settle * 1000 := rfl
  have timeY : sy.settleTime = sy.run.line.settle * 1000 := rfl
  have band : sx.settleTime - Config.beatBand ≤ x.accepted - y.accepted := by
    have : Config.beatBand = 2000 := rfl
    omega
  have within : x.accepted < y.accepted + sy.settleTime := by omega
  simp [State.firstBeat, State.secondBeat, precedes_asymm first, first, after, band, within]

/-! ## Conflict and the window search (R29, R83, R84) -/

theorem share_comm (a b : Lanes) : share a b = share b a := by
  unfold share
  rw [BitVec.and_comm]

theorem conflict_comm (f : Figures) (x y : Span) : conflict f x y = conflict f y x := by
  unfold conflict
  rw [share_comm, Bool.and_assoc, Bool.and_comm (!x.behind f y), ← Bool.and_assoc]

/-- An object that stands far enough behind another does not conflict with it (R29). -/
theorem conflict_of_behind {f : Figures} {x y : Span} (h : x.behind f y = true) : conflict f x y = false := by
  simp [conflict, h]

/-- Settles O7. -/
theorem conflictIsSymmetric : Obligations.ConflictIsSymmetric := by
  refine fun f x y => ⟨by simp [conflict, Span.behind, atLeast, and_assoc], conflict_comm f x y, fun touch noGap => ?_⟩
  refine conflict_of_behind ?_
  simp [Span.behind, atLeast, signedDiff, plus, touch, noGap]

/-- A scan that moves nothing has met no conflict (R83). -/
theorem scanMove_none {f : Figures} {hw : Count} {p : Desc} {trial : Count} : ∀ {rs : List Record},
    scanMove f hw p trial rs = none →
    ∀ r ∈ rs, conflict f (r.span hw) { desc := p, tl := trial, tt := plus trial p.length } = false
  | [], _, _, mem => absurd mem List.not_mem_nil
  | x :: xs, h, r, mem => by
    unfold scanMove at h
    split at h
    · cases h
    · rename_i free
      rcases List.mem_cons.mp mem with rfl | later
      · exact Bool.eq_false_iff.mpr free
      · exact scanMove_none h r later

/-- A found window is free of conflict, and is the trial place or one that a move within the horizon reached. -/
theorem searchFrom_sound {f : Figures} {hw : Count} {p : Desc} {rs : List Record} {tl0 w : Count} : ∀ {fuel : Nat}
    {trial : Count}, searchFrom f hw p rs tl0 fuel trial = some w →
    (∀ r ∈ rs, conflict f (r.span hw) { desc := p, tl := w, tt := plus w p.length } = false)
      ∧ (w = trial ∨ signedDiff w tl0 ≤ f.horizon)
  | 0, _, h => by cases h
  | fuel + 1, trial, h => by
    unfold searchFrom at h
    split at h
    · rename_i free
      cases h
      exact ⟨scanMove_none free, .inl rfl⟩
    · split at h
      · cases h
      · rename_i near
        obtain ⟨free, place⟩ := searchFrom_sound h
        refine ⟨free, .inr ?_⟩
        rcases place with rfl | within
        · exact not_lt.mp near
        · exact within

/-- Settles O24. -/
theorem windowSearchFindsFreeSpan : Obligations.WindowSearchFindsFreeSpan := fun _ _ _ _ _ _ => searchFrom_sound

/-! ## Rows of one block -/

/-- Settles O4. -/
theorem speedUpdateRecomputes : Obligations.SpeedUpdateRecomputes := by
  intro s free
  refine ⟨updateSpeed s, ?_, rfl, rfl, rfl, rfl, rfl, advanceTo_now _ _, advanceTo_count _ _, advanceTo_highWater _ _,
    ?_, ?_, ?_, ?_⟩
  · show Host.Outcome.next (outsideReset updateSpeed s) = _
    unfold outsideReset
    simp [free]
  · show (advanceTo s.line.speedDue s).line.pair = _
    rw [advanceTo_line]
  · show (advanceTo s.line.speedDue s).line.slips = _
    rw [advanceTo_line]
  · show (advanceTo s.line.speedDue s).line.excursion = _
    rw [advanceTo_line]
  · exact (advanceTo_frame _ _).then (setLine_frame _ _) (by decide) (by decide)

/-- Settles O30. -/
theorem outfeedPulsesEnd : Obligations.OutfeedPulsesEnd := by
  have frame : ∀ (t : Nat) (s : State) (x : OutfeedDirector),
      SameBut [.now, .line, .outfeed] s ((advanceTo t s).setOutfeed x) := fun t s x =>
    (advanceTo_frame t s).then (setOutfeed_frame _ x) (by decide) (by decide)
  refine ⟨fun s x strobe empty => ?_, fun s x p rest strobe queued => ?_, fun s x divert => ?_, fun s i x pulse => ?_⟩
  · refine ⟨(advanceTo x s).setOutfeed { s.outfeed with strobe := none }, ?_, rfl, advanceTo_now x s, frame _ _ _⟩
    simp [exec, execStrobeEnd, strobe, nextStrobe, empty]
  · refine ⟨(advanceTo x s).setOutfeed { s.outfeed with foldCode := p, foldQueue := rest, strobe := some (x + 10000) },
      ?_, rfl, advanceTo_now x s, frame _ _ _⟩
    simp [exec, execStrobeEnd, strobe, nextStrobe, queued, Config.strobeTime, Config.ms]
  · refine ⟨(advanceTo x s).setOutfeed { s.outfeed with divert := none }, ?_, rfl, advanceTo_now x s, frame _ _ _⟩
    simp [exec, execDivertPulseEnd, divert]
  · refine ⟨(advanceTo x s).setOutfeed { s.outfeed with stackChange := s.outfeed.stackChange.set i none }, ?_,
      Quad.get_set_self _ _ _, fun j other => Quad.get_set_of_ne _ other _, rfl, rfl, rfl, rfl, advanceTo_now x s,
      frame _ _ _⟩
    simp [exec, execStackChangePulseEnd, pulse]

/-- Settles O13. -/
theorem fireOpensClamp : Obligations.FireOpensClamp := by
  intro s o own granted advance active feed held idle near
  refine ⟨fireBid o s, ?_, rfl, rfl, rfl, rfl, rfl, rfl, rfl, rfl, ?_⟩
  · have fires : s.fires o = true := by
      simp [State.fires, advance, active, feed, held, granted, idle, near, HoldSet.any, HoldSet.empty]
    simp [exec, execFire, own, fires]
  · have told : ∀ (u : State) (b : BidEngine) (e : Event), SameBut [.bid, .fifo] u (raise e (u.setBid b)) := fun u b e =>
      (setBid_frame u b).then (raise_frame e _) (by decide) (by decide)
    exact (setFeed_frame s _).then (told _ _ _) (by decide) (by decide)

/-- The ended sequence empties its position where that is FIRING, and leaves the others. -/
theorem emptied_get {f : FeedSequencer} {p : Option (Fin 4)} {i : Fin 4} :
    (p = some i → (f.positions.get i).state = .firing → (f.emptied p).positions.get i = Position.none) ∧
      (p ≠ some i → (f.emptied p).positions.get i = f.positions.get i) := by
  unfold FeedSequencer.emptied
  cases p with
  | none => simp
  | some j =>
    dsimp only
    by_cases firing : (f.positions.get j).state = .firing
    · rw [if_pos firing]
      exact ⟨fun here _ => by cases here; exact Quad.get_set_self _ _ _,
        fun other => Quad.get_set_of_ne _ (fun same => other (by rw [same])) _⟩
    · rw [if_neg firing]
      exact ⟨fun here fires => by cases here; exact absurd fires firing, fun _ => rfl⟩

/-- The end of a sequence leaves READY and the last-filled position. -/
theorem emptied_levels (f : FeedSequencer) (p : Option (Fin 4)) :
    (f.emptied p).ready = f.ready ∧ (f.emptied p).lastFilled = f.lastFilled := by
  unfold FeedSequencer.emptied
  split
  · split <;> exact ⟨rfl, rfl⟩
  · exact ⟨rfl, rfl⟩

/-- Settles O14. -/
theorem fireSequenceRuns : Obligations.FireSequenceRuns := by
  intro s q running
  have frame : ∀ f : FeedSequencer, SameBut [.now, .line, .feed] s ((advanceTo q.due s).setFeed f) := fun f =>
    (advanceTo_frame q.due s).then (setFeed_frame _ f) (by decide) (by decide)
  refine ⟨fun stage => ?_, fun stage => ?_, fun stage => ?_⟩
  · refine ⟨(advanceTo q.due s).setFeed { s.feed with
        grip := false, drop := true
        fire := some { q with stage := .dropping, due := q.due + q.pulse * Config.ms } },
      ?_, advanceTo_now _ _, rfl, frame _⟩
    simp only [exec, execFireDropOn, running, stage, if_true]
  · refine ⟨(advanceTo q.due s).setFeed { s.feed with
        drop := false
        fire := some { q with stage := .beforeGrip, due := q.due + q.dead * Config.ms } },
      ?_, advanceTo_now _ _, rfl, frame _⟩
    simp only [exec, execFireDropOff, running, stage, if_true]
  · let f : FeedSequencer := { s.feed.emptied q.position with grip := true, drop := false, fire := none }
    refine ⟨finish ((advanceTo q.due s).setFeed f), by simp only [exec, execFireGripOn, running, stage, if_true, f], ?_⟩
    have levels := emptied_levels s.feed q.position
    simp only [finish_now, finish_feed_grip, finish_feed_drop, finish_feed_fire, finish_feed_ready, finish_feed_lastFilled]
    refine ⟨advanceTo_now _ _, rfl, rfl, rfl, fun i here firing => ?_, levels.1, levels.2, fun i other => ?_, ?_⟩
    · have empty : f.positions.get i = Position.none := emptied_get.1 here firing
      rcases finish_positions ((advanceTo q.due s).setFeed f) i with stands | ⟨loaded, -⟩
      · exact stands.trans empty
      · rw [State.setFeed_feed, empty] at loaded
        cases loaded
    · have stands : f.positions.get i = s.feed.positions.get i := emptied_get.2 other
      have settled := finish_positions ((advanceTo q.due s).setFeed f) i
      rwa [State.setFeed_feed, stands] at settled
    · exact (frame f).then (finish_frame _) (by decide) (by decide)

end Sys2Proof.Machine
end

section
/-! The recall of a landing bid, and the own bid at the end of a step. -/
namespace Sys2Proof.Machine

/-! ## What the states of two moments share -/

theorem withoutOwn_congr {s t : State} (h : t.track.records = s.track.records) (u : Tag) : t.withoutOwn u = s.withoutOwn u := by
  unfold State.withoutOwn
  rw [record_congr h u]

theorem roomFirst_congr {s t : State} (h : t.link = s.link) : t.roomFirst ↔ s.roomFirst := by
  unfold State.roomFirst
  rw [h]

theorem withEvent_congr {s t : State} (fifo : t.fifo = s.fifo) (store : t.store = s.store) (e : Event) :
    t.withEvent e = s.withEvent e := by
  unfold State.withEvent
  rw [fifo, store]

theorem raise_fifo (e : Event) (s : State) : (raise e s).fifo = s.withEvent e := rfl

/-! ## The recall of a landing bid (R95) -/

/-- From `s` to `t` the SETTLING or GRANTED own bid `o` has been recalled with a code and a value (R95). -/
structure Recalled (s t : State) (o : OwnBid) (code : Nat) (a : Option Int) : Prop where
  own : t.bid.own = none
  rivals : t.bid.rivals = []
  passedOver : t.bid.passedOver = s.bid.passedOver
  record : t.record o.desc.tag = s.withoutOwn o.desc.tag
  position : (t.feed.positions.get o.serves).state ≠ .bidding
  outbox : s.roomFirst → Entry.fresh (.recall o.desc.tag) ∈ t.link.outbox
  fifo : s.roomFirst → (s.feed.positions.get o.serves).unloading = false → t.fifo = s.withEvent { o.recalled code with a := a }
  returned : (s.feed.positions.get o.serves).state = .bidding → (s.feed.positions.get o.serves).unloading = false →
    t.feed.returned = some (o.serves, s.now)
  ready : t.feed.ready = s.feed.ready
  lastFilled : t.feed.lastFilled = s.feed.lastFilled
  frame : SameBut listBlocks s t

theorem noteChange_passedOver (lanes : Lanes) (s : State) : (noteChange lanes s).bid.passedOver = s.bid.passedOver := by
  unfold noteChange
  dsimp only
  split <;> rfl

theorem forgetTag_passedOver (tag : Tag) (s : State) : (forgetTag tag s).bid.passedOver = s.bid.passedOver := rfl

theorem relieveTrack_passedOver (s : State) : (relieveTrack s).bid.passedOver = s.bid.passedOver := by
  unfold relieveTrack
  split <;> rfl

theorem dropRecord_passedOver (tag : Tag) (s : State) : (dropRecord tag s).bid.passedOver = s.bid.passedOver := by
  unfold dropRecord
  split
  · rfl
  · rw [noteChange_passedOver, losePlaced_bid, forgetTag_passedOver, relieveTrack_passedOver]
    rfl

theorem dropOwnRecord_passedOver (tag : Tag) (s : State) : (dropOwnRecord tag s).bid.passedOver = s.bid.passedOver := by
  unfold dropOwnRecord
  split
  · exact dropRecord_passedOver tag s
  · rfl

theorem releasePosition_levels (o : OwnBid) (s : State) :
    (releasePosition o s).feed.ready = s.feed.ready ∧ (releasePosition o s).feed.lastFilled = s.feed.lastFilled := by
  unfold releasePosition
  dsimp only
  split
  · split <;> exact ⟨rfl, rfl⟩
  · exact ⟨rfl, rfl⟩

theorem endOwn_levels (s : State) :
    (endOwn s).feed.ready = s.feed.ready ∧ (endOwn s).feed.lastFilled = s.feed.lastFilled := by
  unfold endOwn
  split
  · exact ⟨rfl, rfl⟩
  · exact releasePosition_levels _ _

theorem recallOwn_landing {s : State} {o : OwnBid} (own : s.bid.own = some o) (landing : o.state = .settling ∨ o.state = .granted)
    (code : Nat) (a : Option Int) :
    recallOwn code a s = raise (recalledEvent o code a) (endOwn (dropOwnRecord o.desc.tag (enqueue (.recall o.desc.tag) s))) := by
  unfold recallOwn
  rw [own]
  rcases landing with h | h <;> simp [h]

/-- A recall of a SETTLING or GRANTED bid, in full (R95). -/
theorem recallOwn_recalled {s : State} {o : OwnBid} (own : s.bid.own = some o)
    (landing : o.state = .settling ∨ o.state = .granted) (code : Nat) (a : Option Int) :
    Recalled s (recallOwn code a s) o code a := by
  have unfired : o.state ≠ .fired := by rcases landing with h | h <;> rw [h] <;> decide
  have sent : SameBut [.link, .fifo] s (enqueue (.recall o.desc.tag) s) :=
    enqueueFirst_unfired _ s (fun x hx => by rw [own] at hx; cases hx; exact unfired)
  obtain ⟨still, feed, store, records, room⟩ := recallLanding_spec s o own unfired
  have frame := recallOwn_frame code a s
  rw [recallOwn_landing own landing] at frame ⊢
  have gone : (dropOwnRecord o.desc.tag (enqueue (.recall o.desc.tag) s)).record o.desc.tag = s.withoutOwn o.desc.tag := by
    rw [dropOwnRecord_self]
    exact withoutOwn_congr (congrArg TrackList.records (sent .track (by decide))) _
  have passed : (dropOwnRecord o.desc.tag (enqueue (.recall o.desc.tag) s)).bid.passedOver = s.bid.passedOver := by
    rw [dropOwnRecord_passedOver, sent .bid (by decide)]
  have moment : (dropOwnRecord o.desc.tag (enqueue (.recall o.desc.tag) s)).now = s.now :=
    (dropOwnRecord_frame _ _ .now (by decide)).trans (sent .now (by decide))
  generalize dropOwnRecord o.desc.tag (enqueue (.recall o.desc.tag) s) = u at *
  have ended := endOwn_frame u
  have bid := endOwn_bid u o still
  refine ⟨endOwn_own u, ?_, ?_, ?_, endOwn_position u o still, fun free => ?_, fun free unmarked => ?_,
    fun bidding unmarked => ?_, ?_, ?_, frame⟩
  · exact congrArg BidEngine.rivals bid
  · exact (congrArg BidEngine.passedOver bid).trans passed
  · exact (record_congr (congrArg TrackList.records (ended .track (by decide))) _).trans gone
  · have : (endOwn u).link = u.link := ended .link (by decide)
    show _ ∈ (endOwn u).link.outbox
    rw [this, (room free).1]
    exact List.mem_append_right _ (List.mem_singleton.mpr rfl)
  · refine withEvent_congr ?_ ((ended .store (by decide)).trans store) _
    refine (endOwn_fifo u (fun x hx => ?_)).trans (room free).2
    rw [still] at hx
    cases hx
    rwa [feed]
  · rw [← moment]
    exact endOwn_returned u o still (by rwa [feed]) (by rwa [feed])
  · exact (endOwn_levels u).1.trans (congrArg FeedSequencer.ready feed)
  · exact (endOwn_levels u).2.trans (congrArg FeedSequencer.lastFilled feed)

theorem recallLanding_eq {s : State} {o : OwnBid} (own : s.bid.own = some o)
    (landing : o.state = .settling ∨ o.state = .granted) (code : Nat) : recallLanding code s = recallOwn code none s := by
  unfold recallLanding
  rw [own]
  exact if_pos landing

/-- A bid that is neither SETTLING nor GRANTED is not affected (R7, R96). -/
theorem recallLanding_of_not_landing {s : State} (h : ∀ o, s.bid.own = some o → o.state = .queued ∨ o.state = .fired)
    (code : Nat) : recallLanding code s = s := by
  unfold recallLanding
  split
  · rename_i o own
    refine if_neg ?_
    rcases h o own with h | h <;> simp [h]
  · rfl

/-! ## The own bid at the end of a step -/

theorem queueBid_own (t : Target) (w : Count) (s : State) : (queueBid t w s).bid.own = some (s.newBid t w) := by
  unfold queueBid
  rw [enqueue_bid_frame _ _ _ .bid (by decide)]
  rfl

/-- A search of a station without an own bid leaves none, or a fresh QUEUED one (R78, R85). -/
theorem reconsider_fresh {s : State} (h : s.bid.own = none) :
    (reconsider s).bid.own = none ∨ ∃ t w, (reconsider s).bid.own = some (s.newBid t w) := by
  unfold reconsider search
  split
  · split
    · split
      · exact .inr ⟨_, _, queueBid_own _ _ _⟩
      · exact .inl h
    · exact .inl h
  · exact .inl h

/-- The end of a step leaves a station without an own bid without one, or with a fresh QUEUED one (R78, R85). -/
theorem finish_fresh {s : State} (h : s.bid.own = none) :
    (finish s).bid.own = none ∨ ∃ o, (finish s).bid.own = some o ∧ o.state = .queued ∧ o.cancelling = false := by
  have handed : (handRequest (planStreams s)).bid.own = none := by
    rw [(handRequest_own _).1, planStreams_frame s .bid (by decide)]
    exact h
  rcases reconsider_fresh handed with none | ⟨t, w, fresh⟩
  · exact .inl none
  · exact .inr ⟨_, fresh, rfl, rfl⟩

/-- A bid that has ended and was not QUEUED is not the own bid again at the end of the step. -/
theorem finish_own_ne {s : State} {o : OwnBid} (h : s.bid.own = none) (state : o.state ≠ .queued) :
    (finish s).bid.own ≠ some o := by
  rcases finish_fresh h with none | ⟨n, fresh, queued, _⟩
  · rw [none]
    exact nofun
  · rw [fresh]
    rintro ⟨rfl⟩
    exact state queued

/-- A station whose plan and request leave it not eligible searches for nothing: the own bid, the feed sequencer, the track
list and the outbox stand at the end of the step (R78). -/
theorem finish_ineligible {s : State} (h : (handRequest (planStreams s)).eligible = none) :
    (finish s).bid.own = s.bid.own ∧ (finish s).bid.rivals = s.bid.rivals ∧ (finish s).bid.retry = none
      ∧ SameBut [.bid, .outfeed] s (finish s) := by
  have waits : reconsider (handRequest (planStreams s)) = (handRequest (planStreams s)).setBid
      { (handRequest (planStreams s)).bid with retry := none } := by
    unfold reconsider
    rw [h]
  have ends : finish s = clearMarks ((handRequest (planStreams s)).setBid
      { (handRequest (planStreams s)).bid with retry := none }) := by
    unfold finish
    rw [waits]
  have handed := handRequest_own (planStreams s)
  rw [planStreams_frame s .bid (by decide)] at handed
  rw [ends]
  refine ⟨handed.1, handed.2, rfl, SameBut.trans ?_ (clearMarks_frame _)⟩
  exact (((planStreams_frame s).widen (by decide)).trans (handRequest_frame _)).trans ((setBid_frame _ _).widen (by decide))

/-- A FEED station bids for its head alone, which no plan moves (R78). -/
theorem eligible_handRequest_feed {s : State} (role : s.role = .feed) :
    (handRequest (planStreams s)).eligible = s.eligible := by
  have p := planStreams_frame s
  have q := handRequest_frame (planStreams s)
  have kept := (planStreams_keeps s).trans (handRequest_keeps _)
  have own : (handRequest (planStreams s)).bid.own = s.bid.own := by
    rw [(handRequest_own _).1, p .bid (by decide)]
  have station : (handRequest (planStreams s)).station = s.station := (q .station (by decide)).trans (p .station (by decide))
  have feed : (handRequest (planStreams s)).feed = s.feed := (q .feed (by decide)).trans (p .feed (by decide))
  have run : (handRequest (planStreams s)).run = s.run := (q .run (by decide)).trans (p .run (by decide))
  have role' : (handRequest (planStreams s)).role = .feed := by
    unfold State.role at role ⊢
    rwa [run]
  unfold State.eligible
  rw [station, kept.hold, own, role, role', feed]

/-- A FEED station whose READY is low is not eligible (R78). -/
theorem eligible_not_ready {s : State} (role : s.role = .feed) (low : s.feed.ready = false) : s.eligible = none := by
  unfold State.eligible
  rw [role]
  dsimp only
  split
  · split
    · simp [low]
    · rfl
  · rfl

/-- Nothing to plan and nothing to hand on, as between steps (log 9). -/
theorem planned_quiet {s : State} (h : s.outfeed.quiet) : handRequest (planStreams s) = s := by
  have planned : planStreams s = s := by
    unfold planStreams
    rw [h.1]
    simp [four, hasLane]
  rw [planned]
  unfold handRequest
  split
  · rename_i queue
    rw [h.2] at queue
    cases queue
  · rfl

end Sys2Proof.Machine
end

section
/-! The obligations of the bid engine's timers and of READY. -/
namespace Sys2Proof.Machine

/-- Settles O20. -/
theorem readyFallRecallsLanding : Obligations.ReadyFallRecallsLanding := by
  refine ⟨fun s o role ready own landing => ?_, fun s others => ?_⟩
  · let low := s.setFeed { s.feed with ready := false }
    have recalled : Recalled low (recallLanding 8 low) o 8 none := by
      rw [recallLanding_eq (s := low) own landing]
      exact recallOwn_recalled (s := low) own landing 8 none
    have role' : (recallLanding 8 low).role = .feed := by
      unfold State.role
      rw [recalled.frame .run (by decide)]
      exact role
    have idle := finish_ineligible ((eligible_handRequest_feed role').trans (eligible_not_ready role' recalled.ready))
    obtain ⟨none, rivals, -, frame⟩ := idle
    refine ⟨finish (recallLanding 8 low), ?_, ?_, ?_, ?_, ?_, ?_, ?_, fun room => ?_, fun room unmarked => ?_, ?_⟩
    · simp [exec, execReadyFall, role, ready, low]
    · rw [finish_feed_ready]
      exact recalled.ready
    · exact none.trans recalled.own
    · exact rivals.trans recalled.rivals
    · rw [finish_bid_passedOver]
      exact recalled.passedOver
    · rw [finish_record]
      exact recalled.record
    · rw [frame .feed (by decide)]
      exact recalled.position
    · exact mem_finish_outbox (recalled.outbox room)
    · rw [finish_fifo]
      exact recalled.fifo room unmarked
    · refine ((setFeed_frame s _).widen (by decide)).trans (recalled.frame.trans ?_)
      exact frame.widen (by decide)
  · let low := s.setFeed { s.feed with ready := false }
    have kept : recallLanding 8 low = low := recallLanding_of_not_landing (s := low) others 8
    by_cases row : s.feed.ready = true ∧ s.role = .feed
    · have idle := finish_ineligible ((eligible_handRequest_feed (s := low) row.2).trans (eligible_not_ready row.2 rfl))
      obtain ⟨own, -, -, frame⟩ := idle
      refine ⟨finish low, ?_, own, frame .feed (by decide), finish_track_records low, finish_fifo low, fun _ => ?_,
        fun other => absurd row.2 other⟩
      · simp only [exec, execReadyFall, if_pos row]
        rw [show s.setFeed { s.feed with ready := false } = low from rfl, kept]
      · exact ((setFeed_frame s _).widen (by decide)).trans (frame.widen (by decide))
    · refine ⟨low, ?_, rfl, rfl, rfl, rfl, fun _ => (setFeed_frame s _).widen (by decide), fun _ => setFeed_frame s _⟩
      simp only [exec, execReadyFall, if_neg row]
      rfl

/-- A search whose window is found at a station where nothing is to be planned (R84). -/
theorem findWindow_later (due : Nat) (b : BidEngine) (s : State) (passed : b.passedOver = s.bid.passedOver)
    (deferral : b.deferral = s.bid.deferral) (t : Target) :
    ((advanceTo due s).setBid b).findWindow t = s.findWindow t ∧ ((advanceTo due s).setBid b).targetDesc t = s.targetDesc t := by
  have rank : ((advanceTo due s).setBid b).feedRank = s.feedRank := by
    simp [State.feedRank, passed, deferral]
  have tag : ((advanceTo due s).setBid b).nextTag = s.nextTag := by
    simp [State.nextTag, State.ownerByte, State.number]
  have piece : ∀ p, ((advanceTo due s).setBid b).pieceDesc p s.nextTag s.feedRank = s.pieceDesc p s.nextTag s.feedRank := by
    intro p
    unfold State.pieceDesc State.ownArticle
    rw [State.setBid_store, advanceTo_store, State.setBid_run, advanceTo_run]
  have spacer : ∀ r, ((advanceTo due s).setBid b).spacerDesc r s.nextTag = s.spacerDesc r s.nextTag :=
    fun r => by simp [State.spacerDesc]
  have record : ((advanceTo due s).setBid b).record = s.record := by
    funext u
    simp [State.record]
  cases t with
  | head i => simp [State.findWindow, State.targetDesc, State.feedTl0, rank, tag, piece]
  | spacer r =>
    have tl0 : ((advanceTo due s).setBid b).spacerTl0 r = s.spacerTl0 r := by
      simp [State.spacerTl0, record]
    simp [State.findWindow, State.targetDesc, tl0, tag, spacer]

/-- Settles O21. -/
theorem retryTimerSearchesAgain : Obligations.RetryTimerSearchesAgain := by
  intro s due target waits eligible quiet
  let u := (advanceTo due s).setBid { s.bid with retry := none }
  obtain ⟨window, desc⟩ := findWindow_later due { s.bid with retry := none } s rfl rfl target
  have row : exec .retryTimerExpiry s = .next (finish u) := by
    simp [exec, execRetryTimerExpiry, waits, u]
  have eligible' : u.eligible = some target := by
    rw [← eligible]
    simp [State.eligible, State.role, u]
  have quiet' : u.outfeed.quiet := by
    simpa [u] using quiet
  have searched : finish u = clearMarks (search target u) := by
    unfold finish reconsider
    rw [planned_quiet quiet', eligible']
    simp [u]
  have frame : SameBut [.now, .line, .bid] s u := (advanceTo_frame due s).then (setBid_frame _ _) (by decide) (by decide)
  refine ⟨fun full => ?_, fun w found => ?_⟩
  · have waiting : search target u = u.setBid { u.bid with retry := some (u.now + Config.retryTime) } := by
      unfold search
      rw [show u.findWindow target = none from window.trans full]
    have time : u.now = max s.now due := advanceTo_now due s
    refine ⟨finish u, row, ?_, by rw [finish_now, time], ?_⟩
    · rw [searched, waiting, time]
      rfl
    · rw [searched, waiting]
      exact (frame.then (setBid_frame _ _) (n := [.now, .line, .bid, .outfeed]) (by decide) (by decide)).trans
        ((clearMarks_frame _).widen (by decide))
  · have queued : search target u = queueBid target w u := by
      unfold search
      rw [show u.findWindow target = some w from window.trans found]
    refine ⟨finish u, u.newBid target w, row, ?_, rfl, rfl, desc, ?_⟩
    · rw [searched, queued]
      exact queueBid_own target w u
    · rw [searched, queued]
      show (queueBid target w u).bid.retry = none
      unfold queueBid
      rw [enqueue_bid_frame _ _ _ .bid (by decide)]
      rfl

/-- Settles O22. -/
theorem settleExpiryGrantsOrRecalls : Obligations.SettleExpiryGrantsOrRecalls := by
  intro s o own settling piece
  let u := advanceTo (o.accepted + s.settleTime) s
  have own' : u.bid.own = some o := by simp [u, own]
  have row : exec .settleTimerExpiry s = .next (finish (grant o u)) := by
    simp [exec, execSettleTimerExpiry, own, settling, u]
  have close : u.tooClose o = decide (signedDiff o.landing s.line.count < s.line.lead) := by
    simp [State.tooClose, u]
  have time : u.now = max s.now (o.accepted + s.run.line.settle * 1000) := advanceTo_now _ s
  have moved : SameBut [.now, .line] s u := advanceTo_frame _ s
  refine ⟨fun far => ?_, fun near => ?_⟩
  · have granted : grant o u = u.setBid { u.bid with own := some { o with state := .granted } } := by
      unfold grant
      rw [if_neg piece, close]
      simp [not_lt.mpr far]
    obtain ⟨stands, -, -, frame⟩ := finish_idle (u.setBid { u.bid with own := some { o with state := .granted } })
      (by simp)
    refine ⟨finish (grant o u), row, ?_, ?_, ?_, ?_, ?_⟩
    · rw [granted, stands]
      rfl
    · rw [granted, finish_now]
      exact time
    · rw [granted, finish_bid_hold]
      simp [u]
    · rw [granted, finish_bid_passedOver]
      simp [u]
    · rw [granted]
      exact (moved.then (setBid_frame u _) (n := [.now, .line, .bid, .outfeed]) (by decide) (by decide)).trans
        (frame.widen (by decide))
  · have late : grant o u = recallOwn 6 none u := by
      unfold grant
      rw [if_neg piece, close]
      simp [near]
    have recalled : Recalled u (recallOwn 6 none u) o 6 none := recallOwn_recalled own' (.inl settling) 6 none
    have records : u.track.records = s.track.records := congrArg TrackList.records (moved .track (by decide))
    have feed : u.feed = s.feed := moved .feed (by decide)
    rw [← late] at recalled
    refine ⟨finish (grant o u), row, finish_own_ne recalled.own (by rw [settling]; decide), ?_, ?_, fun room unmarked => ?_,
      fun bidding unmarked => ?_, ?_⟩
    · rw [finish_record, recalled.record]
      exact withoutOwn_congr records _
    · rw [finish_bid_passedOver, recalled.passedOver, moved .bid (by decide)]
    · rw [finish_fifo, recalled.fifo ((roomFirst_congr (moved .link (by decide))).mpr room) (by rwa [feed])]
      exact withEvent_congr (moved .fifo (by decide)) (moved .store (by decide)) _
    · rw [finish_feed_returned, recalled.returned (by rwa [feed]) (by rwa [feed]), finish_now,
        recalled.frame .now (by decide)]
    · exact (moved.then recalled.frame (n := [.now, .line] ++ listBlocks) (by decide) (by decide)).trans
        ((finish_frame _).widen (by decide))

end Sys2Proof.Machine
end

section
/-! What the shared operations never touch, block by block inside the blocks they write: the figures of the link controller,
every hold cause but TRACK_FULL, the counts of the bid engine, the outputs. One lemma per operation. -/
namespace Sys2Proof.Machine

/-- No entry of an outbox is SENDING. -/
def outboxStill (l : List Entry) : Prop := ∀ e ∈ l, e.sending = false

theorem sending_none_iff (s : State) : s.sending = none ↔ outboxStill s.link.outbox := by
  unfold State.sending outboxStill
  simp

theorem outboxStill.append {l m : List Entry} (h : outboxStill l) (k : outboxStill m) : outboxStill (l ++ m) := fun e mem =>
  (List.mem_append.mp mem).elim (h e) (k e)

theorem outboxStill_fresh (m : Msg) : outboxStill [Entry.fresh m] := fun e mem => by
  cases List.mem_singleton.mp mem
  rfl

theorem outboxStill.sublist {l m : List Entry} (h : outboxStill l) (sub : m.Sublist l) : outboxStill m :=
  fun e mem => h e (sub.subset mem)

theorem outboxStill_freshBids {l : List Entry} (h : freshBids l) : outboxStill l := fun e mem => by
  obtain ⟨d, tl, rfl⟩ := h e mem
  rfl

/-- From `s` to `t` the outbox, the own bid, the records, the positions and the streams may have changed; the figures of the
link controller, the hold set but for TRACK_FULL, the sets and counts of the bid engine, and the outputs have not; and no entry has
begun to be SENDING. -/
structure Steady (s t : State) : Prop where
  link : t.link = { s.link with outbox := t.link.outbox, waitingBid := t.link.waitingBid }
  hold : t.bid.hold = { s.bid.hold with trackFull := t.bid.hold.trackFull }
  jamming : t.bid.jamming = s.bid.jamming
  deferral : t.bid.deferral = s.bid.deferral
  passedOver : t.bid.passedOver = s.bid.passedOver
  ready : t.feed.ready = s.feed.ready
  grip : t.feed.grip = s.feed.grip
  drop : t.feed.drop = s.feed.drop
  fire : t.feed.fire = s.feed.fire
  lastFilled : t.feed.lastFilled = s.feed.lastFilled
  strobe : t.outfeed.strobe = s.outfeed.strobe
  divert : t.outfeed.divert = s.outfeed.divert
  stackChange : t.outfeed.stackChange = s.outfeed.stackChange
  foldCode : t.outfeed.foldCode = s.outfeed.foldCode
  foldQueue : t.outfeed.foldQueue = s.outfeed.foldQueue
  free : t.track.free = s.track.free
  still : outboxStill s.link.outbox → outboxStill t.link.outbox

theorem Steady.refl (s : State) : Steady s s := by
  exact ⟨rfl, rfl, rfl, rfl, rfl, rfl, rfl, rfl, rfl, rfl, rfl, rfl, rfl, rfl, rfl, rfl, id⟩

theorem Steady.trans {s t u : State} (h : Steady s t) (k : Steady t u) : Steady s u where
  link := by
    rw [k.link, h.link]
  hold := by
    rw [k.hold, h.hold]
  jamming := k.jamming.trans h.jamming
  deferral := k.deferral.trans h.deferral
  passedOver := k.passedOver.trans h.passedOver
  ready := k.ready.trans h.ready
  grip := k.grip.trans h.grip
  drop := k.drop.trans h.drop
  fire := k.fire.trans h.fire
  lastFilled := k.lastFilled.trans h.lastFilled
  strobe := k.strobe.trans h.strobe
  divert := k.divert.trans h.divert
  stackChange := k.stackChange.trans h.stackChange
  foldCode := k.foldCode.trans h.foldCode
  foldQueue := k.foldQueue.trans h.foldQueue
  free := k.free.trans h.free
  still := k.still ∘ h.still

theorem Steady.ite {s t u : State} {p : Prop} [Decidable p] (h : Steady s t) (k : Steady s u) :
    Steady s (if p then t else u) := by
  split
  · exact h
  · exact k

theorem Steady.foldl {α : Type} (f : State → α → State) (h : ∀ s a, Steady s (f s a)) :
    ∀ (as : List α) (s : State), Steady s (as.foldl f s)
  | [], s => .refl s
  | a :: as, s => (h s a).trans (Steady.foldl f h as (f s a))

/-- The blocks that hold nothing of this. -/
abbrev looseBlocks : List Block :=
  [.station, .leaving, .now, .store, .run, .line, .eye, .width, .throat, .peers, .port, .fifo, .pending]

theorem Steady.of_frame {l : List Block} {s t : State} (h : SameBut l s t) (hl : ∀ b ∈ l, b ∈ looseBlocks) :
    Steady s t := by
  have h := h.widen hl
  have track : t.track = s.track := h .track (by decide)
  have bid : t.bid = s.bid := h .bid (by decide)
  have feed : t.feed = s.feed := h .feed (by decide)
  have outfeed : t.outfeed = s.outfeed := h .outfeed (by decide)
  have link : t.link = s.link := h .link (by decide)
  constructor <;> simp only [track, bid, feed, outfeed, link, imp_self]

/-- The own bid, the rivals, the request, the wait and the mark of a change, and TRACK_FULL, are free to change. -/
theorem setBid_steady (s : State) (b : BidEngine) (hold : b.hold = { s.bid.hold with trackFull := b.hold.trackFull })
    (jamming : b.jamming = s.bid.jamming) (deferral : b.deferral = s.bid.deferral)
    (passedOver : b.passedOver = s.bid.passedOver) : Steady s (s.setBid b) :=
  { Steady.refl s with hold := hold, jamming := jamming, deferral := deferral, passedOver := passedOver }

theorem setOutbox_steady (s : State) {l : List Entry} (still : outboxStill s.link.outbox → outboxStill l) :
    Steady s (s.setOutbox l) := { Steady.refl s with link := rfl, still := still }

/-- A message that takes an entry, beside what is left of the others. -/
theorem queueFresh_steady (s : State) (m : Msg) {l : List Entry} (sub : l.Sublist s.link.outbox) :
    Steady s (s.setOutbox (l ++ [.fresh m])) :=
  setOutbox_steady s (fun h => (h.sublist sub).append (outboxStill_fresh m))

theorem setRecords_steady (s : State) (l : List Record) : Steady s (s.setRecords l) := { Steady.refl s with }

theorem setPosition_steady (s : State) (i : Fin 4) (p : Position) : Steady s (s.setPosition i p) := { Steady.refl s with }

theorem setStream_steady (s : State) (i : Fin 4) (x : Stream) : Steady s (s.setStream i x) := { Steady.refl s with }

theorem planAgain_steady (i : Fin 4) (s : State) : Steady s (planAgain i s) := { Steady.refl s with }

theorem raise_steady (e : Event) (s : State) : Steady s (raise e s) := { Steady.refl s with }

theorem unloadPosition_steady (i : Fin 4) (tag : Option Tag) (s : State) : Steady s (unloadPosition i tag s) :=
  { Steady.refl s with }

theorem returnPosition_steady (i : Fin 4) (s : State) : Steady s (returnPosition i s) := { Steady.refl s with }

theorem releasePosition_steady (o : OwnBid) (s : State) : Steady s (releasePosition o s) :=
  .ite (.ite (unloadPosition_steady _ _ _) (returnPosition_steady _ _)) (.refl s)

theorem endOwn_steady (s : State) : Steady s (endOwn s) := by
  unfold endOwn
  split
  · exact .refl s
  · exact (setBid_steady s { s.bid with own := none, rivals := [] } rfl rfl rfl rfl).trans (releasePosition_steady _ _)

theorem handDropped_steady (m : Msg) (s : State) : Steady s (handDropped m s) := by
  unfold handDropped
  split
  · exact .ite ((endOwn_steady s).trans (raise_steady _ _)) (.refl s)
  · exact .refl s

theorem enqueueFirst_steady (m : Msg) (s : State) : Steady s (enqueueFirst m s) := by
  unfold enqueueFirst
  dsimp only
  refine .ite (queueFresh_steady _ _ (.refl _)) (.ite (queueFresh_steady _ _ (dropYoungest_sublist _ _)) ?_)
  split
  · exact ((queueFresh_steady _ _ (dropYoungest_sublist _ _)).trans (raise_steady _ _)).trans (handDropped_steady _ _)
  · exact raise_steady _ _

theorem enqueue_steady (m : Msg) (s : State) : Steady s (enqueue m s) := by
  have dropped : Steady s (handDropped m (raise (dropEvent m 3 (some 0)) s)) :=
    (raise_steady _ s).trans (handDropped_steady _ _)
  unfold enqueue
  split
  · exact .ite (queueFresh_steady _ _ (.refl _)) { Steady.refl s with link := rfl }
  · exact .ite (queueFresh_steady _ _ (.refl _)) dropped
  · exact .ite (queueFresh_steady _ _ (.refl _)) dropped
  · exact .ite (queueFresh_steady _ _ (.refl _)) dropped
  · exact .ite (queueFresh_steady _ _ (.refl _)) (.refl s)
  · exact enqueueFirst_steady m s

theorem noteChange_steady (lanes : Lanes) (s : State) : Steady s (noteChange lanes s) := by
  have h := setBid_steady s { s.bid with changed := true } rfl rfl rfl rfl
  unfold noteChange
  dsimp only
  split
  · exact h.trans (planAgain_steady _ _)
  · exact h

theorem relieveTrack_steady (s : State) : Steady s (relieveTrack s) := .ite (setBid_steady _ _ rfl rfl rfl rfl) (.refl s)

theorem discardSighting_steady (tag : Tag) (s : State) : Steady s (discardSighting tag s) := { Steady.refl s with }

theorem dropRival_steady (tag : Tag) (s : State) : Steady s (dropRival tag s) := setBid_steady _ _ rfl rfl rfl rfl

theorem forgetTag_steady (tag : Tag) (s : State) : Steady s (forgetTag tag s) :=
  ((discardSighting_steady tag s).trans (.of_frame (widthForget_frame tag _) (by decide))).trans (dropRival_steady tag _)

theorem losePlaced_steady (tag : Tag) (s : State) : Steady s (losePlaced tag s) :=
  .foldl _ (fun t _ => .ite ((setStream_steady _ _ _).trans (planAgain_steady _ _)) (.refl t)) _ s

theorem dropRecord_steady (tag : Tag) (s : State) : Steady s (dropRecord tag s) := by
  unfold dropRecord
  split
  · exact .refl s
  · exact ((((setRecords_steady s _).trans (relieveTrack_steady _)).trans (forgetTag_steady tag _)).trans
      (losePlaced_steady tag _)).trans (noteChange_steady _ _)

theorem dropOwnRecord_steady (tag : Tag) (s : State) : Steady s (dropOwnRecord tag s) :=
  .ite (dropRecord_steady tag s) (.refl s)

theorem cancelBid_steady (s : State) : Steady s (cancelBid s) :=
  { Steady.refl s with link := rfl, still := fun h => h.sublist List.filter_sublist }

theorem outboxStill.marked (s : State) (h : outboxStill s.link.outbox) : outboxStill (s.link.outbox.map (fun e =>
    if e.msg.kind = .bid then { e with cancelling := true } else e)) := fun e mem => by
  obtain ⟨x, there, rfl⟩ := List.mem_map.mp mem
  split
  · exact h x there
  · exact h x there

theorem markCancelling_steady (o : OwnBid) (s : State) : Steady s (markCancelling o s) :=
  (setOutbox_steady s (outboxStill.marked s)).trans
    (setBid_steady _ { s.bid with own := some { o with cancelling := true } } rfl rfl rfl rfl)

theorem recallOwn_steady (code : Nat) (a : Option Int) (s : State) : Steady s (recallOwn code a s) := by
  have landing : ∀ o : OwnBid, Steady s
      (raise (recalledEvent o code a) (endOwn (dropOwnRecord o.desc.tag (enqueue (.recall o.desc.tag) s)))) := fun o =>
    (((enqueue_steady _ s).trans (dropOwnRecord_steady _ _)).trans (endOwn_steady _)).trans (raise_steady _ _)
  unfold recallOwn
  split
  · exact .refl s
  · split
    · exact .ite (.refl s) (.ite ((raise_steady _ s).trans (markCancelling_steady _ _))
        (((raise_steady _ s).trans (cancelBid_steady _)).trans (endOwn_steady _)))
    · exact landing _
    · exact landing _
    · exact .refl s

/-- A cause that joins changes nothing but the hold set of all this. -/
theorem holdJoin_steady (c : HoldCause) (s : State) :
    Steady (if s.bid.hold.has c then s else putHold c true s) (holdJoin c s) := by
  unfold holdJoin
  split
  · exact .refl s
  · exact recallOwn_steady _ _ _

theorem dropRequest_steady (i : Fin 4) (s : State) : Steady s (dropRequest i s) := { Steady.refl s with }

theorem endRequest_steady (i : Fin 4) (s : State) : Steady s (endRequest i s) := by
  have h := setBid_steady s { s.bid with request := none, retry := none } rfl rfl rfl rfl
  exact .ite (h.trans (recallOwn_steady _ _ _)) h

theorem withdrawSpacer_steady (i : Fin 4) (s : State) : Steady s (withdrawSpacer i s) :=
  .ite ((dropRequest_steady i s).trans (endRequest_steady i _)) (dropRequest_steady i s)

theorem endPieceGone_steady (tag : Tag) (s : State) : Steady s (endPieceGone tag s) :=
  .foldl _ (fun t i => .ite (withdrawSpacer_steady i t) (.refl t)) _ s

theorem removeRecord_steady (tag : Tag) (s : State) : Steady s (removeRecord tag s) :=
  (dropRecord_steady tag s).trans (endPieceGone_steady tag _)

theorem unconfirm_steady (tag : Tag) (code : Nat) (s : State) : Steady s (unconfirm tag code s) :=
  .ite ((endOwn_steady s).trans (raise_steady _ _)) (.refl s)

theorem recheck_steady (tag : Tag) (s : State) : Steady s (recheck tag s) := by
  unfold recheck
  split
  · exact .ite (recallOwn_steady _ _ _) (.refl s)
  · exact .refl s

theorem changeRecord_steady (old r : Record) (s : State) : Steady s (changeRecord old r s) := by
  have h := setRecords_steady s (replaceRecord r s.track.records)
  have k := Steady.ite (p := old.altered s.line.highWater r = true) (h.trans (noteChange_steady r.desc.lanes _)) h
  exact .ite (k.trans (recheck_steady _ _)) k

theorem insertNew_steady (r : Record) (s : State) : Steady s (insertNew r s) :=
  ((setRecords_steady s _).trans (noteChange_steady _ _)).trans (recheck_steady _ _)

theorem putRecord_steady (r : Record) (s : State) : Steady s (putRecord r s) :=
  ((setRecords_steady s _).trans (noteChange_steady _ _)).trans (recheck_steady _ _)

theorem replaceWhole_steady (old r : Record) (s : State) : Steady s (replaceWhole old r s) :=
  (((noteChange_steady _ s).trans (forgetTag_steady _ _)).trans (endPieceGone_steady _ _)).trans (putRecord_steady _ _)

theorem putTrackFull_steady (s : State) : Steady s (putHold .trackFull true s) := setBid_steady _ _ rfl rfl rfl rfl

theorem overflow_steady (d : Desc) (source : Nat) (s : State) : Steady s (overflow d source s) := by
  refine .ite (.refl s) ((raise_steady (trackFullEvent d source) s).trans ?_)
  exact Steady.trans (.ite (.refl _) (putTrackFull_steady _)) (holdJoin_steady .trackFull _)

theorem fileRecord_steady (r : Record) (source : Nat) (s : State) : Steady s (fileRecord r source s) := by
  unfold fileRecord
  split
  · exact replaceWhole_steady _ r s
  · exact .ite (insertNew_steady r s) (overflow_steady _ _ s)

/-- The end of a step too leaves all of it. -/
theorem finish_steady (s : State) : Steady s (finish s) := by
  have k := finish_keeps s
  refine ⟨?_, ?_, k.jamming, k.deferral, k.passedOver, k.ready, k.grip, k.drop, k.fire, k.lastFilled, k.strobe, k.divert,
    k.stackChange, k.foldCode, k.foldQueue, k.free, fun h => ?_⟩
  · cases h : (finish s).link
    cases h' : s.link
    have := k.quiet; have := k.frame; have := k.lastSender; have := k.health; have := k.spoil; have := k.listenFrom
    have := k.began
    simp_all
  · rw [k.hold]
  · obtain ⟨l, outbox, fresh⟩ := k.outbox
    rw [outbox]
    exact h.append (outboxStill_freshBids fresh)

end Sys2Proof.Machine
end

section
/-! The plans of the stack streams, and the spacers (R139 to R141). -/
namespace Sys2Proof.Machine

/-! ## What a plan depends on -/

theorem streamOf_congr {o p : OutfeedDirector} (h : ∀ k, (o.streams.get k).lanes = (p.streams.get k).lanes) :
    o.streamOf = p.streamOf := by
  funext lanes
  unfold OutfeedDirector.streamOf
  simp only [h]

/-- Two states with the same records, store and stream lanes plan a stream alike that stands alike in both (R139). -/
theorem plan_congr {s t : State} {i : Fin 4} (store : t.store = s.store) (records : t.track.records = s.track.records)
    (lanes : ∀ k, (t.outfeed.streams.get k).lanes = (s.outfeed.streams.get k).lanes)
    (current : (t.outfeed.streams.get i).current = (s.outfeed.streams.get i).current)
    (spacer : (t.outfeed.streams.get i).spacer = (s.outfeed.streams.get i).spacer)
    (passed : (t.outfeed.streams.get i).passed = (s.outfeed.streams.get i).passed) : t.plan i = s.plan i := by
  have ahead : t.ahead i = s.ahead i := by
    unfold State.ahead
    rw [records, streamOf_congr lanes]
  unfold State.plan
  simp only [current, lanes, spacer, passed, store, ahead]

/-- A stream as its plan leaves it (R139). -/
def State.plannedStream (s : State) (i : Fin 4) : Stream :=
  match s.plan i with
  | some e => { s.outfeed.streams.get i with spacer := .requested e }
  | none => s.outfeed.streams.get i

theorem planStream_stream (i j : Fin 4) (s : State) :
    (planStream i s).outfeed.streams.get j = if j = i then s.plannedStream i else s.outfeed.streams.get j := by
  unfold planStream State.plannedStream
  by_cases same : j = i
  · subst same
    split <;> simp [State.setStream, *]
  · split <;> simp [State.setStream, Quad.get_set_of_ne _ same, same]

theorem plannedStream_lanes (s : State) (i : Fin 4) : (s.plannedStream i).lanes = (s.outfeed.streams.get i).lanes := by
  unfold State.plannedStream
  split <;> rfl

theorem planStream_lanes (i k : Fin 4) (s : State) :
    ((planStream i s).outfeed.streams.get k).lanes = (s.outfeed.streams.get k).lanes := by
  rw [planStream_stream]
  split
  · rename_i same
    rw [same, plannedStream_lanes]
  · rfl

/-- The plan of one stream leaves the plans of the others as they were. -/
theorem planStream_plan {i j : Fin 4} (other : j ≠ i) (s : State) : (planStream i s).plan j = s.plan j := by
  have stream : (planStream i s).outfeed.streams.get j = s.outfeed.streams.get j := by
    rw [planStream_stream, if_neg other]
  exact plan_congr (planStream_frame i s .store (by decide)) (by rw [planStream_frame i s .track (by decide)])
    (fun k => planStream_lanes i k s) (by rw [stream]) (by rw [stream]) (by rw [stream])

theorem planStream_planned {i j : Fin 4} (other : j ≠ i) (s : State) : (planStream i s).plannedStream j = s.plannedStream j := by
  unfold State.plannedStream
  rw [planStream_plan other, planStream_stream, if_neg other]

/-- The streams of a list planned one after the other, each once. -/
theorem planList_stream (due : BitVec 4) (j : Fin 4) : ∀ (l : List (Fin 4)) (s : State), l.Nodup →
    (l.foldl (fun t i => if hasLane due i then planStream i t else t) s).outfeed.streams.get j =
      if j ∈ l ∧ hasLane due j = true then s.plannedStream j else s.outfeed.streams.get j
  | [], s, _ => by simp
  | i :: l, s, nodup => by
    obtain ⟨notMem, nodup⟩ := List.nodup_cons.mp nodup
    rw [List.foldl_cons, planList_stream due j l _ nodup]
    by_cases same : j = i
    · subst same
      by_cases planned : hasLane due j = true <;> simp [notMem, planned, planStream_stream]
    · by_cases planned : hasLane due i = true <;>
        simp [same, planned, planStream_stream, planStream_planned same]

/-- A stream after the plans of a step: planned afresh where an arrival reached it (R139). -/
theorem finish_stream (s : State) (j : Fin 4) (running : s.station ≠ .setup) :
    (finish s).outfeed.streams.get j =
      if hasLane s.outfeed.planDue j = true then s.plannedStream j else s.outfeed.streams.get j := by
  have settled : (finish s).outfeed.streams = (planStreams s).outfeed.streams := by
    have handed : (handRequest (planStreams s)).outfeed.streams = (planStreams s).outfeed.streams := by
      unfold handRequest
      split <;> rfl
    exact (congrArg OutfeedDirector.streams (reconsider_frame _ .outfeed (by decide))).trans handed
  rw [settled]
  unfold planStreams
  rw [if_neg running, planList_stream _ _ _ _ (by decide)]
  have mem : j ∈ four := by
    revert j
    decide
  simp [mem]

/-- A stream that has a spacer plans none. -/
theorem plannedStream_of_spacer {s : State} {i : Fin 4} (h : (s.outfeed.streams.get i).spacer ≠ .none) :
    s.plannedStream i = s.outfeed.streams.get i := by
  have none : s.plan i = none := by
    unfold State.plan
    dsimp only
    split
    · rfl
    · rw [if_pos (.inr h)]
  unfold State.plannedStream
  rw [none]

/-- In SETUP no stream plans. -/
theorem finish_stream_of_spacer {s : State} {i : Fin 4} (h : (s.outfeed.streams.get i).spacer ≠ .none) :
    (finish s).outfeed.streams.get i = s.outfeed.streams.get i := by
  by_cases setup : s.station = .setup
  · have settled : (finish s).outfeed.streams = s.outfeed.streams := by
      have handed : (handRequest (planStreams s)).outfeed.streams = (planStreams s).outfeed.streams := by
        unfold handRequest
        split <;> rfl
      refine (congrArg OutfeedDirector.streams (reconsider_frame _ .outfeed (by decide))).trans (handed.trans ?_)
      unfold planStreams
      rw [if_pos setup]
    rw [settled]
  · rw [finish_stream s i setup, plannedStream_of_spacer h]
    exact ite_self _

/-- A granted spacer's stream is PLACED and the other streams stand (R101). -/
theorem placeSpacer_stream (o : OwnBid) (s : State) : (placeSpacer o s).outfeed.streams.get o.serves =
    { s.outfeed.streams.get o.serves with spacer := .placed o.desc.tag } := by
  unfold placeSpacer
  rw [endOwn_frame _ .outfeed (by decide)]
  exact Quad.get_set_self _ _ _

theorem placeSpacer_frame (o : OwnBid) (s : State) : SameBut [.bid, .feed, .outfeed, .fifo] s (placeSpacer o s) :=
  ((setStream_frame s o.serves _).then (setBid_frame _ _) (n := [.bid, .outfeed]) (by decide) (by decide)).then
    (endOwn_frame _) (by decide) (by decide)

/-- Settles O23. -/
theorem settleExpiryPlacesSpacer : Obligations.SettleExpiryPlacesSpacer := by
  intro s o own settling spacer
  let u := advanceTo (o.accepted + s.settleTime) s
  have row : exec .settleTimerExpiry s = .next (finish (placeSpacer o u)) := by
    simp [exec, execSettleTimerExpiry, own, settling, grant, spacer, u]
  have moved : SameBut [.now, .line] s u := advanceTo_frame _ s
  have frame := moved.then (placeSpacer_frame o u) (n := [.now, .line, .bid, .feed, .outfeed, .fifo]) (by decide) (by decide)
  have placed := placeSpacer_stream o u
  rw [moved .outfeed (by decide)] at placed
  refine ⟨finish (placeSpacer o u), row, ?_, finish_own_ne (endOwn_own _) (by rw [settling]; decide), ?_, ?_⟩
  · rw [finish_stream_of_spacer (by rw [placed]; exact nofun), placed]
  · rw [finish_track_records, frame .track (by decide)]
  · exact frame.then (finish_frame _) (by decide) (by decide)

/-! ## SPACER_PASSAGE (R141) -/

/-- The passage of a PLACED spacer that stands beyond the eye, at an advance whose edges are taken (R141). -/
theorem passage_eq {s : State} {i : Fin 4} {tag : Tag} {r : Record} (acting : s.acting = true) (taken : s.edgesTaken = true)
    (role : s.role = .outfeed) (placed : (s.outfeed.streams.get i).spacer = .placed tag) (held : s.record tag = some r)
    (beyond : 0 < signedDiff s.line.highWater (plus r.tl (-s.run.eye))) : s.passage i = some tag := by
  unfold State.passage
  rw [placed]
  simp [held, acting, taken, role, later, State.arrival, beyond]

/-- With an edge still to take no spacer passes (R141). -/
theorem passage_waits {s : State} (i : Fin 4) (waits : s.edgesTaken = false) : s.passage i = none := by
  unfold State.passage
  split
  · split
    · simp [waits]
    · rfl
  · rfl

/-- A stream after the passage of its spacer (R141). -/
def State.passedStream (s : State) (i : Fin 4) : Stream :=
  { s.outfeed.streams.get i with
    passed := 0, serial := (s.outfeed.streams.get i).serial + 1, spacer := .none, closure := none
    lastStack := if s.stackFull (s.outfeed.streams.get i) then .full else .odd }

theorem passSpacer_stream (i : Fin 4) (tag : Tag) (s : State) :
    (passSpacer i tag s).outfeed.streams.get i = s.passedStream i := Quad.get_set_self _ _ _

theorem passSpacer_lanes (i k : Fin 4) (tag : Tag) (s : State) :
    ((passSpacer i tag s).outfeed.streams.get k).lanes = (s.outfeed.streams.get k).lanes := by
  by_cases same : k = i
  · subst same
    rw [passSpacer_stream]
    rfl
  · exact congrArg Stream.lanes (Quad.get_set_of_ne _ same _)

theorem passSpacer_frame (i : Fin 4) (tag : Tag) (s : State) : SameBut [.outfeed, .fifo] s (passSpacer i tag s) :=
  have told := (setOutfeed_frame s { s.outfeed with stackChange := s.outfeed.stackChange.set i (some (s.now + Config.pulseTime)) }).then
    (raise_frame _ _) (n := [.outfeed, .fifo]) (by decide) (by decide)
  told.then ((setStream_frame _ _ _).trans (planAgain_frame _ _)) (by decide) (by decide)

/-- A set of lanes with a lane added has the lane. -/
theorem hasLane_or_laneBit (w : Lanes) (k : Fin 4) : hasLane (w ||| laneBit k) k = true := by
  unfold hasLane laneBit
  revert w
  revert k
  decide

/-- A stream whose spacer has passed plans as it stands, but for what it has passed (R139, R141). -/
theorem passSpacer_plan (i : Fin 4) (tag : Tag) (s : State) :
    (passSpacer i tag s).plan i = (s.setStream i { s.outfeed.streams.get i with passed := 0, spacer := .none }).plan i := by
  have stream := Quad.get_set_self s.outfeed.streams i { s.outfeed.streams.get i with passed := 0, spacer := .none }
  refine plan_congr (passSpacer_frame i tag s .store (by decide))
    (congrArg TrackList.records (passSpacer_frame i tag s .track (by decide))) (fun k => ?_) ?_ ?_ ?_
  · rw [passSpacer_lanes]
    by_cases same : k = i
    · subst same
      exact (congrArg Stream.lanes stream).symm
    · exact (congrArg Stream.lanes (Quad.get_set_of_ne _ same _)).symm
  · rw [passSpacer_stream]
    exact (congrArg Stream.current stream).symm
  · rw [passSpacer_stream]
    exact (congrArg Stream.spacer stream).symm
  · rw [passSpacer_stream]
    exact (congrArg Stream.passed stream).symm

theorem acting_running {s : State} (h : s.acting = true) : s.line.atAdvance = true ∧ s.station ≠ .setup := by
  simpa [State.acting] using h

/-- The stream after the step of a spacer's passage: counted afresh, and planned again (R139, R141). -/
theorem passage_stream {s : State} (i : Fin 4) (tag : Tag) (running : s.station ≠ .setup) :
    (finish (passSpacer i tag s)).outfeed.streams.get i = { s.passedStream i with
      spacer := match (passSpacer i tag s).plan i with | some e => .requested e | none => .none } := by
  have setup : (passSpacer i tag s).station ≠ .setup := by
    rwa [passSpacer_frame i tag s .station (by decide)]
  have due : hasLane (passSpacer i tag s).outfeed.planDue i = true := hasLane_or_laneBit _ _
  rw [finish_stream _ _ setup, if_pos due]
  unfold State.plannedStream
  rw [passSpacer_stream]
  split <;> rfl

theorem stackFull_of_current {s : State} {x : Stream} {article lot : Nat} (h : x.current = some (article, lot)) :
    s.stackFull x = decide (x.passed = s.store.stackSize article) := by
  unfold State.stackFull
  rw [h]
  rfl

/-! ## The walk of a plan (R139) -/

theorem counts_iff (r : Record) (c : Nat × Nat) : r.counts c = true ↔
    (r.desc.kind = .piece ∧ r.desc.reject = .none) ∧ (r.desc.article, r.desc.lot) = c := by
  simp [Record.counts]

/-- A record that the walk of a plan goes past: no spacer, and no piece of another stack (R139). -/
def Record.walkedPast (r : Record) (c : Nat × Nat) : Prop :=
  r.state ≠ .spacer ∧ (r.desc.kind = .piece → r.desc.reject = .none → r.counts c = true)

/-- One step of the walk: a counted piece ends it where the stack is reached with it, and is summed where not; a record that
is not counted is gone past, or ends it without an end piece (R139). -/
theorem planWalk_cons (c : Nat × Nat) (size sum : Nat) (r : Record) (rs : List Record) :
    (r.state ≠ .spacer → r.counts c = true →
      planWalk c size sum (r :: rs) = if size ≤ sum + 1 then some r.desc.tag else planWalk c size (sum + 1) rs) ∧
    (r.walkedPast c → r.counts c = false → planWalk c size sum (r :: rs) = planWalk c size sum rs) ∧
    (¬ r.walkedPast c → planWalk c size sum (r :: rs) = none) := by
  refine ⟨fun spacer counts => ?_, fun past counts => ?_, fun ends => ?_⟩
  · obtain ⟨piece, current⟩ := (counts_iff r c).mp counts
    simp [planWalk, spacer, piece, current]
  · have other : ¬ (r.desc.kind = .piece ∧ r.desc.reject = .none) := fun piece => by
      rw [past.2 piece.1 piece.2] at counts
      cases counts
    rw [planWalk, if_neg past.1, if_neg other]
  · by_cases spacer : r.state = .spacer
    · rw [planWalk, if_pos spacer]
    · by_cases piece : r.desc.kind = .piece ∧ r.desc.reject = .none
      · have current : (r.desc.article, r.desc.lot) ≠ c := fun current =>
          ends ⟨spacer, fun _ _ => (counts_iff r c).mpr ⟨piece, current⟩⟩
        rw [planWalk, if_neg spacer, if_pos piece, if_neg current]
      · exact absurd ⟨spacer, fun kind reject => absurd ⟨kind, reject⟩ piece⟩ ends

/-- The end piece of a plan: the counted piece at which the sum first reaches the stack size, behind records that the walk
goes past (R139). -/
theorem planWalk_iff (c : Nat × Nat) (size : Nat) (tag : Tag) : ∀ (rs : List Record) (sum : Nat), sum < size →
    (planWalk c size sum rs = some tag ↔ ∃ before r after, rs = before ++ r :: after ∧ r.desc.tag = tag
      ∧ r.state ≠ .spacer ∧ r.counts c = true ∧ (∀ x ∈ before, x.walkedPast c)
      ∧ sum + (before.filter (fun x => x.counts c)).length + 1 = size)
  | [], sum, _ => by simp [planWalk]
  | x :: rs, sum, less => by
    obtain ⟨counted, past, ends⟩ := planWalk_cons c size sum x rs
    constructor
    · intro found
      by_cases walked : x.walkedPast c
      · cases counts : x.counts c with
        | true =>
          rw [counted walked.1 counts] at found
          split at found
          · exact ⟨[], x, rs, rfl, Option.some.inj found, walked.1, counts, by simp, by simp; omega⟩
          · obtain ⟨before, r, after, rfl, rest⟩ := (planWalk_iff c size tag rs (sum + 1) (by omega)).mp found
            obtain ⟨tag, spacer, count, walk, sums⟩ := rest
            refine ⟨x :: before, r, after, rfl, tag, spacer, count, ?_, ?_⟩
            · exact List.forall_mem_cons.mpr ⟨walked, walk⟩
            · rw [List.filter_cons_of_pos (p := fun x : Record => x.counts c) counts, List.length_cons]
              omega
        | false =>
          rw [past walked counts] at found
          obtain ⟨before, r, after, rfl, tag, spacer, count, walk, sums⟩ := (planWalk_iff c size tag rs sum less).mp found
          refine ⟨x :: before, r, after, rfl, tag, spacer, count, List.forall_mem_cons.mpr ⟨walked, walk⟩, ?_⟩
          rwa [List.filter_cons_of_neg (p := fun x : Record => x.counts c) (by simp [counts])]
      · rw [ends walked] at found
        cases found
    · rintro ⟨before, r, after, split, tag, spacer, count, walk, sums⟩
      cases before with
      | nil =>
        obtain ⟨rfl, rfl⟩ := List.cons.inj split
        rw [counted spacer count, if_pos (by simp at sums; omega), tag]
      | cons y before =>
        obtain ⟨rfl, rfl⟩ := List.cons.inj split
        obtain ⟨walked, walk⟩ := List.forall_mem_cons.mp walk
        cases counts : x.counts c with
        | true =>
          rw [List.filter_cons_of_pos (p := fun x : Record => x.counts c) counts, List.length_cons] at sums
          rw [counted walked.1 counts, if_neg (by omega)]
          exact (planWalk_iff c size _ _ (sum + 1) (by omega)).mpr
            ⟨before, r, after, rfl, tag, spacer, count, walk, by omega⟩
        | false =>
          rw [List.filter_cons_of_neg (p := fun x : Record => x.counts c) (by simp [counts])] at sums
          rw [past walked counts]
          exact (planWalk_iff c size _ _ sum less).mpr ⟨before, r, after, rfl, tag, spacer, count, walk, sums⟩

/-- The plan of a stream that counts a stack and has no spacer (R139). -/
theorem plan_of_counting {s : State} {i : Fin 4} {c : Nat × Nat} (current : (s.outfeed.streams.get i).current = some c)
    (lanes : (s.outfeed.streams.get i).lanes ≠ 0) (spacer : (s.outfeed.streams.get i).spacer = .none) :
    s.plan i = if s.store.stackSize c.1 ≤ (s.outfeed.streams.get i).passed then some none
      else (planWalk c (s.store.stackSize c.1) (s.outfeed.streams.get i).passed (s.ahead i)).map some := by
  have plans : ¬ ((s.outfeed.streams.get i).lanes = 0 ∨ (s.outfeed.streams.get i).spacer ≠ .none) := fun h =>
    h.elim lanes (fun other => other spacer)
  unfold State.plan
  simp only [current, if_neg plans]

/-! ## A request handed on (R140) -/

theorem queueBid_bid (t : Target) (w : Count) (s : State) :
    (queueBid t w s).bid = { s.bid with own := some (s.newBid t w), rivals := [], retry := none } := by
  have marked : (markBidding t (takeTag s)).bid = s.bid := markBidding_frame t _ .bid (by decide)
  unfold queueBid
  rw [enqueue_bid_frame _ _ _ .bid (by decide), State.setBid_bid, marked]

theorem reconsider_request (s : State) : (reconsider s).bid.request = s.bid.request := by
  unfold reconsider search
  split
  · split
    · split
      · rw [queueBid_bid]
      · rfl
    · rfl
  · rfl

theorem hasLane_laneBit : ∀ i k : Fin 4, hasLane (laneBit i) k = decide (k = i) := by
  decide

/-- With no other stream to plan, a fold over all plans the one due. -/
theorem planStreams_single {s : State} {i : Fin 4} (running : s.station ≠ .setup) (due : s.outfeed.planDue = laneBit i) :
    planStreams s = planStream i s := by
  unfold planStreams
  rw [if_neg running, due]
  simp only [hasLane_laneBit]
  fin_cases i <;> rfl

theorem planStream_queue (i : Fin 4) (s : State) : (planStream i s).outfeed.queue =
    match s.plan i with | some _ => s.outfeed.queue ++ [i] | none => s.outfeed.queue := by
  unfold planStream
  cases s.plan i <;> rfl

/-- A request that a stream makes alone goes to a bid engine that holds none, in the same step (R139, R140). -/
theorem finish_request {s : State} {i : Fin 4} (running : s.station ≠ .setup) (due : s.outfeed.planDue = laneBit i)
    (queue : s.outfeed.queue = []) (request : s.bid.request = none) (own : s.bid.own = none) :
    (finish s).outfeed.queue = [] ∧ (finish s).bid.request = (s.plan i).map (fun e =>
      { stream := i, lanes := (s.outfeed.streams.get i).lanes, length := s.run.stack, endPiece := e }) := by
  have outfeed : (finish s).outfeed.queue = (handRequest (planStreams s)).outfeed.queue := by
    show (reconsider _).outfeed.queue = _
    rw [reconsider_frame _ .outfeed (by decide)]
  have requests : (finish s).bid.request = (handRequest (planStreams s)).bid.request := reconsider_request _
  rw [outfeed, requests, planStreams_single running due]
  have frame := planStream_frame i s
  have queued := planStream_queue i s
  have stream := planStream_stream i i s
  rw [if_pos rfl] at stream
  unfold handRequest
  rw [queued, frame .bid (by decide), request, own, queue]
  cases plan : s.plan i with
  | none => exact ⟨by rw [queued, plan]; exact queue, by rw [frame .bid (by decide)]; exact request⟩
  | some e =>
    have planned : s.plannedStream i = { s.outfeed.streams.get i with spacer := .requested e } := by
      unfold State.plannedStream
      rw [plan]
    have run : (planStream i s).run = s.run := frame .run (by decide)
    exact ⟨rfl, by simp [stream, planned, run]⟩

/-- Settles O29. -/
theorem spacerPassageClosesStack : Obligations.SpacerPassageClosesStack := by
  refine ⟨fun s i tag r article lot acting taken role placed held beyond current => ?_,
    fun s i u tag r acting taken role placed held beyond hu => ?_, fun s i c current lanes spacer => ⟨fun full => ?_,
      fun less => ⟨?_, fun tag => ?_⟩⟩, fun s i waits => ?_⟩
  · have row : exec (.spacerPassage i) s = .next (finish (passSpacer i tag s)) := by
      simp [exec, execSpacerPassage, passage_eq acting taken role placed held beyond]
    have stream := passage_stream i tag (acting_running acting).2
    have full := stackFull_of_current (s := s) current
    have frame := passSpacer_frame i tag s
    refine ⟨_, row, by rw [stream]; rfl, by rw [stream]; rfl, by rw [stream]; rfl, by rw [stream]; exact current, ?_, ?_, ?_,
      ?_, ?_, ?_⟩
    · rw [stream]
      split <;> exact nofun
    · rw [stream]
      simp [State.passedStream, full]
    · rw [finish_outfeed_stackChange]
      exact Quad.get_set_self _ _ _
    · rw [finish_fifo]
      show s.withEvent _ = _
      simp [full, current]
    · rw [finish_track_records, frame .track (by decide)]
    · exact frame.then (finish_frame _) (by decide) (by decide)
  · have row : exec (.spacerPassage i) s = .next (finish (passSpacer i tag s)) := by
      simp [exec, execSpacerPassage, passage_eq acting taken role placed held beyond]
    have plan : (passSpacer i tag s).plan i = u.plan i := hu ▸ passSpacer_plan i tag s
    have running := (acting_running acting).2
    refine ⟨_, row, by rw [passage_stream i tag running, plan] <;> rfl, fun quiet request own => ?_⟩
    have frame := passSpacer_frame i tag s
    have due : (passSpacer i tag s).outfeed.planDue = laneBit i := by
      show s.outfeed.planDue ||| laneBit i = _
      rw [quiet.1]
      exact BitVec.zero_or
    have handed := finish_request (s := passSpacer i tag s) (i := i) (by rwa [frame .station (by decide)]) due quiet.2
      (by rwa [frame .bid (by decide)]) (by rwa [frame .bid (by decide)])
    rw [plan, passSpacer_lanes, frame .run (by decide)] at handed
    exact handed
  · rw [plan_of_counting current lanes spacer, if_pos full]
  · rw [plan_of_counting current lanes spacer, if_neg (not_le.mpr less)]
    cases planWalk c (s.store.stackSize c.1) (s.outfeed.streams.get i).passed (s.ahead i) <;> simp
  · rw [plan_of_counting current lanes spacer, if_neg (not_le.mpr less)]
    simp only [Option.map_eq_some_iff, Option.some.injEq, exists_eq_right]
    exact planWalk_iff c _ tag _ _ less
  · simp [exec, execSpacerPassage, passage_waits i waits]

end Sys2Proof.Machine
end

section
/-! The obligations of joining, the throat monitor and the width sampler's rest. -/
namespace Sys2Proof.Machine

/-! ## A message of class 0 that finds an entry -/

/-- A message of class 0 that takes a free entry: nothing but the outbox moves, and the message stands there (R155). -/
structure QueuedFirst (m : Msg) (s t : State) : Prop where
  frame : SameBut [.link] s t
  mem : Entry.fresh m ∈ t.link.outbox

theorem enqueueFirst_queued {m : Msg} {s : State} (room : s.roomFirst) : QueuedFirst m s (enqueueFirst m s) := by
  rw [enqueueFirst_room m s room]
  exact ⟨setOutbox_frame _ _, List.mem_append_right _ (List.mem_singleton.mpr rfl)⟩

/-- What a message leaves of the records and the jamming set, wherever it goes. -/
theorem enqueue_records (m : Msg) (s : State) : (enqueue m s).track.records = s.track.records :=
  congrArg TrackList.records (enqueue_frame m s .track (by decide))

/-! ## Joining (R131, R171, R172) -/

theorem joinComplete_iff (s : State) : s.joinComplete = true ↔
    s.line.atAdvance = true ∧ s.station = .joining ∧ s.run.join ≤ s.peers.joined := by
  simp [State.joinComplete, and_assoc]

/-- A throat announces a jam that it has not announced; otherwise nothing is announced (R131). -/
theorem announceJam_eq (s : State) : announceJam s =
    if s.throat.jammed = true ∧ s.throat.announced = false then
      enqueueFirst .jam (s.setThroat { s.throat with announced := true }) else s := rfl

theorem announceJam_frame (s : State) : SameBut [.throat, .bid, .feed, .link, .fifo] s (announceJam s) :=
  .ite ((setThroat_frame s _).then (enqueue_frame .jam _) (by decide) (by decide)) (.refl _ s)

theorem announceJam_throat (s : State) :
    (announceJam s).throat = { s.throat with announced := s.throat.announced || s.throat.jammed } := by
  rw [announceJam_eq]
  split
  · rename_i announces
    refine (enqueueFirst_frame _ _ .throat (by decide)).trans ?_
    simp [announces]
  · rename_i silent
    have stands : (s.throat.announced || s.throat.jammed) = s.throat.announced := by
      cases announced : s.throat.announced
      · simpa [announced] using silent
      · rfl
    rw [stands]

/-- Settles O31. -/
theorem joinTravelActivates : Obligations.JoinTravelActivates := by
  intro s advance joining travelled
  have row : exec .joinTravelComplete s = .next (finish (enterActive s)) := by
    have complete := (joinComplete_iff s).mpr ⟨advance, joining, travelled⟩
    simp [exec, execJoinTravelComplete, complete]
  let u := raise (activeEvent s) (s.setStation .active)
  have entered : SameBut [.station, .fifo] s u := (setStation_frame s _).then (raise_frame _ _) (by decide) (by decide)
  have announced : SameBut _ u (enterActive s) := announceJam_frame u
  refine ⟨finish (enterActive s), row, ?_, fun quiet => ?_, ?_, fun jammed fresh room => ?_, ?_, ?_⟩
  · rw [finish_station, announced .station (by decide)]
    rfl
  · rw [finish_fifo]
    show (announceJam u).fifo = s.withEvent _
    rw [announceJam_eq]
    split
    · rename_i announces
      have room : s.roomFirst := by
        rcases quiet with h | h | h
        · exact absurd (announces.1.symm.trans h) (by decide)
        · exact absurd (announces.2.symm.trans h) (by decide)
        · exact h
      exact (enqueueFirst_queued (s := u.setThroat _) room).frame .fifo (by decide)
    · rfl
  · rw [finish_throat]
    exact announceJam_throat u
  · refine mem_finish_outbox ?_
    show _ ∈ (announceJam u).link.outbox
    rw [announceJam_eq, if_pos ⟨jammed, fresh⟩]
    exact (enqueueFirst_queued (s := u.setThroat _) room).mem
  · rw [finish_track_records, announced .track (by decide)]
    rfl
  · exact (entered.then announced (n := [.station, .throat, .fifo] ++ settlingBlocks) (by decide) (by decide)).trans
      ((finish_frame _).widen (by decide))

/-! ## JAM_CONDITION (R126 to R128) -/

theorem jamFound_eq {s : State} {k : Fin 4} {x : Int} (acting : s.acting = true) (taken : s.edgesTaken = true)
    (role : s.role = .throat) (clear : s.throat.jammed = false) (found : s.jamAt k = some (k, x))
    (lower : ∀ j, j < k → s.jamAt j = none) : s.jamFound = some (k, x) := by
  unfold State.jamFound
  rw [if_pos ⟨acting, taken, role, clear⟩]
  unfold four
  fin_cases k <;> simp_all

theorem jamFound_waits {s : State} (waits : s.edgesTaken = false) : s.jamFound = none := by
  unfold State.jamFound
  rw [if_neg]
  rintro ⟨-, taken, -⟩
  rw [waits] at taken
  cases taken

theorem jamAt_of_over {s : State} {k : Fin 4} {x : Int} (distance : s.blockedDistance k = some x)
    (exceeds : s.jamLimit k < x) : s.jamAt k = some (k, x) := by
  unfold State.jamAt
  rw [distance]
  exact if_pos exceeds

theorem declareJam_eq (k : Fin 4) (x : Int) (s : State) : declareJam k x s =
    if s.station = .active then
      enqueueFirst .jam (raise (s.jamEvent k x)
        (s.setThroat { s.throat with jammed := true, relay := true, announced := true }))
    else raise (s.jamEvent k x) (s.setThroat { s.throat with jammed := true, relay := true }) := rfl

theorem declareJam_frame (k : Fin 4) (x : Int) (s : State) :
    SameBut [.throat, .bid, .feed, .link, .fifo] s (declareJam k x s) := by
  have declared : ∀ y, SameBut [.throat, .fifo] s (raise (s.jamEvent k x) (s.setThroat y)) := fun y =>
    (setThroat_frame s y).then (raise_frame _ _) (by decide) (by decide)
  rw [declareJam_eq]
  exact .ite ((declared _).then (enqueueFirst_frame _ _) (by decide) (by decide)) ((declared _).widen (by decide))

/-- The record that a lane is bound to, where one sighting alone binds it (R127). -/
theorem jamRecord_of_bindsAlone {s : State} {k : Fin 4} {g : Sighting} {r : Record} (alone : s.bindsAlone k g)
    (matched : g.stray = false) (held : s.record g.tag = some r) : s.jamRecord k = some r := by
  obtain ⟨mem, bound, only⟩ := alone
  have found : s.boundTo k = some g := by
    cases h : s.boundTo k with
    | none => exact absurd bound (by simpa using List.find?_eq_none.mp h g mem)
    | some x =>
      have hx := List.find?_some h
      rw [only x (List.mem_of_find?_eq_some h) (.inr hx)]
  unfold State.jamRecord
  rw [found]
  simp [matched, held]

theorem jamRecord_none {s : State} {k : Fin 4}
    (h : ∀ g ∈ s.eye.sightings, hasLane g.bound k = true → g.stray = true ∨ s.record g.tag = none) : s.jamRecord k = none := by
  unfold State.jamRecord
  split
  · rename_i g found
    rcases h g (List.mem_of_find?_eq_some found) (List.find?_some (p := fun x : Sighting => hasLane x.bound k) found) with stray | gone
    · simp [stray]
    · simp [gone]
  · rfl

/-- Settles O27. -/
theorem jamConditionDeclaresJam : Obligations.JamConditionDeclaresJam := by
  refine ⟨fun s k x acting taken role clear distance exceeds lower => ?_, fun s waits => ?_,
    fun s k g r x alone matched held upstream => ?_, fun s k x unbound => ?_, fun s k => ⟨fun free => ?_, fun base blocked => ?_⟩⟩
  · have row : exec .jamCondition s = .next (finish (declareJam k x s)) := by
      simp [exec, execJamCondition, jamFound_eq acting taken role clear (jamAt_of_over distance exceeds) lower]
    have frame := declareJam_frame k x s
    refine ⟨finish (declareJam k x s), row, ?_, fun quiet => ?_, fun active room => ?_, ?_, ?_⟩
    · rw [finish_throat, declareJam_eq]
      by_cases active : s.station = .active
      · rw [if_pos active, enqueueFirst_frame _ _ .throat (by decide)]
        simp [active]
      · rw [if_neg active]
        have : (s.station == .active) = false := by simpa using active
        simp [this]
    · rw [finish_fifo, declareJam_eq]
      by_cases active : s.station = .active
      · rw [if_pos active]
        have room : s.roomFirst := quiet.resolve_left (fun h => h active)
        refine ((enqueueFirst_queued ?_).frame .fifo (by decide)).trans rfl
        exact (roomFirst_congr rfl).mpr room
      · rw [if_neg active]
        rfl
    · refine mem_finish_outbox ?_
      rw [declareJam_eq, if_pos active]
      refine (enqueueFirst_queued ?_).mem
      exact (roomFirst_congr rfl).mpr room
    · rw [finish_track_records, frame .track (by decide)]
    · exact (frame.widen (by decide)).trans ((finish_frame _).widen (by decide))
  · simp [exec, execJamCondition, jamFound_waits waits]
  · have record := jamRecord_of_bindsAlone alone matched held
    unfold State.jamLimit State.jamEvent State.expectedLength
    rw [record]
    exact ⟨by simp [upstream], rfl⟩
  · unfold State.jamLimit State.jamEvent
    rw [jamRecord_none unbound]
    exact ⟨rfl, rfl⟩
  · have none : s.blockedDistance k = none := by simp [State.blockedDistance, free]
    exact ⟨none, by simp [State.jamAt, none]⟩
  · have distance : s.blockedDistance k = some (signedDiff s.line.highWater base) := by
      simp [State.blockedDistance, blocked]
    refine ⟨distance, ?_⟩
    unfold State.jamAt
    rw [distance]
    by_cases exceeds : s.jamLimit k < signedDiff s.line.highWater base
    · simp [exceeds]
    · simp [exceeds, not_lt.mp exceeds]

/-! ## JAM RELEASE (R129, R179) -/

/-- A host command taken while the RESET pin is not asserted (R177). -/
theorem transact_taken {s : State} (free : s.port.held = false) (effect : State → State) :
    transact .taken effect s = effect s := by
  simp [transact, free]

theorem refuse_frame (r : Result) (s : State) : SameBut [.port] s (refuse r s) := setPort_frame _ _

theorem takesJamRelease_iff (s : State) :
    s.takesJamRelease = true ↔ s.role = .throat ∧ s.running ∧ s.throat.jammed = true := by
  simp [State.takesJamRelease, State.running, and_assoc]

/-- A throat rebased: each BLOCKED lane takes the high-water count (R125). -/
theorem rebase_throat {s : State} (role : s.role = .throat) : (rebase s).throat = { s.throat with
    bases := s.eye.eyes.mapAt (fun _ e => if e.state = .blocked then some s.line.highWater else none) } := by
  unfold rebase
  rw [if_pos role]
  rfl

theorem rebase_frame (s : State) : SameBut [.throat] s (rebase s) := .ite (setThroat_frame _ _) (.refl _ s)

theorem releaseJam_frame (s : State) : SameBut [.throat, .bid, .feed, .link, .fifo] s (releaseJam s) := by
  have released : SameBut [.throat] s (rebase (s.setThroat { s.throat with jammed := false, announced := false, relay := false })) :=
    (setThroat_frame s _).trans (rebase_frame _)
  exact .ite (released.then (enqueue_frame _ _) (by decide) (by decide)) (released.widen (by decide))

theorem releaseJam_throat {s : State} (role : s.role = .throat) : (releaseJam s).throat = { s.throat with
    jammed := false, announced := false, relay := false
    bases := s.eye.eyes.mapAt (fun _ e => if e.state = .blocked then some s.line.highWater else none) } := by
  have rebased := rebase_throat (s := s.setThroat { s.throat with jammed := false, announced := false, relay := false }) role
  unfold releaseJam
  dsimp only
  split
  · rw [enqueue_frame _ _ .throat (by decide), rebased]
    rfl
  · rw [rebased]
    rfl

/-- Settles O28. -/
theorem jamReleaseClearsThroat : Obligations.JamReleaseClearsThroat := by
  refine ⟨fun s free role running jammed => ?_, fun s free refused => ?_⟩
  · let u := finish (releaseJam s)
    have row : exec .jamRelease s = .next (answer s .ok [] u) := by
      have takes := (takesJamRelease_iff s).mpr ⟨role, running, jammed⟩
      simp only [exec, execJamRelease, transact_taken free, takes, if_true]
      rfl
    have throat : u.throat = _ := (finish_throat _).trans (releaseJam_throat role)
    have frame := releaseJam_frame s
    refine ⟨_, row, rfl, congrArg ThroatMonitor.jammed throat, congrArg ThroatMonitor.relay throat,
      congrArg ThroatMonitor.announced throat, fun k => ?_, fun active room => ?_, ?_, ?_⟩
    · refine (congrArg (fun x : ThroatMonitor => x.bases.get k) throat).trans ?_
      exact Quad.get_mapAt _ _ _
    · refine mem_finish_outbox ?_
      unfold releaseJam
      rw [if_pos active]
      refine (enqueueFirst_queued (m := .jamRelease) ?_).mem
      refine (roomFirst_congr ?_).mpr room
      exact (rebase_frame _ .link (by decide)).trans rfl
    · refine (finish_bid_jamming _).trans ?_
      unfold releaseJam
      dsimp only
      split
      · rw [(enqueue_steady _ _).jamming, rebase_frame _ .bid (by decide)]
        rfl
      · rw [rebase_frame _ .bid (by decide)]
        rfl
    · refine ((frame.then (finish_frame _) (n := [.throat, .port, .fifo] ++ settlingBlocks) (by decide) (by decide))).trans ?_
      exact (setPort_frame _ _).widen (by decide)
  · refine ⟨refuse .wrongState s, ?_, rfl, refuse_frame _ s⟩
    have refuses : ¬ s.takesJamRelease = true := fun h => refused ((takesJamRelease_iff s).mp h)
    simp only [exec, execJamRelease, transact_taken free, if_neg refuses]

/-! ## The rest of the width sampler (R118) -/

/-- Settles O16. -/
theorem restEndsByPendingStart : Obligations.RestEndsByPendingStart := by
  intro s code resting
  let u := advanceTo s.width.due s
  have row : exec (.restTimerExpiry code) s = .next (endRest code u) := by
    simp [exec, execRestTimerExpiry, resting, u]
  have moved : SameBut [.now, .line] s u := advanceTo_frame _ s
  have width : u.width = s.width := moved .width (by decide)
  have fifo : u.fifo = s.fifo := moved .fifo (by decide)
  have eye : u.eye = s.eye := moved .eye (by decide)
  have time : u.now = max s.now s.width.due := advanceTo_now _ s
  have count : u.line.count = s.line.count := advanceTo_count _ s
  cases pending : s.width.pending with
  | none =>
    have ends : endRest code u = u.setWidth { s.width with phase := .idle, piece := none } := by
      unfold endRest
      rw [width, pending]
    refine ⟨_, row, ?_⟩
    rw [ends]
    exact ⟨rfl, pending, time, fun _ => ⟨rfl, rfl, fifo, eye⟩, nofun,
      (moved.widen (by decide)).trans ((setWidth_frame _ _).widen (by decide))⟩
  | some p =>
    have wframe : ∀ w, SameBut [.now, .line, .eye, .width, .fifo] s (u.setWidth w) := fun w =>
      (moved.widen (by decide)).trans ((setWidth_frame _ w).widen (by decide))
    cases edge : p.edgeTaken with
    | true =>
      have ends : endRest code u = raise (unmeasuredEvent p 0 3) (deliver p.tag .unmeasured
          (u.setWidth { s.width with phase := .idle, piece := none, pending := none })) := by
        unfold endRest
        rw [width, pending]
        simp only [edge, if_true]
      refine ⟨_, row, ?_⟩
      rw [ends]
      refine ⟨rfl, rfl, time, nofun, fun q same => ?_, ?_⟩
      · cases same
        refine ⟨fun _ => ⟨rfl, rfl, ?_⟩, fun waits => absurd (edge.symm.trans waits) (by decide)⟩
        exact withEvent_congr fifo (moved .store (by decide)) _
      · exact ((wframe _).trans ((setEye_frame _ _).widen (by decide))).trans ((raise_frame _ _).widen (by decide))
    | false =>
      have ends : endRest code u = u.setWidth (if 0 ≤ signedDiff s.line.count p.start then
          { s.width with pending := none, phase := .converting, piece := some p, sum := code.toNat, samples := 1
                         due := u.now + Config.sampleTime }
          else { s.width with pending := none, phase := .armed, piece := some p }) := by
        unfold endRest
        rw [width, pending, count]
        by_cases reached : 0 ≤ signedDiff s.line.count p.start
        · simp [edge, atLeast, reached, WidthSampler.begin]
        · simp [edge, atLeast, reached]
      refine ⟨_, row, ?_⟩
      rw [ends]
      refine ⟨?_, ?_, time, nofun, fun q same => ?_, wframe _⟩
      · split <;> rfl
      · split <;> rfl
      · cases same
        refine ⟨fun taken => absurd (edge.symm.trans taken) (by decide), fun _ => ⟨?_, fifo, eye, ?_⟩⟩
        · split <;> rfl
        · split <;> simp [*]

end Sys2Proof.Machine
end

section
/-! The obligations of the line's timers, of HOLD and PURGE from the host, and of the slot grid. -/
namespace Sys2Proof.Machine

/-! ## The peer table (R165 to R169) -/

/-- An entry with another content stands under its number, and every other entry as it was. -/
theorem putPeer_peer (p : Peer) (s : State) (m : Nat) :
    (putPeer p s).peer m = if m = p.number then (s.peer m).map (fun _ => p) else s.peer m := by
  unfold putPeer State.peer
  simp only [State.setPeers_peers]
  induction s.peers.entries with
  | nil => simp
  | cons q l ih =>
    by_cases other : q.number = m
    · by_cases same : m = p.number <;> simp [other, same]
    · by_cases here : q.number = p.number
      · have apart : ¬ p.number = m := fun h => other (here.trans h)
        simpa [List.find?_cons, other, here, apart] using ih
      · simpa [List.find?_cons, other, here] using ih

theorem peer_number {s : State} {n : Nat} {p : Peer} (h : s.peer n = some p) : p.number = n := by
  simpa using List.find?_some h

/-- The MISMATCH cause as the peer table gives it (R169). -/
def State.matched (s : State) : State := s.setBid { s.bid with hold := { s.bid.hold with mismatch := s.peers.anyMismatch } }

/-- The MISMATCH cause follows the entries, and the own bid reacts where it joins (R81, R169). -/
theorem followMismatch_eq (s : State) : followMismatch s =
    if s.peers.anyMismatch = true ∧ s.bid.hold.mismatch = false then recallOwn 4 none s.matched else s.matched := by
  have stands : s.bid.hold.mismatch = s.peers.anyMismatch → s.matched = s := fun h => by
    unfold State.matched
    rw [← h]
    rfl
  have joins : s.peers.anyMismatch = true → putHold .mismatch true s = s.matched := fun h => by
    unfold State.matched
    rw [h]
    rfl
  have leaves : s.peers.anyMismatch = false → putHold .mismatch false s = s.matched := fun h => by
    unfold State.matched
    rw [h]
    rfl
  unfold followMismatch holdJoin holdLeave HoldSet.has
  cases any : s.peers.anyMismatch <;> cases held : s.bid.hold.mismatch <;>
    simp [stands, joins, leaves, any, held, HoldCause.code]

theorem followMismatch_frame (s : State) : SameBut listBlocks s (followMismatch s) := by
  have matched : SameBut listBlocks s s.matched := (setBid_frame s _).widen (by decide)
  rw [followMismatch_eq]
  exact .ite (matched.trans (recallOwn_frame _ _ _)) matched

theorem followMismatch_steady (s : State) : Steady s.matched (followMismatch s) := by
  rw [followMismatch_eq]
  exact .ite (recallOwn_steady _ _ _) (.refl _)

/-- Without an own bid the MISMATCH cause alone follows. -/
theorem followMismatch_of_no_own {s : State} (h : s.bid.own = none) : followMismatch s = s.matched := by
  have idle : recallOwn 4 none s.matched = s.matched := by
    unfold recallOwn
    rw [show s.matched.bid.own = none from h]
  rw [followMismatch_eq, idle, ite_self]

theorem hold_followMismatch (s : State) : (followMismatch s).bid.hold.mismatch = s.peers.anyMismatch := by
  rw [(followMismatch_steady s).hold]
  rfl

theorem leaveDeferral_frame (n : Nat) (s : State) : SameBut [.bid] s (leaveDeferral n s) := setBid_frame _ _

theorem putPeer_frame (p : Peer) (s : State) : SameBut [.peers] s (putPeer p s) := setPeers_frame _ _

/-! ## A cause that joins the hold set -/

theorem holdJoin_stands {c : HoldCause} {s : State} (h : s.bid.hold.has c = true) : holdJoin c s = s := if_pos h

theorem holdJoin_joins {c : HoldCause} {s : State} (h : s.bid.hold.has c = false) :
    holdJoin c s = recallOwn c.code none (putHold c true s) := if_neg (by simp [h])

/-- A recall does nothing where there is no own bid, where it is FIRED, and where its withdrawal runs already (R81). -/
theorem recallOwn_stands {s : State} (h : ∀ o, s.bid.own = some o → o.state = .fired ∨ (o.state = .queued ∧ o.cancelling = true))
    (code : Nat) (a : Option Int) : recallOwn code a s = s := by
  unfold recallOwn
  split
  · rfl
  · rename_i o own
    rcases h o own with fired | ⟨queued, cancelling⟩
    · rw [fired]
    · rw [queued]
      simp [cancelling]

/-- A cause that stands in the hold set keeps the station from every search (R78). -/
theorem hold_any_of_has {h : HoldSet} {c : HoldCause} (has : h.has c = true) : h.any = true := by
  unfold HoldSet.has at has
  unfold HoldSet.any
  cases c <;> simp_all

/-- A station that is held to the end of the step searches for nothing (R78). -/
theorem finish_held {s : State} (h : s.bid.hold.any = true) :
    (finish s).bid.own = s.bid.own ∧ SameBut [.bid, .outfeed] s (finish s) := by
  obtain ⟨own, -, -, frame⟩ := finish_idle s (by simp [h])
  exact ⟨own, frame⟩

/-! ## LINE_HEALTH_TIMEOUT, HAIL_TIMER_EXPIRY, PEER_TTL_EXPIRY -/

/-- The line is down: whatever the own bid does, the cause stands and the figures of the link are as they were (R158). -/
theorem healthExpires_steady (s : State) : Steady ((s.setLink { s.link with health := none }).setBid
    { s.bid with hold := { s.bid.hold with lineDown := true } }) (healthExpires s) := by
  refine Steady.trans ?_ (raise_steady _ _)
  unfold holdJoin
  split
  · rename_i held
    have held : s.bid.hold.lineDown = true := held
    rw [← held]
    exact .refl _
  · exact recallOwn_steady _ _ _

theorem healthExpires_frame (s : State) : SameBut listBlocks s (healthExpires s) :=
  (((setLink_frame s _).widen (by decide)).trans (holdJoin_frame _ _)).trans ((raise_frame _ _).widen (by decide))

theorem HeldBack.raise {s t : State} {o : OwnBid} (h : HeldBack s t o) (e : Event) : HeldBack s (raise e t) o :=
  ⟨h.landing, h.waiting, h.sending, h.untouched, h.position⟩

theorem roomFirst_of_lists {s u : State} (outbox : u.link.outbox = s.link.outbox)
    (waiting : u.link.waitingBid = s.link.waitingBid) : u.roomFirst ↔ s.roomFirst := by
  unfold State.roomFirst LinkController.reserved
  rw [outbox, waiting]

theorem bidWaits_of_lists {s u : State} (outbox : u.link.outbox = s.link.outbox)
    (waiting : u.link.waitingBid = s.link.waitingBid) : u.bidWaits ↔ s.bidWaits := by
  unfold State.bidWaits
  rw [outbox, waiting]

theorem recallFits_of_lists {s u : State} {o : OwnBid} (outbox : u.link.outbox = s.link.outbox)
    (waiting : u.link.waitingBid = s.link.waitingBid) : u.recallFits o ↔ s.recallFits o := by
  unfold State.recallFits
  rw [roomFirst_of_lists outbox waiting]

/-- What a hold cause does is told from the records, the outbox and the positions alone. -/
theorem HeldBack.of_lists {s u t : State} {o : OwnBid} (h : HeldBack u t o) (records : u.track.records = s.track.records)
    (positions : u.feed.positions = s.feed.positions) (outbox : u.link.outbox = s.link.outbox)
    (waiting : u.link.waitingBid = s.link.waitingBid) : HeldBack s t o := by
  obtain ⟨landing, waits, sending, untouched, position⟩ := h
  rw [record_congr records, records, roomFirst_of_lists outbox waiting, outbox] at landing
  rw [bidWaits_of_lists outbox waiting, records, outbox] at waits
  rw [bidWaits_of_lists outbox waiting, records, outbox] at sending
  rw [records, outbox] at untouched
  rw [positions] at position
  exact ⟨landing, waits, sending, untouched, position⟩

/-- The events of a state that has the FIFO and the store of another. -/
theorem withEvents_congr {s t : State} (fifo : t.fifo = s.fifo) (store : t.store = s.store) (l : List Event) :
    t.withEvents l = s.withEvents l := by
  unfold State.withEvents
  rw [fifo, store]

theorem withEvents_append (s : State) (l m : List Event) :
    s.withEvents (l ++ m) = m.foldl (fun f e => f.enter s.store.station.mode e) (s.withEvents l) := by
  unfold State.withEvents
  rw [List.foldl_append]

/-- An event raised behind a list of events. -/
theorem raise_withEvents {s t : State} {l : List Event} (fifo : t.fifo = s.withEvents l) (store : t.store = s.store)
    (e : Event) : (raise e t).fifo = s.withEvents (l ++ [e]) := by
  rw [withEvents_append, ← fifo, ← store]
  rfl

theorem lineHealthTimeout_spec (s : State) (x : Nat) (health : s.link.health = some x) :
    ∃ t, exec .lineHealthTimeout s = .next t
      ∧ t.link.health = none ∧ t.bid.hold.lineDown = true ∧ t.now = max s.now x
      ∧ t.bid.hold.operator = s.bid.hold.operator ∧ t.bid.hold.jam = s.bid.hold.jam
      ∧ (s.bid.own = none → t.fifo = s.withEvent { kind := .lineDown, a := some (s.link.lastSender.getD 0) }
          ∧ t.track.records = s.track.records)
      ∧ (∀ o, s.bid.own = some o → s.bid.hold.lineDown = false → HeldBack s t o
          ∧ ((s.feed.positions.get o.serves).unloading = false → s.recallFits o →
              t.fifo = s.withEvents (o.heldEvents 3 ++ [{ kind := .lineDown, a := some (s.link.lastSender.getD 0) }])))
      ∧ (∀ o, s.bid.own = some o → s.bid.hold.lineDown = true →
          t.bid.own = some o ∧ t.track.records = s.track.records
            ∧ t.fifo = s.withEvent { kind := .lineDown, a := some (s.link.lastSender.getD 0) })
      ∧ SameBut ([.now, .line] ++ listBlocks) s t := by
  let u := advanceTo x s
  let v := u.setLink { u.link with health := none }
  have row : exec .lineHealthTimeout s = .next (finish (healthExpires u)) := by
    simp [exec, execLineHealthTimeout, health, u]
  have moved : SameBut [.now, .line] s u := advanceTo_frame x s
  have feed : v.feed = s.feed := moved .feed (by decide)
  have bid : v.bid = s.bid := moved .bid (by decide)
  have fifo : v.fifo = s.fifo := moved .fifo (by decide)
  have store : v.store = s.store := moved .store (by decide)
  have records : v.track.records = s.track.records := congrArg TrackList.records (moved .track (by decide))
  have link : u.link = s.link := moved .link (by decide)
  have outbox : v.link.outbox = s.link.outbox := by
    show u.link.outbox = _
    rw [link]
  have waiting : v.link.waitingBid = s.link.waitingBid := by
    show u.link.waitingBid = _
    rw [link]
  have own0 : v.bid.own = s.bid.own := congrArg BidEngine.own bid
  have event : lineDownEvent u = { kind := .lineDown, a := some (s.link.lastSender.getD 0) } := by
    unfold lineDownEvent
    rw [moved .link (by decide)]
  have expired : healthExpires u = raise (lineDownEvent u) (holdJoin .lineDown v) := rfl
  have steady := healthExpires_steady u
  rw [moved .bid (by decide)] at steady
  have down : (healthExpires u).bid.hold.lineDown = true := by
    rw [steady.hold]
    rfl
  obtain ⟨own, settled⟩ := finish_held (hold_any_of_has (c := .lineDown) down)
  have quiet : holdJoin .lineDown v = v ∨ holdJoin .lineDown v = putHold .lineDown true v →
      (finish (healthExpires u)).bid.own = s.bid.own
        ∧ (finish (healthExpires u)).fifo = s.withEvent { kind := .lineDown, a := some (s.link.lastSender.getD 0) }
        ∧ (finish (healthExpires u)).track.records = s.track.records := by
    intro still
    rw [own, finish_fifo, finish_track_records, expired, event]
    rcases still with still | still <;> rw [still] <;>
      exact ⟨own0, withEvent_congr (t := v) fifo store _, records⟩
  refine ⟨finish (healthExpires u), row, ?_, ?_, ?_, ?_, ?_, fun none => ?_, fun o held up => ?_, fun o held stood => ?_, ?_⟩
  · rw [finish_link_health, steady.link]
    rfl
  · rw [finish_bid_hold, down]
  · rw [finish_now, healthExpires_frame u .now (by decide)]
    exact advanceTo_now x s
  · rw [finish_bid_hold, steady.hold]
    rfl
  · rw [finish_bid_hold, steady.hold]
    rfl
  · refine (quiet ?_).2
    cases has : v.bid.hold.has .lineDown with
    | true => exact .inl (holdJoin_stands has)
    | false =>
      refine .inr ((holdJoin_joins has).trans (recallOwn_stands (fun o held => ?_) _ _))
      rw [show (putHold .lineDown true v).bid.own = s.bid.own from own0, none] at held
      cases held
  · have held' : v.bid.own = some o := by rw [bid, held]
    have up' : v.bid.hold.has .lineDown = false := by rw [bid]; exact up
    refine ⟨?_, fun unmarked fits => ?_⟩
    · have back := (holdJoin_held .lineDown v o held' up').of_lists records (by rw [feed]) outbox waiting
      exact (back.raise (lineDownEvent u)).finish (.inl (hold_any_of_has (c := .lineDown) down))
    · rw [finish_fifo, expired, event]
      refine raise_withEvents ?_ ((holdJoin_frame _ v .store (by decide)).trans store) _
      rw [holdJoin_fifo .lineDown v o held' up' (by rwa [feed]) ((recallFits_of_lists outbox waiting).mpr fits)]
      exact withEvents_congr fifo store _
  · have stands : holdJoin .lineDown v = v := holdJoin_stands (by rw [bid]; exact stood)
    obtain ⟨o', f, r⟩ := quiet (.inl stands)
    exact ⟨o'.trans held, r, f⟩
  · exact (moved.then (healthExpires_frame u) (n := [.now, .line] ++ listBlocks) (by decide) (by decide)).trans
      (settled.widen (by decide))

theorem hailTimerExpiry_spec (s : State) (x : Nat) (timer : s.peers.hailTimer = some x)
    (running : s.station = .joining ∨ s.station = .active) :
    ∃ t, exec .hailTimerExpiry s = .next t
      ∧ t.peers = { s.peers with hailTimer := some (x + 250000) } ∧ t.now = max s.now x
      ∧ t.link = { s.link with outbox :=
          if s.roomLater = true ∧ (∀ e ∈ s.link.outbox, e.msg ≠ .hail) then s.link.outbox ++ [Entry.fresh .hail]
          else s.link.outbox }
      ∧ SameBut [.now, .line, .peers, .link] s t := by
  let u := (advanceTo x s).setPeers { s.peers with hailTimer := some (x + 250000) }
  have row : exec .hailTimerExpiry s = .next (enqueue .hail u) := by
    simp [exec, execHailTimerExpiry, timer, running, u, Config.hailTime, Config.ms]
  have moved : SameBut [.now, .line, .peers] s u := (advanceTo_frame x s).then (setPeers_frame _ _) (by decide) (by decide)
  have link : u.link = s.link := moved .link (by decide)
  have hail : ∀ e : Entry, (e.msg.kind == .hail) = true ↔ e.msg = .hail := fun e => by
    cases e.msg <;> simp [Msg.kind]
  have queued : enqueue .hail u = u.setOutbox
      (if s.roomLater = true ∧ (∀ e ∈ s.link.outbox, e.msg ≠ .hail) then s.link.outbox ++ [Entry.fresh .hail]
        else s.link.outbox) := by
    have room : u.roomLater = s.roomLater := by
      unfold State.roomLater
      rw [link]
    have free : ((s.roomLater && !(s.link.outbox.any (fun e => e.msg.kind == .hail))) = true)
        ↔ (s.roomLater = true ∧ ∀ e ∈ s.link.outbox, e.msg ≠ .hail) := by
      simp [← hail]
    show (if (u.roomLater && !(u.link.outbox.any (fun e => e.msg.kind == .hail))) = true then _ else u) = _
    rw [room, link]
    simp only [free]
    split
    · rfl
    · unfold State.setOutbox
      rw [← link]
      rfl
  refine ⟨enqueue .hail u, row, ?_, ?_, ?_, ?_⟩
  · rw [queued]
    rfl
  · rw [queued]
    exact advanceTo_now x s
  · rw [queued, ← link]
    rfl
  · rw [queued]
    exact moved.then (setOutbox_frame _ _) (by decide) (by decide)

theorem peerTtlExpiry_spec (s : State) (n : BitVec 4) (p : Peer) (entry : s.peer n.toNat = some p) (running : s.running)
    (heard : p.state ≠ .silent) :
    ∃ t, exec (.peerTtlExpiry n) s = .next t
      ∧ t.peer n.toNat = some { p with state := .silent } ∧ t.now = max s.now p.ttlEnds
      ∧ t.bid.deferral = s.bid.deferral &&& ~~~(stationBit n.toNat)
      ∧ t.bid.hold.mismatch = t.peers.anyMismatch
      ∧ (∀ m, m ≠ n.toNat → t.peer m = s.peer m)
      ∧ (s.bid.own = none → t.track.records = s.track.records
          ∧ t.fifo = s.withEvent { kind := .peerSilent, a := some n.toNat
                                   code := some (if p.state = .mismatch then 3 else 1) })
      ∧ SameBut ([.now, .line, .peers] ++ listBlocks) s t := by
  have number := peer_number entry
  let e : Event := { kind := .peerSilent, a := some p.number, code := some (if p.state = .mismatch then 3 else 1) }
  let w := putPeer { p with state := .silent } (advanceTo p.ttlEnds s)
  let u := leaveDeferral p.number (raise e w)
  have row : exec (.peerTtlExpiry n) s = .next (finish (followMismatch u)) := by
    have live : ¬ (s.station = .setup ∨ p.state = .silent) := not_or.mpr ⟨running, heard⟩
    simp only [exec, execPeerTtlExpiry, entry, if_neg live]
    rfl
  have moved : SameBut [.now, .line, .peers] s w :=
    (advanceTo_frame _ s).then (putPeer_frame _ _) (by decide) (by decide)
  have left : SameBut [.now, .line, .peers, .bid, .fifo] s u :=
    (moved.then (raise_frame e w) (n := [.now, .line, .peers, .bid, .fifo]) (by decide) (by decide)).then
      (leaveDeferral_frame _ _) (by decide) (by decide)
  have follow := followMismatch_frame u
  have peers : ∀ m, (finish (followMismatch u)).peer m = w.peer m := fun m => by
    unfold State.peer
    rw [finish_peers, follow .peers (by decide)]
    rfl
  have table : ∀ m, w.peer m = if m = p.number then (s.peer m).map (fun _ => { p with state := .silent }) else s.peer m :=
    fun m => by
      have same : (advanceTo p.ttlEnds s).peer m = s.peer m := by
        unfold State.peer
        rw [advanceTo_peers]
      rw [putPeer_peer, same]
  refine ⟨finish (followMismatch u), row, ?_, ?_, ?_, ?_, fun m other => ?_, fun none => ⟨?_, ?_⟩, ?_⟩
  · rw [peers, table, if_pos number.symm, entry]
    rfl
  · rw [finish_now, follow .now (by decide)]
    exact advanceTo_now _ s
  · rw [finish_bid_deferral, (followMismatch_steady u).deferral, ← number]
    show w.bid.deferral &&& _ = _
    rw [moved .bid (by decide)]
  · rw [finish_bid_hold, finish_peers, hold_followMismatch, follow .peers (by decide)]
  · rw [peers, table, if_neg (fun same => other (same.trans number))]
  · rw [finish_track_records]
    have none' : u.bid.own = Option.none := by
      show w.bid.own = _
      rw [moved .bid (by decide), none]
    rw [followMismatch_of_no_own none']
    exact congrArg TrackList.records (left .track (by decide))
  · have none' : u.bid.own = Option.none := by
      show w.bid.own = _
      rw [moved .bid (by decide), none]
    rw [finish_fifo, followMismatch_of_no_own none', ← number]
    exact withEvent_congr (moved .fifo (by decide)) (moved .store (by decide)) e
  · exact (left.then follow (n := [.now, .line, .peers] ++ listBlocks) (by decide) (by decide)).trans
      ((finish_frame _).widen (by decide))

/-- Settles O34. -/
theorem lineTimersExpire : Obligations.LineTimersExpire :=
  ⟨lineHealthTimeout_spec, hailTimerExpiry_spec, peerTtlExpiry_spec⟩

end Sys2Proof.Machine
end

section
/-! The obligations of HOLD and PURGE from the host. -/
namespace Sys2Proof.Machine

/-! ## HOLD_REQUESTED and HOLD_RELEASED (R186) -/

theorem holdRequested_taken {s : State} (free : s.port.held = false) :
    exec .holdRequested s = .next (answer s .ok [] (finish (holdJoin .operator s))) :=
  congrArg Host.Outcome.next (transact_taken free _)

theorem holdReleased_taken {s : State} (free : s.port.held = false) :
    exec .holdReleased s = .next (answer s .ok [] (finish (holdLeave .operator s))) :=
  congrArg Host.Outcome.next (transact_taken free _)

theorem answer_frame (s0 : State) (r : Result) (reply : List Byte) (s : State) : SameBut [.port] s (answer s0 r reply s) :=
  setPort_frame _ _

/-- The SENDING BID of a QUEUED own bid is marked, with the event of the recall (R95). -/
theorem recallOwn_sending {s : State} {o : OwnBid} (own : s.bid.own = some o) (queued : o.state = .queued)
    (live : o.cancelling = false) (sending : ¬ s.bidWaits) (code : Nat) (a : Option Int) :
    recallOwn code a s = markCancelling o (raise (recalledEvent o code a) s) := by
  rw [bidWaits_iff, not_not] at sending
  unfold recallOwn
  rw [own]
  dsimp only
  rw [queued]
  simp [live, sending]

/-- A recall that does not empty the position tells RECALLED and nothing else of a QUEUED bid (R95, R109). -/
theorem recallOwn_queued_fifo {s : State} {o : OwnBid} (own : s.bid.own = some o) (queued : o.state = .queued)
    (live : o.cancelling = false) (quiet : (s.feed.positions.get o.serves).unloading = false ∨ ¬ s.bidWaits) (code : Nat) :
    (recallOwn code none s).fifo = s.withEvent (o.recalled code) := by
  by_cases waits : s.bidWaits
  · have unmarked := quiet.resolve_right (not_not_intro waits)
    have fits : s.recallFits o := fun h => by rcases h with h | h <;> rw [queued] at h <;> cases h
    rw [recallOwn_heldEvents code s o own unmarked fits]
    have told : o.heldEvents code = [o.recalled code] := by
      unfold OwnBid.heldEvents
      simp [queued, live]
    rw [told]
    rfl
  · rw [recallOwn_sending own queued live waits]
    rfl

/-- OPERATOR joins the hold set of a station that it did not hold: what the own bid does, to the end of the step (R81, R186). -/
theorem holdRequested_joins (s : State) (free : s.port.held = false) (up : s.bid.hold.operator = false) :
    ∃ t, exec .holdRequested s = .next t
      ∧ t.port.last = .ok ∧ t.bid.hold.operator = true ∧ t.bid.hold.jam = s.bid.hold.jam
      ∧ t.bid.hold.lineDown = s.bid.hold.lineDown ∧ t.bid.hold.mismatch = s.bid.hold.mismatch
      ∧ (∀ o, s.bid.own = some o → o.state = .settling ∨ o.state = .granted →
          t.bid.own = none ∧ t.record o.desc.tag = s.withoutOwn o.desc.tag
            ∧ (s.roomFirst → Entry.fresh (.recall o.desc.tag) ∈ t.link.outbox)
            ∧ (s.roomFirst → (s.feed.positions.get o.serves).unloading = false → t.fifo = s.withEvent (o.recalled 1)))
      ∧ (s.bid.own = none → t.fifo = s.fifo ∧ t.track.records = s.track.records)
      ∧ (∀ o, s.bid.own = some o → o.state = .fired → t.bid.own = some o ∧ t.fifo = s.fifo)
      ∧ (∀ o, s.bid.own = some o → o.state = .queued → o.cancelling = false →
          t.track.records = s.track.records
            ∧ (s.bidWaits → t.bid.own = none
                ∧ t.link.outbox = s.link.outbox.filter (fun e => e.msg.kind != .bid) ∧ t.link.waitingBid = none)
            ∧ (¬ s.bidWaits → t.bid.own = some { o with cancelling := true }
                ∧ t.link.outbox = s.link.outbox.map (fun e =>
                    if e.msg.kind = .bid then { e with cancelling := true } else e))
            ∧ ((s.feed.positions.get o.serves).unloading = false ∨ ¬ s.bidWaits →
                t.fifo = s.withEvent (o.recalled 1)))
      ∧ SameBut (.port :: listBlocks) s t := by
  let v := putHold .operator true s
  let u := recallOwn 1 none v
  have joined : holdJoin .operator s = u := holdJoin_joins up
  have steady : Steady v u := recallOwn_steady _ _ _
  have operator : u.bid.hold.operator = true := by rw [steady.hold]; rfl
  obtain ⟨own, settled⟩ := finish_held (s := u) (hold_any_of_has (c := .operator) operator)
  let t := answer s .ok [] (finish u)
  have row : exec .holdRequested s = .next t := (holdRequested_taken free).trans (by rw [joined])
  have own : t.bid.own = u.bid.own := own
  have fifo : t.fifo = u.fifo := settled .fifo (by decide)
  have link : t.link = u.link := settled .link (by decide)
  have records : t.track.records = u.track.records := finish_track_records u
  have hold : t.bid.hold = u.bid.hold := finish_bid_hold u
  have frame : SameBut (.port :: listBlocks) s t :=
    ((((putHold_frame _ _ _).widen (by decide)).trans ((recallOwn_frame _ _ _).widen (by decide))).trans
      (settled.widen (by decide))).trans ((answer_frame _ _ _ _).widen (by decide))
  have stands : (∀ o, v.bid.own = some o → o.state = .fired ∨ (o.state = .queued ∧ o.cancelling = true)) →
      t.fifo = s.fifo ∧ t.track.records = s.track.records ∧ t.bid.own = s.bid.own := fun h => by
    rw [fifo, records, own, show u = v from recallOwn_stands h _ _]
    exact ⟨rfl, rfl, rfl⟩
  refine ⟨t, row, rfl, ?_, ?_, ?_, ?_, fun o bid landing => ?_, fun none => ?_, fun o bid fired => ?_,
    fun o bid queued live => ?_, frame⟩
  · rw [hold, operator]
  · rw [hold, steady.hold]; rfl
  · rw [hold, steady.hold]; rfl
  · rw [hold, steady.hold]; rfl
  · have gone := recallOwn_recalled (s := v) bid landing 1 none
    rw [own, link, fifo, record_congr records]
    exact ⟨gone.own, gone.record, gone.outbox, gone.fifo⟩
  · obtain ⟨f, r, -⟩ := stands (fun o held => absurd (none.symm.trans held) (by simp))
    exact ⟨f, r⟩
  · obtain ⟨f, -, b⟩ := stands (fun o' held => .inl (by cases bid.symm.trans held; exact fired))
    exact ⟨b.trans bid, f⟩
  · have back := recallOwn_held 1 v o bid
    have quiet := recallOwn_queued_fifo (s := v) bid queued live
    rw [records, own, link, fifo]
    refine ⟨?_, fun waits => ?_, fun sends => ?_, fun h => quiet h 1⟩
    · by_cases waits : v.bidWaits
      · exact (back.waiting queued live waits).2.1
      · exact (back.sending queued live waits).2.1
    · obtain ⟨a, -, c, d⟩ := back.waiting queued live waits
      exact ⟨a, d, c⟩
    · obtain ⟨a, -, c⟩ := back.sending queued live sends
      exact ⟨a, c⟩

/-- A host command that ends the step on a state keeps of it what the step's end keeps. -/
theorem answer_finish_settled (s : State) (u : State) : KeepsSettled u (answer s .ok [] (finish u)) := { finish_keeps u with }

/-! ## PURGE_COMMAND (R187) -/

theorem takesFirst_of_room {s : State} (room : s.roomFirst) : s.takesFirst = true := by
  have free : s.link.outbox.length + s.link.reserved < Config.outboxCapacity := room
  simp [State.takesFirst, free]

theorem purgeCommand_taken {s : State} (free : s.port.held = false) (acting : s.station = .joining ∨ s.station = .active) :
    exec .purgeCommand s =
      .next (answer s (if s.takesFirst then .ok else .full) [] (finish (enqueue .purge s))) :=
  congrArg Host.Outcome.next ((transact_taken free _).trans (if_pos acting))

theorem purgeCommand_queues (s : State) (free : s.port.held = false) (acting : s.station = .joining ∨ s.station = .active) :
    ∃ t, exec .purgeCommand s = .next t
      ∧ t.port.last = (if s.takesFirst = true then .ok else .full)
      ∧ (s.roomFirst → t.port.last = .ok ∧ Entry.fresh .purge ∈ t.link.outbox ∧ t.fifo = s.fifo)
      ∧ t.track.records = s.track.records
      ∧ SameBut ([.port, .fifo] ++ settlingBlocks) s t := by
  have records : (finish (enqueue .purge s)).track.records = s.track.records := by
    rw [finish_track_records, enqueue_records]
  refine ⟨_, purgeCommand_taken free acting, rfl, fun room => ?_, records, ?_⟩
  · have queued : QueuedFirst .purge s (enqueue .purge s) := enqueueFirst_queued room
    have told : (finish (enqueue .purge s)).fifo = s.fifo := by
      rw [finish_fifo]
      exact queued.frame .fifo (by decide)
    have stands := mem_finish_outbox queued.mem
    exact ⟨if_pos (takesFirst_of_room room), stands, told⟩
  · exact ((enqueue_frame .purge s).then (finish_frame _) (n := [.port, .fifo] ++ settlingBlocks) (by decide) (by decide)).then
      (answer_frame _ _ _ _) (by decide) (by decide)

/-- Settles O50: HOLD from the host is the recall of a cause that joins, and PURGE a message of class 0. -/
theorem holdAndPurgeCommands : Obligations.HoldAndPurgeCommands := by
  refine ⟨holdRequested_joins, fun s free stood => ?_, fun s free => ?_, purgeCommand_queues, fun s free idle => ?_⟩
  · have stands : holdJoin .operator s = s := holdJoin_stands stood
    rw [holdRequested_taken free, stands]
    exact ⟨_, rfl, rfl, answer_finish_settled s s,
      (finish_frame s).then (answer_frame _ _ _ _) (by decide) (by decide)⟩
  · refine ⟨_, _, holdReleased_taken free, rfl, rfl, answer_finish_settled s _, ?_⟩
    exact ((holdLeave_frame .operator s).then (finish_frame _) (n := .port :: settlingBlocks) (by decide) (by decide)).then
      (answer_frame _ _ _ _) (by decide) (by decide)
  · have refused : ¬ (s.station = .joining ∨ s.station = .active) := by
      rcases idle with h | h <;> simp [h]
    exact ⟨refuse .wrongState s, congrArg Host.Outcome.next ((transact_taken free _).trans (if_neg refused)), rfl,
      refuse_frame _ _⟩

end Sys2Proof.Machine
end

section
/-! The obligation of the slot grid. -/
namespace Sys2Proof.Machine

/-! ## SLOT_START and BID_ENTERS_OUTBOX (R151, R153, R155) -/

/-- The oldest WAITING entry of a slot is the one that becomes SENDING; every other entry keeps its place (R151). -/
theorem startEntry_split {s : State} {slot : Nat} {e : Entry} : ∀ {l : List Entry},
    l.find? (fun x => !x.sending && s.slotOf x.msg == slot) = some e →
    ∃ before after, l = before ++ e :: after ∧ (∀ x ∈ before, x.sending = true ∨ s.slotOf x.msg ≠ slot)
      ∧ s.startEntry slot l = before ++ { e with sending := true } :: after
  | [], h => by cases h
  | x :: l, h => by
    unfold State.startEntry
    by_cases here : (!x.sending && s.slotOf x.msg == slot) = true
    · rw [List.find?_cons, here] at h
      cases h
      exact ⟨[], l, rfl, nofun, if_pos here⟩
    · rw [List.find?_cons, Bool.eq_false_iff.mpr here] at h
      obtain ⟨before, after, split, earlier, started⟩ := startEntry_split h
      refine ⟨x :: before, after, by rw [split]; rfl, ?_, ?_⟩
      · rintro y (_ | ⟨_, mem⟩)
        · cases busy : x.sending
          · exact .inr (by simpa [busy] using here)
          · exact .inl rfl
        · exact earlier y mem
      · rw [if_neg here, started]
        rfl

/-- The slot a station takes for a message, and so the entry that becomes SENDING, follow from its number and from the last
sender alone (R151). -/
theorem startEntry_congr {s t : State} (slots : ∀ m, t.slotOf m = s.slotOf m) (slot : Nat) :
    ∀ l, t.startEntry slot l = s.startEntry slot l
  | [] => rfl
  | x :: l => by
    unfold State.startEntry
    rw [slots, startEntry_congr slots slot l]

/-- A slot begins at its place in the grid or whole rounds later, and at the first such moment that is not past (R151). -/
theorem slotTime_spec (quiet slot now : Nat) : now ≤ slotTime quiet slot now
    ∧ ∃ m, slotTime quiet slot now = quiet + 8 * slot + 1024 * m ∧ (m = 0 ∨ slotTime quiet slot now < now + 1024) := by
  have round : Config.slotTime * Config.slots = 1024 := rfl
  have place : Config.slotTime = 8 := rfl
  unfold slotTime
  dsimp only
  rw [round, place]
  split
  · exact ⟨by omega, 0, by omega, .inl rfl⟩
  · refine ⟨by omega, (now - (quiet + 8 * slot) + 1024 - 1) / 1024, by omega, .inr (by omega)⟩

theorem slotStart_begins (s : State) (slot : Fin 128) (q : Nat) (e : Entry) (quiet : s.link.quiet = some q)
    (waiting : s.waitingFor slot.val = some e) (acting : s.station = .joining ∨ s.station = .active) (still : s.sending = none) :
    ∃ t, exec (.slotStart slot) s = .next t
      ∧ e ∈ s.link.outbox ∧ e.sending = false ∧ s.slotOf e.msg = slot.val
      ∧ t.sending = some { e with sending := true }
      ∧ t.link.outbox.length = s.link.outbox.length
      ∧ (∃ before after, s.link.outbox = before ++ e :: after
          ∧ (∀ x ∈ before, x.sending = true ∨ s.slotOf x.msg ≠ slot.val)
          ∧ t.link.outbox = before ++ { e with sending := true } :: after)
      ∧ t.link.quiet = none
      ∧ t.link.frame = frameOf e.msg.kind s.number (e.msg.payload s.run s.line.count)
      ∧ t.link.waitingBid = s.link.waitingBid ∧ t.link.lastSender = s.link.lastSender
      ∧ t.link.health = s.link.health ∧ t.link.spoil = s.link.spoil ∧ t.link.listenFrom = s.link.listenFrom
      ∧ t.link.began = t.now
      ∧ s.now ≤ t.now ∧ (∃ m, t.now = q + 8 * slot.val + 1024 * m ∧ (m = 0 ∨ t.now < s.now + 1024))
      ∧ SameBut [.now, .line, .link] s t := by
  let time := slotTime q slot.val s.now
  let u := advanceTo time s
  obtain ⟨notPast, grid⟩ := slotTime_spec q slot.val s.now
  have now : u.now = time := (advanceTo_now time s).trans (Nat.max_eq_right notPast)
  have link : u.link = s.link := advanceTo_link time s
  have kept : ∀ {α : Type} (f : LinkController → α), f u.link = f s.link := fun f => congrArg f link
  have run : u.run = s.run := advanceTo_run time s
  have count : u.line.count = s.line.count := advanceTo_count time s
  have number : u.number = s.number := by
    unfold State.number
    rw [run]
  have slots : ∀ m, u.slotOf m = s.slotOf m := fun m => by
    unfold State.slotOf
    rw [link, number]
  have may : s.mayBegin = true := by
    unfold State.mayBegin
    rcases acting with h | h <;> simp [h, still]
  have row : exec (.slotStart slot) s = .next (beginAttempt e slot.val u) := by
    simp [exec, execSlotStart, quiet, waiting, may, u, time]
  have found := List.find?_some waiting
  simp only [Bool.and_eq_true, Bool.not_eq_true', beq_iff_eq] at found
  obtain ⟨before, after, split, earlier, started⟩ := startEntry_split waiting
  have outbox : (beginAttempt e slot.val u).link.outbox = before ++ { e with sending := true } :: after := by
    show u.startEntry slot.val u.link.outbox = _
    rw [startEntry_congr slots, link, started]
  have sent : (beginAttempt e slot.val u).sending = some { e with sending := true } := by
    unfold State.sending
    rw [outbox]
    rw [sending_none_iff, split] at still
    have none : before.find? (fun x => x.sending) = none := by
      simp only [List.find?_eq_none]
      intro x mem
      simp [still x (List.mem_append_left _ mem)]
    rw [List.find?_append, none]
    rfl
  refine ⟨_, row, List.mem_of_find?_eq_some waiting, found.1, found.2, sent, ?_, ⟨before, after, split, earlier, outbox⟩, rfl, ?_,
    kept (·.waitingBid), kept (·.lastSender), kept (·.health), kept (·.spoil), kept (·.listenFrom), rfl, ?_, ?_, ?_⟩
  · rw [outbox, split]
    simp
  · show frameOf e.msg.kind u.number (e.msg.payload u.run u.line.count) = _
    rw [number, run, count]
  · exact now ▸ notPast
  · exact now ▸ grid
  · exact (advanceTo_frame time s).then (setLink_frame _ _) (by decide) (by decide)

theorem slotOf_eq (s : State) (m : Msg) : s.slotOf m = 16 * (match m with
      | .recall _ | .void _ | .jam | .jamRelease | .purge => 0
      | .bid _ _ => 1
      | .seen _ _ _ | .missed _ _ | .stray _ _ => 2
      | .hail => 3) + s.number + (if s.link.lastSender = some s.number then 64 else 0) := by
  unfold State.slotOf
  cases m <;> rfl

theorem waitingFor_none_iff (s : State) (slot : Nat) :
    s.waitingFor slot = none ↔ ∀ x ∈ s.link.outbox, x.sending = true ∨ s.slotOf x.msg ≠ slot := by
  unfold State.waitingFor
  simp [or_iff_not_imp_left]

/-- Settles O43: the entry found for the slot is the one that `startEntry` marks, at the first such slot of the grid. -/
theorem slotStartSendsEntry : Obligations.SlotStartSendsEntry := by
  refine ⟨slotStart_begins, fun s slot => rfl, slotOf_eq, waitingFor_none_iff, fun s m waiting room => ?_⟩
  refine ⟨s.setLink { s.link with outbox := s.link.outbox ++ [.fresh m], waitingBid := none }, ?_, rfl, setLink_frame _ _⟩
  simp [exec, execBidEntersOutbox, waiting, room]

end Sys2Proof.Machine
end

section
/-! The obligation of the encodings (R26, R153, R164, R193). -/
namespace Sys2Proof.Machine

/-! ## Numbers in bytes (R193) -/

theorem be_length (k n : Nat) : (be k n).length = k := by
  induction k with
  | zero => rfl
  | succ k ih => simp [be, ih]

/-- A number of 16 bits is its two bytes. -/
theorem twoBytes (n : Nat) : BitVec.ofNat 8 (n / 256) ++ BitVec.ofNat 8 n = BitVec.ofNat 16 n := by
  apply BitVec.eq_of_toNat_eq
  rw [BitVec.toNat_append, ← Nat.shiftLeft_add_eq_or_of_lt (BitVec.isLt _)]
  simp only [BitVec.toNat_ofNat, Nat.shiftLeft_eq]
  omega

/-- A number of 24 bits is its three bytes. -/
theorem threeBytes (n : Nat) : BitVec.ofNat 8 (n / 65536) ++ (BitVec.ofNat 8 (n / 256) ++ BitVec.ofNat 8 n) = BitVec.ofNat 24 n := by
  rw [twoBytes]
  apply BitVec.eq_of_toNat_eq
  rw [BitVec.toNat_append, ← Nat.shiftLeft_add_eq_or_of_lt (BitVec.isLt _)]
  simp only [BitVec.toNat_ofNat, Nat.shiftLeft_eq]
  omega

theorem halves_append (x : BitVec 16) : BitVec.ofNat 8 (x.toNat / 256) ++ x.setWidth 8 = x := by
  have := twoBytes x.toNat
  rwa [BitVec.ofNat_toNat, BitVec.ofNat_toNat, BitVec.setWidth_eq] at this

theorem be_two (n : Nat) : be 2 n = [BitVec.ofNat 8 (n / 256), BitVec.ofNat 8 n] := by simp [be]

theorem be_three (n : Nat) : be 3 n = [BitVec.ofNat 8 (n / 65536), BitVec.ofNat 8 (n / 256), BitVec.ofNat 8 n] := by simp [be]

/-- A signed value of 24 bits comes back from its two's complement. -/
theorem signed_three {n : Int} (low : -8388608 ≤ n) (high : n < 8388608) :
    (BitVec.ofNat 24 (n % (256 ^ 3 : Int)).toNat).toInt = n := by
  rw [BitVec.toInt_ofNat', Int.bmod_def]
  split <;> omega

/-- A nibble pair comes apart again. -/
theorem high_append (a b : BitVec 4) : (a ++ b).extractLsb' 4 4 = a := by decide +revert

theorem low_append (a b : BitVec 4) : (a ++ b).extractLsb' 0 4 = b := by decide +revert

/-! ## Descriptions and HAIL figures -/

theorem descBytes_eq (w : WireDesc) : descBytes w =
    [w.tag.owner, w.tag.seq, w.kind ++ w.lanes, w.article, BitVec.ofNat 8 (w.lot.toNat / 256), BitVec.ofNat 8 w.lot.toNat,
      BitVec.ofNat 8 (w.length.toNat / 256), BitVec.ofNat 8 w.length.toNat,
      BitVec.ofNat 8 (w.lead.toNat / 256), BitVec.ofNat 8 w.lead.toNat,
      BitVec.ofNat 8 (w.trail.toNat / 256), BitVec.ofNat 8 w.trail.toNat, w.reject ++ w.rank] := by
  simp [descBytes, be_two]

theorem descAt_descBytes (w : WireDesc) (rest : List Byte) : descAt (descBytes w ++ rest) = w := by
  simp [descBytes_eq, descAt, tagAt, byteAt, twoAt, highAt, lowAt, high_append, low_append, halves_append]

theorem kindOf_code (k : Kind) : kindOf k.code = some k := by cases k <;> rfl

theorem rankOf_code (r : Rank) : rankOf r.code = some r := by cases r <;> rfl

theorem rejectOf_code (j : Reject) : rejectOf (BitVec.ofNat 4 (rejectCode j)) = some j := by cases j <;> rfl

theorem roleOf_code (r : Role) : roleOf (BitVec.ofNat 8 r.code) = some r := by cases r <;> rfl

/-- A description within the bounds of R26 reads back as itself. -/
theorem readDesc_wire (lines : Lanes) (d : Desc) (owner : 1 ≤ d.tag.owner.toNat) (ownerMax : d.tag.owner.toNat ≤ 15)
    (lanes : d.lanes ≠ 0) (onLine : d.lanes &&& ~~~lines = 0) (length : 1 ≤ d.length) (lengthMax : d.length ≤ 18000)
    (lead : d.lead ≤ 12000) (trail : d.trail ≤ 12000) (article : d.article ≤ 63) (lot : d.lot < 65536)
    (stray : d.kind = .stray → d.reject = .stray) : readDesc lines d.wire = some d := by
  have lengthSize : d.length % 65536 = d.length := Nat.mod_eq_of_lt (by omega)
  have leadSize : d.lead % 65536 = d.lead := Nat.mod_eq_of_lt (by omega)
  have trailSize : d.trail % 65536 = d.trail := Nat.mod_eq_of_lt (by omega)
  have articleSize : d.article % 256 = d.article := Nat.mod_eq_of_lt (by omega)
  have lotSize : d.lot % 65536 = d.lot := Nat.mod_eq_of_lt lot
  have named : d.tag.owner ≠ 0 := fun h => by
    rw [h] at owner
    exact absurd owner (by decide)
  have fits : descInRange lines d.wire = true := by
    simp [descInRange, Desc.wire, ownerMax, onLine, lengthSize, leadSize, trailSize, articleSize, length, lengthMax,
      lead, trail, article, Config.maxLength, Config.maxGap]
    exact ⟨named, lanes⟩
  have kind : kindOf d.wire.kind = some d.kind := kindOf_code _
  have reject : rejectOf d.wire.reject = some d.reject := rejectOf_code _
  have rank : rankOf d.wire.rank = some d.rank := rankOf_code _
  have kept : (if d.kind = .stray then Reject.stray else d.reject) = d.reject := by
    split
    · exact (stray ‹_›).symm
    · rfl
  unfold readDesc
  simp only [kind, reject, rank, fits, if_true, kept]
  simp [Desc.wire, lengthSize, leadSize, trailSize, articleSize, lotSize]

/-- Settles O54: every field stands in its own bytes. -/
theorem descriptionRoundTrip : Obligations.DescriptionRoundTrip := by
  refine ⟨fun w rest => ⟨by simp [descBytes_eq], descAt_descBytes w rest⟩, readDesc_wire, fun w n m rest low high size => ?_,
    fun h role eyeLow eyeHigh cpm lines lotBreak strayGap settle => ?_⟩
  · refine ⟨?_, ?_, ?_⟩
    · rw [List.append_assoc]
      exact descAt_descBytes w _
    · have distance : (placedAt (descBytes w ++ beSigned 3 n ++ rest)).distance
          = BitVec.ofNat 24 (n % (256 ^ 3 : Int)).toNat := by
        rw [← threeBytes]
        simp [descBytes_eq, placedAt, threeAt, twoAt, byteAt, beSigned, be_three]
      rw [distance]
      exact signed_three (by omega) (by omega)
    · have measured : twoAt (descBytes w ++ beSigned 3 n ++ be 2 m) 16 = BitVec.ofNat 16 m := by
        rw [← twoBytes]
        simp [descBytes_eq, twoAt, byteAt, beSigned, be_three, be_two]
      rw [measuredAt, measured, BitVec.toNat_ofNat]
      exact Nat.mod_eq_of_lt size
  · obtain ⟨r, named⟩ := Option.ne_none_iff_exists'.mp role
    have bytes : hailBytes h = [BitVec.ofNat 8 r.code, h.lanes.setWidth 8,
        BitVec.ofNat 8 ((h.eye % (256 ^ 3 : Int)).toNat / 65536), BitVec.ofNat 8 ((h.eye % (256 ^ 3 : Int)).toNat / 256),
        BitVec.ofNat 8 (h.eye % (256 ^ 3 : Int)).toNat, BitVec.ofNat 8 (h.cpm / 256), BitVec.ofNat 8 h.cpm,
        BitVec.ofNat 8 h.lineLanes, BitVec.ofNat 8 (h.lotBreak / 256), BitVec.ofNat 8 h.lotBreak,
        BitVec.ofNat 8 (h.strayGap / 256), BitVec.ofNat 8 h.strayGap, BitVec.ofNat 8 h.settle] := by
      simp [hailBytes, named, beSigned, be_three, be_two]
    refine ⟨by rw [bytes]; rfl, ?_⟩
    have lanes : (h.lanes.setWidth 8).extractLsb' 0 4 = h.lanes := by
      generalize h.lanes = l
      decide +revert
    have read : hailAt (hailBytes h) =
      { role := BitVec.ofNat 8 r.code, lanes := h.lanes
        eye := BitVec.ofNat 24 (h.eye % (256 ^ 3 : Int)).toNat, cpm := BitVec.ofNat 16 h.cpm
        lineLanes := BitVec.ofNat 8 h.lineLanes, lotBreak := BitVec.ofNat 16 h.lotBreak
        strayGap := BitVec.ofNat 16 h.strayGap, settle := BitVec.ofNat 8 h.settle } := by
      rw [bytes]
      simp only [hailAt, lowAt, threeAt, twoAt, byteAt, List.getD_cons_zero, List.getD_cons_succ, twoBytes, lanes]
      rw [← threeBytes, twoBytes]
    rw [read]
    unfold readHail
    rw [signed_three eyeLow eyeHigh]
    simp [roleOf_code, ← named, Nat.mod_eq_of_lt, cpm, lines, lotBreak, strayGap, settle]

end Sys2Proof.Machine
end

section
/-! The obligations of the frame check and of the damaged frame (R145 to R151). -/
namespace Sys2Proof.Machine

/-! ## The check value (R146)

The register after a bit is linear in the register and the bit, so two inputs that differ in one byte differ in their check
value: the difference of the two registers is not zero after that byte, and no byte after it makes it zero. -/

theorem xor_exchange (x y z : BitVec 16) : x ^^^ (y ^^^ z) = y ^^^ (x ^^^ z) := by
  rw [← BitVec.xor_assoc, BitVec.xor_comm x y, BitVec.xor_assoc]

theorem crcBit_xor (r r' : BitVec 16) (b b' : Bool) : crcBit (r ^^^ r') (b ^^ b') = crcBit r b ^^^ crcBit r' b' := by
  have shifted : (r ^^^ r') <<< 1 = r <<< 1 ^^^ r' <<< 1 := BitVec.shiftLeft_xor_distrib _ _ _
  unfold crcBit
  rw [BitVec.msb_xor, shifted]
  generalize r <<< 1 = x
  generalize r' <<< 1 = y
  cases b <;> cases b' <;> cases r.msb <;> cases r'.msb <;> simp [BitVec.xor_assoc, xor_exchange, BitVec.xor_comm]

theorem crcByte_xor (r r' : BitVec 16) (b b' : Byte) : crcByte (r ^^^ r') (b ^^^ b') = crcByte r b ^^^ crcByte r' b' := by
  simp only [crcByte, List.foldl_cons, List.foldl_nil, BitVec.getLsbD_xor, crcBit_xor]

/-- A bit of zeros brings no register but zero to zero. -/
theorem crcBit_eq_zero {r : BitVec 16} (h : crcBit r false = 0) : r = 0 := by
  unfold crcBit at h
  split at h
  · rename_i low
    have small : r.toNat < 32768 := by
      have := BitVec.msb_eq_decide r
      rw [← low] at this
      simpa using this
    apply BitVec.eq_of_toNat_eq
    have := congrArg BitVec.toNat h
    simp only [BitVec.toNat_shiftLeft, Nat.shiftLeft_eq] at this
    simp at this ⊢
    omega
  · have odd := congrArg (fun x => x.getLsbD 0) h
    simp at odd

theorem crcByte_eq_zero {r : BitVec 16} (h : crcByte r 0 = 0) : r = 0 := by
  simp only [crcByte, List.foldl_cons, List.foldl_nil] at h
  exact crcBit_eq_zero (crcBit_eq_zero (crcBit_eq_zero (crcBit_eq_zero (crcBit_eq_zero (crcBit_eq_zero
    (crcBit_eq_zero (crcBit_eq_zero h)))))))

theorem byte_eq_zero_of_crc : ∀ b : Byte, crcByte 0 b = 0 → b = 0 := by decide

theorem crcByte_left_injective {r r' : BitVec 16} {b : Byte} (h : crcByte r b = crcByte r' b) : r = r' := by
  refine BitVec.xor_eq_zero_iff.mp (crcByte_eq_zero ?_)
  have := crcByte_xor r r' b b
  rwa [h, BitVec.xor_self, BitVec.xor_self] at this

theorem crcByte_right_injective {r : BitVec 16} {b b' : Byte} (h : crcByte r b = crcByte r b') : b = b' := by
  refine BitVec.xor_eq_zero_iff.mp (byte_eq_zero_of_crc _ ?_)
  have := crcByte_xor r r b b'
  rwa [h, BitVec.xor_self, BitVec.xor_self] at this

theorem foldl_crc_injective (l : List Byte) : ∀ {r r' : BitVec 16}, l.foldl crcByte r = l.foldl crcByte r' → r = r' := by
  induction l with
  | nil => exact fun h => h
  | cons b l ih => exact fun h => crcByte_left_injective (ih h)

/-- One changed byte changes the check value (R146). -/
theorem crc_changed {before after : List Byte} {b b' : Byte} (h : crc (before ++ b :: after) = crc (before ++ b' :: after)) :
    b = b' := by
  unfold crc at h
  rw [List.foldl_append, List.foldl_append] at h
  exact crcByte_right_injective (foldl_crc_injective after h)

/-! ## Judging a frame (R149) -/

theorem kindNamed_value (k : MsgKind) : kindNamed (kindValue k) = some k := by cases k <;> rfl

theorem kindNamed_iff {n : Nat} {k : MsgKind} : kindNamed n = some k ↔ kindValue k = n := by
  constructor
  · intro h
    unfold kindNamed at h
    split at h <;> cases h <;> rfl
  · rintro rfl
    exact kindNamed_value k

theorem firstLowStop_sound (l : List Byte) : firstLowStop (l.map (fun x => (x, true))) = none := by
  induction l with
  | nil => rfl
  | cons b l ih => simp [firstLowStop, ih]

theorem firstLowStop_at (l : List Byte) (b : Byte) (rest : List (Byte × Bool)) :
    firstLowStop (l.map (fun x => (x, true)) ++ (b, false) :: rest) = some (l.length + 1) := by
  induction l with
  | nil => rfl
  | cons c l ih => simp [firstLowStop, ih]

/-- A frame with a sound header and a sound length byte is judged by its payload and CRC (R149). -/
theorem judge_body {k : MsgKind} {header len : Byte} (kind : kindValue k = header.toNat / 16) (sender : header.toNat % 16 ≠ 0)
    (length : len.toNat = payloadLength k) (l : List (Byte × Bool)) :
    judge ((0xB6, true) :: (header, true) :: (len, true) :: l) = judgeBody header len l := by
  simp [judge, syncByte, ← kind, kindNamed_value, sender, length]

theorem halves_injective {a a' d d' : Byte} (h : a ++ d = a' ++ d') : a = a' ∧ d = d' := by
  constructor
  · rw [← BitVec.extractLsb'_append_eq_left (a := a) (b := d), h, BitVec.extractLsb'_append_eq_left]
  · rw [← BitVec.extractLsb'_append_eq_right (a := a) (b := d), h, BitVec.extractLsb'_append_eq_right]

/-- The two bytes of a check value are equal where the values are. -/
theorem twoAt_eq_iff (body : List Byte) (n : Nat) (long : body.length = n + 2) (c : BitVec 16) :
    body.drop n = be 2 c.toNat ↔ twoAt body n = c := by
  obtain ⟨x, y, two⟩ : ∃ x y, body.drop n = [x, y] := List.length_eq_two.mp (by rw [List.length_drop]; omega)
  have first : byteAt body n = x := by
    have : (body.drop n)[0]? = some x := by rw [two]; rfl
    rw [List.getElem?_drop] at this
    simp [byteAt, List.getD_eq_getElem?_getD, show body[n]? = some x from this]
  have second : byteAt body (n + 1) = y := by
    have : (body.drop n)[1]? = some y := by rw [two]; rfl
    rw [List.getElem?_drop] at this
    simp [byteAt, List.getD_eq_getElem?_getD, this]
  have split : BitVec.ofNat 8 (c.toNat / 256) ++ BitVec.ofNat 8 c.toNat = c := by
    rw [twoBytes, BitVec.ofNat_toNat, BitVec.setWidth_eq]
  unfold twoAt
  rw [two, be_two, first, second]
  constructor
  · intro h
    obtain ⟨rfl, rfl⟩ : x = _ ∧ y = _ := by simpa using h
    exact split
  · intro h
    obtain ⟨rfl, rfl⟩ := halves_injective (h.trans split.symm)
    rfl

theorem map_fst_sound (l : List Byte) : (l.map (fun x => (x, true))).map Prod.fst = l := by
  rw [List.map_map]
  exact List.map_id l

/-- A whole frame with sound stop bits is judged by its check value (R146, R149). -/
theorem judgeBody_whole (header len : Byte) (body : List Byte) (rest : List (Byte × Bool)) (whole : body.length = len.toNat + 2) :
    judgeBody header len (body.map (fun x => (x, true)) ++ rest) =
      if twoAt body len.toNat = crc (header :: len :: body.take len.toNat) then none
      else some { fault := .crc, bytes := body.length + 3, broken := false } := by
  have all : (body.map (fun x => (x, true)) ++ rest).take (len.toNat + 2) = body.map (fun x => (x, true)) := by
    rw [← whole, ← List.length_map (fun x => (x, true)), List.take_left]
  have payload : ((body.map (fun x => (x, true)) ++ rest).take len.toNat).map Prod.fst = body.take len.toNat := by
    rw [List.take_append_of_le_length (by simp [whole]), List.map_take, map_fst_sound]
  have check : ((body.map (fun x => (x, true))).drop len.toNat).map Prod.fst = body.drop len.toNat := by
    rw [List.map_drop, map_fst_sound]
  have long : ¬ (body.map (fun x => (x, true)) ++ rest).length < len.toNat + 2 := by simp [whole]
  unfold judgeBody
  simp only [all, payload, check, firstLowStop_sound, if_neg long, twoAt_eq_iff body len.toNat whole]
  rw [whole, Nat.add_comm 3]

theorem judge_whole {k : MsgKind} {header len : Byte} (kind : kindValue k = header.toNat / 16) (sender : header.toNat % 16 ≠ 0)
    (length : len.toNat = payloadLength k) (body : List Byte) (rest : List (Byte × Bool)) (whole : body.length = len.toNat + 2) :
    judge (([0xB6, header, len] ++ body).map (fun x => (x, true)) ++ rest) =
      if twoAt body len.toNat = crc (header :: len :: body.take len.toNat) then none
      else some { fault := .crc, bytes := body.length + 3, broken := false } :=
  (judge_body kind sender length _).trans (judgeBody_whole header len body rest whole)

/-- An undamaged frame has the sync byte, a header of a kind and a sender, and the length byte of its kind (R149). -/
theorem judge_sound {sync header len : Byte} {l : List (Byte × Bool)}
    (h : judge ((sync, true) :: (header, true) :: (len, true) :: l) = none) :
    sync = 0xB6 ∧ header.toNat % 16 ≠ 0 ∧ ∃ k, kindValue k = header.toNat / 16 ∧ len.toNat = payloadLength k := by
  unfold judge at h
  split at h
  · contradiction
  · rename_i heads
    cases heads
    simp only [syncByte] at h
    split at h
    · cases h
    · rename_i sound
      simp only [Bool.true_eq_false, if_false] at h
      split at h
      · cases h
      · rename_i k named
        split at h
        · cases h
        · split at h
          · cases h
          · refine ⟨?_, ‹_›, k, kindNamed_iff.mp named, not_not.mp ‹_›⟩
            simpa using sound

/-! ## The frame of a message (R145 to R147) -/

theorem payload_length (f : Figures) (count : Count) (m : Msg) : (m.payload f count).length = payloadLength m.kind := by
  cases m <;> simp [Msg.payload, payloadLength, Msg.kind, descBytes_eq, beSigned, be_length, hailBytes]

theorem kindValue_bounds (k : MsgKind) : 1 ≤ kindValue k ∧ kindValue k ≤ 10 := by cases k <;> decide

theorem payloadLength_le (k : MsgKind) : payloadLength k ≤ 18 := by cases k <;> decide

/-- The frame that a station numbered 1 to 15 writes: the header names the kind and the station, and the length byte the payload's
length (R145). -/
theorem frameOf_eq {k : MsgKind} {n : Nat} {payload : List Byte} (low : 1 ≤ n) (high : n ≤ 15)
    (length : payload.length = payloadLength k) :
    ∃ header len : Byte, kindValue k = header.toNat / 16 ∧ header.toNat % 16 ≠ 0 ∧ len.toNat = payloadLength k
      ∧ frameOf k n payload = [0xB6, header, len] ++ (payload ++ be 2 (crc (header :: len :: payload)).toNat) := by
  have value := kindValue_bounds k
  have size := payloadLength_le k
  have header : (BitVec.ofNat 8 (16 * kindValue k + n)).toNat = 16 * kindValue k + n := Nat.mod_eq_of_lt (by omega)
  have bytes : (BitVec.ofNat 8 payload.length).toNat = payload.length := Nat.mod_eq_of_lt (by omega)
  exact ⟨BitVec.ofNat 8 (16 * kindValue k + n), BitVec.ofNat 8 payload.length, by omega, by omega, by omega, rfl⟩

theorem frameOf_judged {k : MsgKind} {n : Nat} {payload : List Byte} (low : 1 ≤ n) (high : n ≤ 15)
    (length : payload.length = payloadLength k) :
    judge ((frameOf k n payload).map (fun b => (b, true))) = none ∧ (frameOf k n payload).length = payloadLength k + 5 := by
  obtain ⟨header, len, kind, sender, size, frame⟩ := frameOf_eq low high length
  rw [frame]
  have whole : (payload ++ be 2 (crc (header :: len :: payload)).toNat).length = len.toNat + 2 := by
    rw [List.length_append, be_length, size, length]
  constructor
  · have judged := judge_whole kind sender size _ [] whole
    rw [List.append_nil] at judged
    refine judged.trans (if_pos ?_)
    have fits : len.toNat = payload.length := size.trans length.symm
    rw [← twoAt_eq_iff _ _ whole, fits, List.take_left, List.drop_left]
  · rw [List.length_append, whole, size]
    simp
    omega

/-- One changed byte of the payload or of the CRC is found (R146, R149). -/
theorem judge_changed {before after : List Byte} {b b' : Byte} (long : 3 ≤ before.length) (other : b' ≠ b)
    (sound : judge ((before ++ b :: after).map (fun x => (x, true))) = none)
    (full : ∃ k, (before ++ b :: after).length = payloadLength k + 5 ∧
      before[1]?.map (fun x => x.toNat / 16) = some (kindValue k)) :
    judge ((before ++ b' :: after).map (fun x => (x, true))) ≠ none := by
  obtain ⟨sync, header, len, part, rfl⟩ : ∃ sync header len part, before = sync :: header :: len :: part := by
    match before, long with
    | sync :: header :: len :: part, _ => exact ⟨sync, header, len, part, rfl⟩
  obtain ⟨rfl, sender, k, kind, length⟩ := judge_sound sound
  obtain ⟨k', size, named⟩ := full
  have same : k' = k := by
    have : header.toNat / 16 = kindValue k' := by simpa using named
    have both := kindNamed_value k'
    rw [← this, ← kind, kindNamed_value] at both
    exact (Option.some.inj both).symm
  rw [same] at size
  have count : part.length + 1 + after.length = len.toNat + 2 := by
    simp only [List.length_append, List.length_cons] at size
    omega
  have judged : ∀ c : Byte, judge ((0xB6 :: header :: len :: part ++ c :: after).map (fun x => (x, true))) = none →
      twoAt (part ++ c :: after) len.toNat = crc (header :: len :: (part ++ c :: after).take len.toNat) := fun c h => by
    have whole := judge_whole kind sender length (part ++ c :: after) [] (by simp; omega)
    rw [List.append_nil] at whole
    by_contra wrong
    rw [if_neg wrong] at whole
    exact absurd (h.symm.trans whole) (by simp)
  intro changed
  have check := judged b sound
  have check' := judged b' changed
  rcases Nat.lt_or_ge part.length len.toNat with inside | inCheck
  · have take : ∀ c : Byte, (part ++ c :: after).take len.toNat = part ++ c :: after.take (len.toNat - part.length - 1) := fun c => by
      rw [List.take_append, List.take_of_length_le (by omega), List.take_cons (by omega)]
    have crcBytes : twoAt (part ++ b' :: after) len.toNat = twoAt (part ++ b :: after) len.toNat := by
      unfold twoAt byteAt
      simp only [List.getD_eq_getElem?_getD]
      rw [List.getElem?_append_right (by omega), List.getElem?_append_right (by omega), List.getElem?_append_right (by omega),
        List.getElem?_append_right (by omega)]
      obtain ⟨j, at1⟩ : ∃ j, len.toNat - part.length = j + 1 := ⟨len.toNat - part.length - 1, by omega⟩
      obtain ⟨i, at2⟩ : ∃ i, len.toNat + 1 - part.length = i + 1 := ⟨len.toNat - part.length, by omega⟩
      rw [at1, at2]
      rfl
    rw [take] at check check'
    exact other (crc_changed (before := header :: len :: part) (check'.symm.trans (crcBytes.trans check)))
  · have take : ∀ c : Byte, (part ++ c :: after).take len.toNat = part.take len.toNat := fun c =>
      List.take_append_of_le_length inCheck
    rw [take, ← twoAt_eq_iff _ _ (by simp; omega), List.drop_append_of_le_length inCheck] at check check'
    have rests : b' :: after = b :: after := List.append_cancel_left (check'.trans check.symm)
    exact other (List.cons.inj rests).1

/-- Settles O55: a frame is sound where its check value stands, and one changed byte changes one side of that equation. -/
theorem frameCheckFindsDamage : Obligations.FrameCheckFindsDamage :=
  ⟨fun f count m _ low high => frameOf_judged low high (payload_length f count m),
    fun _ _ _ _ long other sound full => judge_changed long other sound full⟩

end Sys2Proof.Machine
end

section
/-! The obligation of the damaged frame (R145 to R151). -/
namespace Sys2Proof.Machine

theorem takesFrame_iff (s : State) (start : Nat) : s.takesFrame start = true ↔
    s.running ∧ s.link.listenFrom ≤ start ∧ (s.sending = none ∨ start < s.link.began) := by
  simp [State.takesFrame, State.running, and_assoc]

/-- A frame that shows an error and is taken: the spoil pulse, and the grid after its spoil window (R149, R151). -/
theorem frameError_heard (s : State) (run : Run) (f : FoundFault) (found : judge run.bytes = some f) (running : s.running)
    (listens : s.link.listenFrom ≤ run.start) (free : s.sending = none ∨ run.start < s.link.began) :
    ∃ t, exec (.frameError run) s = .next t
      ∧ t.link = { s.link with
          spoil := if s.station = .fault then s.link.spoil
            else some { start := foundTime run.start f + 4, stop := foundTime run.start f + 16 }
          listenFrom := frameEnd run + 20
          quiet := some (frameEnd run + 40) }
      ∧ t.now = max s.now (frameEnd run) ∧ SameBut [.now, .line, .link] s t := by
  have taken : s.takesFrame run.start = true := (takesFrame_iff s _).mpr ⟨running, listens, free⟩
  have row : exec (.frameError run) s = .next (hearError run f s) := by
    simp [exec, execFrameError, found, taken]
  have pulse : s.spoilAt (foundTime run.start f) = if s.station = .fault then s.link.spoil
      else some { start := foundTime run.start f + 4, stop := foundTime run.start f + 16 } := by
    have apart : s.station = .joining ∨ s.station = .active ↔ ¬ s.station = .fault := by
      have : s.station ≠ .setup := running
      cases h : s.station <;> simp_all
    unfold State.spoilAt
    simp only [apart, ite_not]
    rfl
  refine ⟨_, row, ?_, advanceTo_now _ s, (advanceTo_frame _ s).then (setLink_frame _ _) (by decide) (by decide)⟩
  unfold hearError
  simp only [State.setLink_link, advanceTo_link, pulse]
  rfl

/-- The row of a run of bytes that the station does not take has no effect (R149). -/
theorem frameError_not_taken (s : State) (run : Run)
    (h : run.start < s.link.listenFrom ∨ (s.sending ≠ none ∧ s.link.began ≤ run.start)) : exec (.frameError run) s = .next s := by
  have missed : s.takesFrame run.start ≠ true := fun taken => by
    obtain ⟨-, listens, free⟩ := (takesFrame_iff s _).mp taken
    rcases h with early | ⟨busy, late⟩
    · omega
    · rcases free with none | before
      · exact busy none
      · omega
  show execFrameError run s = _
  unfold execFrameError
  split
  · exact if_neg missed
  · rfl

theorem frameEnd_of_length (start : Nat) (sync header len : Byte × Bool) (rest : List (Byte × Bool)) :
    frameEnd { start := start, bytes := sync :: header :: len :: rest } =
      (if len.1.toNat + 2 ≤ rest.length then start + 20 * (len.1.toNat + 5) else start + 20 * (rest.length + 3) + 4) := by
  unfold frameEnd fullLength
  dsimp only
  split <;> rename_i h <;> split at h <;> cases h <;> simp_all [Config.byteTime, Config.breakTime]

theorem frameEnd_of_short (start : Nat) (bytes : List (Byte × Bool)) (short : bytes.length < 3) :
    frameEnd { start := start, bytes := bytes } = start + 20 * bytes.length + 4 := by
  match bytes, short with
  | [], _ => rfl
  | [_], _ => rfl
  | [_, _], _ => rfl

/-- The frame of a kind ends where its length byte places its second CRC byte, whatever follows (R145). -/
theorem frameEnd_frameOf (start : Nat) (k : MsgKind) (n : Nat) (payload : List Byte) (rest : List (Byte × Bool)) (low : 1 ≤ n)
    (high : n ≤ 15) (length : payload.length = payloadLength k) :
    frameEnd { start := start, bytes := (frameOf k n payload).map (fun b => (b, true)) ++ rest }
      = start + 20 * (payloadLength k + 5) := by
  obtain ⟨header, len, -, -, size, frame⟩ := frameOf_eq low high length
  rw [frame]
  refine (frameEnd_of_length start (0xB6, true) (header, true) (len, true) _).trans ?_
  have whole : len.toNat + 2 ≤
      ((payload ++ be 2 (crc (header :: len :: payload)).toNat).map (fun b => (b, true)) ++ rest).length := by
    simp only [List.length_append, List.length_map, be_length]
    omega
  rw [← size]
  exact if_pos whole

theorem drivesSpoil_iff (s : State) (p : Pulse) (h : s.link.spoil = some p) :
    s.drivesSpoil = true ↔ p.start ≤ s.now ∧ s.now < p.stop := by
  simp [State.drivesSpoil, h]

/-- The errors of the sync byte, of the header and of the length byte, each at its place (R149). -/
theorem judge_head (header len : Byte) (rest : List (Byte × Bool)) :
    judge ((0xB6, false) :: rest) = some { fault := .framing, bytes := 1, broken := false } ∧
    judge [(0xB6, true)] = some { fault := .framing, bytes := 1, broken := true } ∧
    judge ((0xB6, true) :: (header, false) :: rest) = some { fault := .framing, bytes := 2, broken := false } ∧
    ((∀ k, kindValue k ≠ header.toNat / 16) ∨ header.toNat % 16 = 0 →
      judge ((0xB6, true) :: (header, true) :: rest) = some { fault := .length, bytes := 2, broken := false }) ∧
    (∀ k, kindValue k = header.toNat / 16 → header.toNat % 16 ≠ 0 →
      judge [(0xB6, true), (header, true)] = some { fault := .framing, bytes := 2, broken := true } ∧
      judge ((0xB6, true) :: (header, true) :: (len, false) :: rest)
        = some { fault := .framing, bytes := 3, broken := false } ∧
      (len.toNat ≠ payloadLength k →
        judge ((0xB6, true) :: (header, true) :: (len, true) :: rest)
          = some { fault := .length, bytes := 3, broken := false })) := by
  refine ⟨rfl, rfl, rfl, fun bad => ?_, fun k kind sender => ?_⟩
  · cases named : kindNamed (header.toNat / 16) with
    | none => simp [judge, syncByte, named]
    | some k =>
      have zero := bad.resolve_left (fun h => h k (kindNamed_iff.mp named))
      simp [judge, syncByte, named, zero]
  · have named : kindNamed (header.toNat / 16) = some k := kindNamed_iff.mpr kind
    refine ⟨?_, ?_, fun length => ?_⟩
    · simp [judge, syncByte, named, sender]
    · simp [judge, syncByte, named, sender]
    · simp [judge, syncByte, named, sender, length]

theorem judgeBody_low_stop (header len b : Byte) (body : List Byte) (rest : List (Byte × Bool))
    (short : body.length < len.toNat + 2) :
    judgeBody header len (body.map (fun x => (x, true)) ++ (b, false) :: rest)
      = some { fault := .framing, bytes := body.length + 4, broken := false } := by
  have first : (body.map (fun x => (x, true)) ++ (b, false) :: rest).take (len.toNat + 2)
      = body.map (fun x => (x, true)) ++ (b, false) :: rest.take (len.toNat + 2 - body.length - 1) := by
    rw [List.take_append, List.length_map, List.take_of_length_le (by simp; omega), List.take_cons (by omega)]
  unfold judgeBody
  simp only [first, firstLowStop_at]
  rw [Nat.add_comm, Nat.add_assoc]

theorem judgeBody_broken (header len : Byte) (body : List Byte) (short : body.length < len.toNat + 2) :
    judgeBody header len (body.map (fun x => (x, true)))
      = some { fault := .framing, bytes := body.length + 3, broken := true } := by
  have all : (body.map (fun x => (x, true))).take (len.toNat + 2) = body.map (fun x => (x, true)) :=
    List.take_of_length_le (by simp; omega)
  unfold judgeBody
  simp only [all, firstLowStop_sound, List.length_map, if_pos short]
  rw [Nat.add_comm]

/-- The errors behind a sound length byte: a low stop bit, a run that breaks off, and a wrong check value (R146, R149). -/
theorem judge_tail (k : MsgKind) (header len b : Byte) (body : List Byte) (rest : List (Byte × Bool))
    (kind : kindValue k = header.toNat / 16) (sender : header.toNat % 16 ≠ 0) (length : len.toNat = payloadLength k) :
    (body.length < len.toNat + 2 →
      judge (([0xB6, header, len] ++ body).map (fun x => (x, true)) ++ (b, false) :: rest)
        = some { fault := .framing, bytes := body.length + 4, broken := false } ∧
      judge (([0xB6, header, len] ++ body).map (fun x => (x, true)))
        = some { fault := .framing, bytes := body.length + 3, broken := true }) ∧
    (body.length = len.toNat + 2 →
      judge (([0xB6, header, len] ++ body).map (fun x => (x, true)) ++ rest)
        = if twoAt body len.toNat = crc (header :: len :: body.take len.toNat) then none
          else some { fault := .crc, bytes := body.length + 3, broken := false }) := by
  refine ⟨fun short => ⟨?_, ?_⟩, judge_whole kind sender length body rest⟩
  · exact (judge_body kind sender length _).trans (judgeBody_low_stop header len b body rest short)
  · exact (judge_body kind sender length _).trans (judgeBody_broken header len body short)

/-- Settles O44: the row of an error heard, where a frame ends, and the judgement byte by byte. -/
theorem damagedFrameSpoiled : Obligations.DamagedFrameSpoiled := by
  refine ⟨frameError_heard, frameError_not_taken, frameEnd_of_length, frameEnd_of_short, frameEnd_frameOf, drivesSpoil_iff,
    fun b stop rest other => ?_, fun start f => rfl, judge_head, judge_tail, fun s time running => ?_⟩
  · exact if_pos (.inl other)
  · refine ⟨restartGrid (advanceTo time s), if_neg running, ?_, advanceTo_now time s,
      (advanceTo_frame time s).then (setLink_frame _ _) (by decide) (by decide)⟩
    unfold restartGrid
    simp only [State.setLink_link, advanceTo_link, advanceTo_now]
    rfl

end Sys2Proof.Machine
end

section
/-! The obligation of CONFIGURE (R18, R177, R179, R180, R193). -/
namespace Sys2Proof.Machine

/-! ## The transaction of a CONFIGURE -/

theorem inSetup_taken {s : State} (free : s.port.held = false) (setup : s.station = .setup) (effect : State → State) :
    transact .taken (inSetup effect) s = effect s := by
  rw [transact_taken free, inSetup, if_pos setup]

theorem inSetup_refused {s : State} (free : s.port.held = false) (running : s.running) (effect : State → State) :
    transact .taken (inSetup effect) s = refuse .wrongState s := by
  rw [transact_taken free, inSetup, if_neg running]

theorem withData_enough {n : Nat} {data : List Byte} (h : n ≤ data.length) (effect : State → State) (s : State) :
    withData n data effect s = effect s := if_neg (Nat.not_lt.mpr h)

theorem withData_cut {n : Nat} {data : List Byte} (h : data.length < n) (effect : State → State) (s : State) :
    withData n data effect s = cutShort s := if_pos h

theorem cutShort_spec (s : State) :
    (cutShort s).port.cut = true ∧ (cutShort s).port.last = s.port.last ∧ SameBut [.port] s (cutShort s) :=
  ⟨rfl, rfl, setPort_frame _ _⟩

/-- A write that is taken: the store as the write makes it, and the port. -/
theorem take_store_frame (r : Result) (store : State → Store) (s : State) :
    SameBut [.store, .port] s (take r (fun t => t.setStore (store t)) s) :=
  (setStore_frame s _).then (answer_frame s r [] _) (by decide) (by decide)

/-! ## The three sections -/

theorem configureStation_taken (s : State) (data : List Byte) (free : s.port.held = false) (setup : s.station = .setup)
    (long : 26 ≤ data.length) :
    ∃ t, exec (.configureStation data) s = .next t
      ∧ t.store = { s.store with station := stationOf (stationAt data), written := true }
      ∧ t.port.last = (if stationExact (stationAt data) = true then .ok else .clamped) ∧ SameBut [.store, .port] s t := by
  refine ⟨writeStation (stationAt data) s, ?_, rfl, rfl, take_store_frame _ _ s⟩
  exact congrArg Host.Outcome.next ((inSetup_taken free setup _).trans (withData_enough long _ s))

theorem configureLine_taken (s : State) (data : List Byte) (free : s.port.held = false) (setup : s.station = .setup)
    (long : 17 ≤ data.length) :
    ∃ t, exec (.configureLine data) s = .next t
      ∧ t.store = { s.store with line := lineOf (lineAt data) }
      ∧ t.port.last = (if lineExact (lineAt data) = true then .ok else .clamped) ∧ SameBut [.store, .port] s t := by
  refine ⟨writeLine (lineAt data) s, ?_, rfl, rfl, take_store_frame _ _ s⟩
  exact congrArg Host.Outcome.next ((inSetup_taken free setup _).trans (withData_enough long _ s))

theorem namesArticle_iff (n : Nat) : namesArticle n = true ↔ 1 ≤ n ∧ n ≤ 63 := by simp [namesArticle]

theorem configureArticle_taken (s : State) (n : BitVec 7) (data : List Byte) (free : s.port.held = false)
    (setup : s.station = .setup) (low : 1 ≤ n.toNat) (high : n.toNat ≤ 63) (long : 14 ≤ data.length) :
    ∃ t, exec (.configureArticle n data) s = .next t
      ∧ t.store = { s.store with articles := s.store.articles.set (n.toNat - 1) (articleOf (articleAt data)) }
      ∧ t.port.last = (if articleExact (articleAt data) = true then .ok else .clamped) ∧ SameBut [.store, .port] s t := by
  refine ⟨writeArticle n.toNat (articleAt data) s, ?_, rfl, rfl, take_store_frame _ _ s⟩
  have named : namesArticle n.toNat = true := (namesArticle_iff _).mpr ⟨low, high⟩
  refine congrArg Host.Outcome.next ((inSetup_taken free setup _).trans ?_)
  rw [if_pos named, withData_enough long]

theorem configureArticle_bad (s : State) (n : BitVec 7) (data : List Byte) (free : s.port.held = false)
    (setup : s.station = .setup) (bad : n.toNat = 0 ∨ 63 < n.toNat) :
    ∃ t, exec (.configureArticle n data) s = .next t ∧ t.port.last = .badArticle ∧ SameBut [.port] s t := by
  refine ⟨refuse .badArticle s, ?_, rfl, refuse_frame _ _⟩
  have unnamed : ¬ namesArticle n.toNat = true := fun h => by
    have := (namesArticle_iff _).mp h
    omega
  refine congrArg Host.Outcome.next ((inSetup_taken free setup _).trans ?_)
  rw [if_neg unnamed]

/-- A CONFIGURE with too few data bytes is cut short (R177). -/
theorem configure_cut (s : State) (c : Instr) (data : List Byte) (free : s.port.held = false) (setup : s.station = .setup)
    (short : (c = .configureStation data ∧ data.length < 26) ∨ (c = .configureLine data ∧ data.length < 17) ∨
      (∃ n : BitVec 7, c = .configureArticle n data ∧ 1 ≤ n.toNat ∧ n.toNat ≤ 63 ∧ data.length < 14)) :
    ∃ t, exec c s = .next t ∧ t.port.cut = true ∧ t.port.last = s.port.last ∧ SameBut [.port] s t := by
  refine ⟨cutShort s, ?_, cutShort_spec s⟩
  rcases short with ⟨rfl, few⟩ | ⟨rfl, few⟩ | ⟨n, rfl, low, high, few⟩
  · exact congrArg Host.Outcome.next ((inSetup_taken free setup _).trans (withData_cut few _ s))
  · exact congrArg Host.Outcome.next ((inSetup_taken free setup _).trans (withData_cut few _ s))
  · have named : namesArticle n.toNat = true := (namesArticle_iff _).mpr ⟨low, high⟩
    refine congrArg Host.Outcome.next ((inSetup_taken free setup _).trans ?_)
    rw [if_pos named, withData_cut few]

/-- CONFIGURE is taken in SETUP alone (R179). -/
theorem configure_refused (s : State) (c : Instr) (free : s.port.held = false) (running : s.running)
    (configure : (∃ w, c = .configureStation w) ∨ (∃ w, c = .configureLine w) ∨ (∃ n w, c = .configureArticle n w)) :
    ∃ t, exec c s = .next t ∧ t.port.last = .wrongState ∧ SameBut [.port] s t := by
  refine ⟨refuse .wrongState s, ?_, rfl, refuse_frame _ _⟩
  rcases configure with ⟨w, rfl⟩ | ⟨w, rfl⟩ | ⟨n, w, rfl⟩ <;>
    exact congrArg Host.Outcome.next (inSetup_refused free running _)

/-! ## The ranges (R18, R180) -/

theorem clampNat_eq_iff {lo hi n : Nat} (order : lo ≤ hi) : clampNat lo hi n = n ↔ lo ≤ n ∧ n ≤ hi := by
  unfold clampNat
  omega

theorem clampInt_eq_iff {lo hi n : Int} (order : lo ≤ hi) : clampInt lo hi n = n ↔ lo ≤ n ∧ n ≤ hi := by
  unfold clampInt
  omega

theorem roleOf_isSome_iff (b : Byte) : (roleOf b).isSome = true ↔ 1 ≤ b.toNat ∧ b.toNat ≤ 3 := by
  unfold roleOf
  split
  all_goals simp_all
  omega

theorem roleOf_getD (b : Byte) : (roleOf b).getD .feed =
    if b.toNat = 2 then .throat else if b.toNat = 3 then .outfeed else .feed := by
  unfold roleOf
  split <;> simp_all

theorem stationOf_ranges (w : StationWrite) :
    stationOf w =
      { number := max 1 (min 15 w.number.toNat)
        role := if w.role.toNat = 2 then .throat else if w.role.toNat = 3 then .outfeed else .feed
        lanes := w.lanes.setWidth 4
        eye := max (-20000) (min 60000 w.eye.toInt)
        landing := min 2000 w.landing.toNat
        actuator := min 500 w.actuator.toNat
        dead := min 50 w.dead.toNat
        pulse := max 20 (min 500 w.pulse.toNat)
        filter := max 5 (min 50 w.filter.toNat)
        tolerance := max 10 (min 500 w.tolerance.toNat)
        reverse := max 20 (min 2000 w.reverse.toNat)
        sample := max 50 (min 500 w.sample.toNat)
        curtain := max 300 (min 4000 w.curtain.toNat)
        streams := w.streams
        mode := if w.mode.toNat = 1 then .overwrite else .blocking
        watermark := max 1 (min 32 w.watermark.toNat) } := by
  have mode : w.mode = 1#8 ↔ w.mode.toNat = 1 := ⟨fun h => by rw [h]; rfl, fun h => BitVec.eq_of_toNat_eq h⟩
  unfold stationOf
  simp [clampNat, clampInt, roleOf_getD, mode]

theorem stationExact_iff (w : StationWrite) :
    stationExact w = true ↔ (1 ≤ w.number.toNat ∧ w.number.toNat ≤ 15) ∧ (1 ≤ w.role.toNat ∧ w.role.toNat ≤ 3)
      ∧ (-20000 ≤ w.eye.toInt ∧ w.eye.toInt ≤ 60000) ∧ w.landing.toNat ≤ 2000 ∧ w.actuator.toNat ≤ 500
      ∧ w.dead.toNat ≤ 50 ∧ (20 ≤ w.pulse.toNat ∧ w.pulse.toNat ≤ 500) ∧ (5 ≤ w.filter.toNat ∧ w.filter.toNat ≤ 50)
      ∧ (10 ≤ w.tolerance.toNat ∧ w.tolerance.toNat ≤ 500) ∧ (20 ≤ w.reverse.toNat ∧ w.reverse.toNat ≤ 2000)
      ∧ (50 ≤ w.sample.toNat ∧ w.sample.toNat ≤ 500) ∧ (300 ≤ w.curtain.toNat ∧ w.curtain.toNat ≤ 4000)
      ∧ w.mode.toNat ≤ 1 ∧ (1 ≤ w.watermark.toNat ∧ w.watermark.toNat ≤ 32) := by
  unfold stationExact stationOf
  simp [clampNat_eq_iff, clampInt_eq_iff, roleOf_isSome_iff, and_assoc]

theorem lineOf_ranges (w : LineWrite) :
    lineOf w =
      { cpm := max 500 (min 4000 w.cpm.toNat)
        lanes := max 1 (min 4 w.lanes.toNat)
        lotBreak := min 5000 w.lotBreak.toNat
        strayGap := min 3000 w.strayGap.toNat
        settle := max 5 (min 50 w.settle.toNat)
        horizon := max 2000 (min 60000 w.horizon.toNat)
        join := max 2000 (min 60000 w.join.toNat)
        jam := max 100 (min 3000 w.jam.toNat)
        stack := max 200 (min 3000 w.stack.toNat)
        limit := max 1 (min 15 w.limit.toNat) } := by
  unfold lineOf
  simp [clampNat]

theorem lineExact_iff (w : LineWrite) :
    lineExact w = true ↔ (500 ≤ w.cpm.toNat ∧ w.cpm.toNat ≤ 4000) ∧ (1 ≤ w.lanes.toNat ∧ w.lanes.toNat ≤ 4)
      ∧ w.lotBreak.toNat ≤ 5000 ∧ w.strayGap.toNat ≤ 3000 ∧ (5 ≤ w.settle.toNat ∧ w.settle.toNat ≤ 50)
      ∧ (2000 ≤ w.horizon.toNat ∧ w.horizon.toNat ≤ 60000) ∧ (2000 ≤ w.join.toNat ∧ w.join.toNat ≤ 60000)
      ∧ (100 ≤ w.jam.toNat ∧ w.jam.toNat ≤ 3000) ∧ (200 ≤ w.stack.toNat ∧ w.stack.toNat ≤ 3000)
      ∧ (1 ≤ w.limit.toNat ∧ w.limit.toNat ≤ 15) := by
  unfold lineExact lineOf
  simp [clampNat_eq_iff, and_assoc]

theorem articleOf_ranges (w : ArticleWrite) :
    articleOf w =
      { enabled := w.flags.getLsbD 0
        fullWidth := w.flags.getLsbD 1
        length := max 150 (min 4500 w.length.toNat)
        width := max 100 (min 4000 w.width.toNat)
        tolerance := min 300 w.tolerance.toNat
        feedGap := min 2000 w.feedGap.toNat
        foldGap := min 3000 w.foldGap.toNat
        shrink := min 80 w.shrink.toNat
        stack := max 1 (min 60 w.stack.toNat)
        program := min 15 w.program.toNat } := by
  unfold articleOf
  simp [clampNat]

theorem articleExact_iff (w : ArticleWrite) :
    articleExact w = true ↔ (150 ≤ w.length.toNat ∧ w.length.toNat ≤ 4500)
      ∧ (100 ≤ w.width.toNat ∧ w.width.toNat ≤ 4000) ∧ w.tolerance.toNat ≤ 300 ∧ w.feedGap.toNat ≤ 2000
      ∧ w.foldGap.toNat ≤ 3000 ∧ w.shrink.toNat ≤ 80 ∧ (1 ≤ w.stack.toNat ∧ w.stack.toNat ≤ 60)
      ∧ w.program.toNat ≤ 15 := by
  unfold articleExact articleOf
  simp [clampNat_eq_iff, and_assoc]

/-- Settles O48: the rows of the three sections, their ranges, and the place of every field. -/
theorem configureWritesStore : Obligations.ConfigureWritesStore := by
  refine ⟨configureStation_taken, configureLine_taken, configureArticle_taken, configureArticle_bad, configure_cut,
    configure_refused, fun w => ⟨stationOf_ranges w, stationExact_iff w⟩, fun w => ⟨lineOf_ranges w, lineExact_iff w⟩,
    fun w => ⟨articleOf_ranges w, articleExact_iff w⟩, ?_, ?_, ?_⟩
  · intros
    simp [stationAt, byteAt, twoAt, threeAt, highAt, lowAt, high_append, low_append]
  · intros
    rfl
  · intros
    rfl

end Sys2Proof.Machine
end

section
/-! The obligation of START (R182). -/
namespace Sys2Proof.Machine

/-! ## Lane sets, lane by lane -/

theorem hasLane_and (v w : Lanes) (k : Fin 4) : hasLane (v &&& w) k = (hasLane v k && hasLane w k) := BitVec.getLsbD_and

theorem hasLane_or (v w : Lanes) (k : Fin 4) : hasLane (v ||| w) k = (hasLane v k || hasLane w k) := BitVec.getLsbD_or

theorem hasLane_not (w : Lanes) (k : Fin 4) : hasLane (~~~w) k = !hasLane w k := by
  simp [hasLane]

theorem hasLane_zero (k : Fin 4) : hasLane 0 k = false := BitVec.getLsbD_zero

theorem lanes_eq_zero_iff (w : Lanes) : w = 0 ↔ ∀ k, hasLane w k = false := by
  constructor
  · rintro rfl
    exact hasLane_zero
  · decide +revert

theorem hasLane_one : ∀ k : Fin 4, hasLane 1 k = decide (k = 0) := by decide

theorem hasLane_lanesUpTo {n : Nat} (small : n ≤ 4) (k : Fin 4) : hasLane (lanesUpTo n) k = decide (k.val < n) := by
  obtain ⟨m, rfl⟩ : ∃ m : Fin 5, n = m.val := ⟨⟨n, by omega⟩, rfl⟩
  decide +revert

/-! ## START (R182) -/

theorem startStation_queued (eyes : Lanes) (lineFree : Nat) (s : State) :
    (startStation eyes lineFree s).link = { LinkController.reset with
      outbox := [Entry.fresh .hail], quiet := some (max s.now lineFree + 40), listenFrom := s.now } := rfl

theorem startStation_frame (eyes : Lanes) (lineFree : Nat) (s : State) :
    SameBut [.station, .run, .line, .track, .eye, .bid, .throat, .outfeed, .link, .peers] s (startStation eyes lineFree s) := by
  intro b outside
  cases b <;> first | rfl | exact absurd outside (by decide)

theorem start_taken (s : State) (eyes : Lanes) (lineFree : Nat) (free : s.port.held = false) (setup : s.station = .setup)
    (written : s.store.written = true) :
    exec (.start eyes lineFree) s = .next (take .ok (startStation eyes lineFree) s) :=
  congrArg Host.Outcome.next ((transact_taken free _).trans (if_pos ⟨setup, written⟩))

theorem start_refused (s : State) (eyes : Lanes) (lineFree : Nat) (free : s.port.held = false)
    (h : s.running ∨ s.store.written = false) :
    ∃ t, exec (.start eyes lineFree) s = .next t ∧ t.port.last = .wrongState ∧ SameBut [.port] s t := by
  refine ⟨refuse .wrongState s, ?_, rfl, refuse_frame _ _⟩
  refine congrArg Host.Outcome.next ((transact_taken free _).trans (if_neg ?_))
  rintro ⟨setup, written⟩
  rcases h with running | unwritten
  · exact running setup
  · rw [unwritten] at written
    cases written

/-- A station lane set holds the station's own lanes on the line; a throat's holds every lane of the line, and one that would be
empty holds lane 1 (R21). -/
theorem startLanes_iff (st : Store) (k : Fin 4) (small : st.line.lanes ≤ 4) :
    (hasLane st.figures.lanes k = true ↔ if st.station.role = .throat then k.val < st.line.lanes
      else if ∃ j : Fin 4, hasLane st.station.lanes j = true ∧ j.val < st.line.lanes then
        hasLane st.station.lanes k = true ∧ k.val < st.line.lanes
      else k = 0) := by
  have line := hasLane_lanesUpTo small
  show hasLane (startLanes st.station st.line) k = true ↔ _
  unfold startLanes
  by_cases throat : st.station.role = .throat
  · simp [throat, line]
  · have none : st.station.lanes &&& lanesUpTo st.line.lanes = 0 ↔
        ¬ ∃ j : Fin 4, hasLane st.station.lanes j = true ∧ j.val < st.line.lanes := by
      rw [lanes_eq_zero_iff]
      simp [hasLane_and, line]
    rw [if_neg throat, if_neg throat]
    by_cases some : ∃ j : Fin 4, hasLane st.station.lanes j = true ∧ j.val < st.line.lanes
    · rw [if_neg (fun h => none.mp h some), if_pos some]
      simp [hasLane_and, line]
    · rw [if_pos (none.mpr some), if_neg some]
      rw [hasLane_one, decide_eq_true_iff]

/-- The lanes that four streams take of a lane set, each less what the earlier ones have taken (R133). -/
def takenLanes (base : Lanes) (w : Quad Lanes) : Quad Lanes :=
  let a := w.one &&& base
  let b := (w.two &&& base) &&& ~~~a
  let c := (w.three &&& base) &&& ~~~(a ||| b)
  { one := a, two := b, three := c, four := (w.four &&& base) &&& ~~~(a ||| b ||| c) }

theorem streamLanes_outfeed {f : Figures} (outfeed : f.station.role = .outfeed) (q : Quad Lanes)
    (taken : q = takenLanes f.lanes f.station.streams) :
    streamLanes f = if q.one ||| q.two ||| q.three ||| q.four = 0 then { one := f.lanes, two := 0, three := 0, four := 0 }
      else q := by
  subst taken
  unfold streamLanes
  rw [if_neg (not_not_intro outfeed)]
  rfl

/-- A stream takes a lane that it names and no earlier stream names (R133). -/
theorem hasLane_takenLanes (base : Lanes) (w : Quad Lanes) (i k : Fin 4) : hasLane ((takenLanes base w).get i) k = true ↔
    hasLane base k = true ∧ hasLane (w.get i) k = true ∧ ∀ j, j < i → hasLane (w.get j) k = false := by
  obtain ⟨one, two, three, four⟩ := w
  fin_cases i
  all_goals simp only [takenLanes, Quad.get, hasLane_and, hasLane_or, hasLane_not]
  all_goals simp [Fin.forall_fin_succ]
  all_goals cases hasLane base k <;> cases hasLane one k <;> cases hasLane two k <;> cases hasLane three k <;> simp

/-- Together the streams take every lane of the set that one of them names. -/
theorem takenLanes_none_iff (base : Lanes) (w : Quad Lanes) :
    (takenLanes base w).one ||| (takenLanes base w).two ||| (takenLanes base w).three ||| (takenLanes base w).four = 0
      ↔ ¬ ∃ j m : Fin 4, hasLane (w.get j) m = true ∧ hasLane base m = true := by
  have lane : ∀ k, hasLane ((takenLanes base w).one ||| (takenLanes base w).two ||| (takenLanes base w).three
      ||| (takenLanes base w).four) k = (hasLane base k && (hasLane w.one k || hasLane w.two k || hasLane w.three k
        || hasLane w.four k)) := fun k => by
    simp only [takenLanes, hasLane_and, hasLane_or, hasLane_not]
    cases hasLane base k <;> cases hasLane w.one k <;> cases hasLane w.two k <;> cases hasLane w.three k <;> simp
  rw [lanes_eq_zero_iff, not_exists, forall_congr' (fun j => not_exists), forall_comm]
  refine forall_congr' (fun k => ?_)
  rw [lane]
  simp only [Fin.forall_fin_succ, Quad.get]
  cases hasLane base k <;> simp [and_assoc]

/-- The streams take their named sets, each less what an earlier one has taken, or stream 1 takes every lane (R133). -/
theorem streamLanes_iff (f : Figures) (i k : Fin 4) : hasLane ((streamLanes f).get i) k = true ↔ f.station.role = .outfeed
    ∧ hasLane f.lanes k = true
    ∧ (if ∃ j m : Fin 4, hasLane (f.station.streams.get j) m = true ∧ hasLane f.lanes m = true then
        hasLane (f.station.streams.get i) k = true ∧ ∀ j, j < i → hasLane (f.station.streams.get j) k = false
      else i = 0) := by
  by_cases outfeed : f.station.role = .outfeed
  · rw [streamLanes_outfeed outfeed _ rfl]
    simp only [outfeed, true_and]
    by_cases named : ∃ j m : Fin 4, hasLane (f.station.streams.get j) m = true ∧ hasLane f.lanes m = true
    · rw [if_neg (fun h => (takenLanes_none_iff _ _).mp h named), if_pos named]
      exact hasLane_takenLanes _ _ i k
    · rw [if_pos ((takenLanes_none_iff _ _).mpr named), if_neg named]
      fin_cases i <;> simp [Quad.get, hasLane]
  · simp [streamLanes, outfeed, hasLane]

theorem start_enters (s : State) (eyes : Lanes) (lineFree : Nat) (free : s.port.held = false) (setup : s.station = .setup)
    (written : s.store.written = true) :
    ∃ t, exec (.start eyes lineFree) s = .next t
      ∧ t.port.last = .ok ∧ t.station = .joining ∧ t.run = s.store.figures
      ∧ t.line = { s.line with highWater := s.line.count, excursion := false, atAdvance := false }
      ∧ t.track = { s.track with records := [] }
      ∧ (∀ k, t.eye.eyes.get k = if hasLane t.run.lanes k = true
          then { state := if hasLane eyes k = true then .blocked else .clear, edge := none } else Eye.idle)
      ∧ t.eye.sightings = []
      ∧ t.bid = { BidEngine.reset with hold :=
          { operator := s.bid.hold.operator, jam := false, lineDown := true, mismatch := false, trackFull := false } }
      ∧ t.throat.jammed = false ∧ t.throat.relay = false ∧ t.throat.announced = false
      ∧ (∀ k, t.throat.bases.get k = if t.role = .throat ∧ hasLane t.run.lanes k = true ∧ hasLane eyes k = true
          then some s.line.count else none)
      ∧ t.link = { LinkController.reset with
          outbox := [Entry.fresh .hail], quiet := some (max s.now lineFree + 40), listenFrom := s.now }
      ∧ t.peers = { entries := [], hailTimer := some (s.now + 250000), joined := 0 }
      ∧ (∀ i, t.outfeed.streams.get i =
          { lanes := (streamLanes t.run).get i, current := none, passed := 0
            serial := (s.outfeed.streams.get i).serial, spacer := .none, closure := none
            lastStack := (s.outfeed.streams.get i).lastStack })
      ∧ t.outfeed = { OutfeedDirector.reset with streams := t.outfeed.streams }
      ∧ SameBut [.station, .run, .line, .track, .eye, .bid, .throat, .outfeed, .link, .peers, .port] s t := by
  refine ⟨take .ok (startStation eyes lineFree) s, start_taken s eyes lineFree free setup written, rfl, rfl, rfl, rfl, rfl,
    fun k => ?_, rfl, rfl, rfl, rfl, rfl, fun k => ?_, rfl, rfl, fun i => ?_, rfl,
    (startStation_frame eyes lineFree s).then (answer_frame _ _ _ _) (by decide) (by decide)⟩
  · exact (Quad.get_mapAt _ _ k).trans (by simp only [Quad.get_fill]; rfl)
  · exact (Quad.get_mapAt _ _ k).trans (by simp only [Quad.get_fill]; rfl)
  · exact Quad.get_mapAt _ _ i

/-- Settles O49: the row of START field by field, and the lane sets lane by lane. -/
theorem startEntersJoining : Obligations.StartEntersJoining := by
  refine ⟨start_enters, start_refused, fun st c e counts eye => ?_, startLanes_iff, streamLanes_iff⟩
  rw [eye]
  simp only [counts]
  rfl

end Sys2Proof.Machine
end

section
/-! The obligation of the two resets (R185). -/
namespace Sys2Proof.Machine

/-- The part in full reset under the asserted RESET pin, by what stands outside it (log 36). -/
def State.underReset (ready : Bool) (pending : List Instr) : State :=
  { State.reset with feed := { FeedSequencer.reset with ready := ready }, port := { LocalPort.reset with held := true }
                     pending := pending }

theorem inReset_iff (s : State) : s.inReset ↔ s = State.underReset s.feed.ready s.pending := Iff.rfl

theorem exec_underReset (ready : Bool) (pending : List Instr) (c : Instr) :
    (∀ asserted, c ≠ .fullReset asserted) → exec c (State.underReset ready pending) = .next (State.underReset
      (match c with | .readyRise => true | .readyFall => false | _ => ready) pending) := by
  intro other
  cases c with
  | fullReset asserted => exact absurd rfl (other asserted)
  | slotStart slot heard => cases heard <;> rfl
  | spacerPassage i => fin_cases i <;> rfl
  | stackChangePulseEnd i => fin_cases i <;> rfl
  | frameError run =>
    show execFrameError run _ = _
    unfold execFrameError
    split <;> rfl
  | duplicateNumber time kind =>
    have idle : (State.underReset ready pending).tookFrame kind time = false := Bool.and_false _
    show execDuplicateNumber time kind _ = _
    unfold execDuplicateNumber
    rw [idle]
    rfl
  | readyFall => cases ready <;> rfl
  | _ => rfl

theorem safe_reset : State.reset.safe := by
  unfold State.safe
  refine ⟨⟨rfl, rfl⟩, ⟨by decide, trivial⟩, ⟨by decide, List.nodup_nil⟩, ⟨by decide, by decide⟩, ?_, ?_, ?_, ?_⟩
  · unfold State.numbered
    decide
  · unfold LinkController.within
    decide
  · unfold LineCounter.within
    decide
  · unfold State.passedWithin
    decide

/-- Settles O53: both resets by evaluation, and every row of the part in reset. -/
theorem resetRestoresAll : Obligations.ResetRestoresAll := by
  refine ⟨fun s free => congrArg Host.Outcome.next (transact_taken free _), fun s asserted => rfl, fun s t row => ?_,
    fun s c held other => ?_, fun s held none => ?_, safe_reset⟩
  · cases row
    rfl
  · rw [inReset_iff] at held
    generalize s.feed.ready = ready at held
    generalize s.pending = pending at held
    subst held
    exact exec_underReset ready pending c other
  · have idles : step s = .next (idle s) := by
      unfold step
      rw [none]
    rw [idles]
    refine congrArg Host.Outcome.next (if_pos ?_)
    rw [(inReset_iff s).mp held]
    rfl

end Sys2Proof.Machine
end

section
/-! The obligation of the port's transactions (R176 to R180, R189, R190). -/
namespace Sys2Proof.Machine

/-! ## The two moments (R177, R178) -/

/-- Every host command is one transaction of some effect. -/
theorem exec_host {c : Instr} {m : Cs} (h : hostMoment c = some m) :
    ∃ effect, ∀ s, exec c s = .next (transact m effect s) := by
  cases c <;> cases h <;> exact ⟨_, fun s => rfl⟩

theorem transact_falls {s : State} (free : s.port.held = false) (effect : State → State) :
    transact .falls effect s = captureWord s := by
  simp [transact, free]

theorem transact_held {s : State} (held : s.port.held = true) (m : Cs) (effect : State → State) :
    transact m effect s = s := if_pos held

/-! ## ACK_EVENTS (R189) -/

theorem afterSeq_of_not_held {n : BitVec 16} : ∀ {l : List HeldEvent}, (∀ x ∈ l, x.seq ≠ n) → afterSeq n l = none
  | [], _ => rfl
  | x :: l, h => by
    unfold afterSeq
    rw [if_neg (h x (List.mem_cons_self ..)), afterSeq_of_not_held (fun y hy => h y (List.mem_cons_of_mem _ hy))]

theorem afterSeq_of_held {h : HeldEvent} {younger : List HeldEvent} : ∀ {older : List HeldEvent}, (∀ x ∈ older, x.seq ≠ h.seq) →
    afterSeq h.seq (older ++ h :: younger) = some younger
  | [], _ => if_pos rfl
  | x :: older, other => by
    refine (if_neg (other x (List.mem_cons_self ..))).trans ?_
    exact afterSeq_of_held (fun y hy => other y (List.mem_cons_of_mem _ hy))

theorem ackEvents_taken {s : State} (free : s.port.held = false) (hi lo : Byte) (rest : List Byte) :
    exec (.ackEvents (hi :: lo :: rest)) s = .next (acknowledge (hi ++ lo) s) := by
  refine congrArg Host.Outcome.next ((transact_taken free _).trans ?_)
  rw [withData_enough (by simp)]
  rfl

theorem acknowledge_frame (n : BitVec 16) (s : State) : SameBut [.port, .fifo] s (acknowledge n s) := by
  unfold acknowledge
  split <;> exact (setFifo_frame s _).then (answer_frame _ _ _ _) (by decide) (by decide)

/-! ## Headers that name nothing (R176, R180) -/

theorem unknownHeader_named_nothing (s : State) (command argument : Byte) (nothing : namesNothing command argument = true) :
    unknownHeader command argument s =
      refuse (if command = 1 ∧ s.station ≠ .setup then .wrongState else .unknown) s := by
  unfold unknownHeader
  by_cases section_ : namesNoSection command argument = true
  · have one : command = 1 := by
      simp [namesNoSection] at section_
      exact section_.1
    rw [if_pos section_]
    by_cases setup : s.station = .setup <;> simp [one, setup]
  · have other : (!namesCommand command || namesNoHold command argument) = true := by
      simpa [namesNothing, section_] using nothing
    have notOne : command ≠ 1 := fun h => by
      subst h
      simp [namesCommand, namesNoHold] at other
    rw [if_neg section_, if_pos other, if_neg (fun h => notOne h.1)]

/-! ## Cut transactions (R177) -/

theorem takesLoad_iff (s : State) : s.takesLoad = true ↔ s.role = .feed ∧ (s.station = .joining ∨ s.station = .active) := by
  simp [State.takesLoad]

theorem byte_eq_iff {a b : Byte} : a = b ↔ a.toNat = b.toNat := ⟨congrArg _, BitVec.eq_of_toNat_eq⟩

theorem dataBytes_configure (a : Byte) : dataBytes 1 a = if a.toNat = 128 then 26 else if a.toNat = 129 then 17
    else if 1 ≤ a.toNat ∧ a.toNat ≤ 63 then 14 else 0 := rfl

theorem dataBytes_other {c : Byte} (configure : c ≠ 1) (load : c ≠ 5) (ack : c ≠ 10) (a : Byte) : dataBytes c a = 0 := by
  have configure := mt byte_eq_iff.mpr configure
  have load := mt byte_eq_iff.mpr load
  have ack := mt byte_eq_iff.mpr ack
  unfold dataBytes
  split
  · exact absurd ‹_› configure
  · exact absurd ‹_› load
  · exact absurd ‹_› ack
  · rfl

/-- A command that its state does not refuse needs the bytes of its header (R177). -/
theorem dataNeeded_taken {s : State} {c : Byte} (configure : c = 1 → s.station = .setup) (load : c = 5 → s.takesLoad = true)
    (a : Byte) : s.dataNeeded c a = dataBytes c a := by
  refine if_neg ?_
  rintro (⟨one, running⟩ | ⟨five, refused⟩)
  · exact running (configure (byte_eq_iff.mpr one))
  · rw [load (byte_eq_iff.mpr five)] at refused
    cases refused

/-- A transaction with a whole header is cut short where CONFIGURE in SETUP, LOAD at a station that takes it, or ACK_EVENTS carries
too few data bytes. -/
theorem cutsShort_iff (s : State) (c a : Byte) (data : List Byte) : s.cutsShort (c :: a :: data) = true ↔
      (c = 1 ∧ s.station = .setup ∧ (a = 0x80 ∧ data.length < 26 ∨ a = 0x81 ∧ data.length < 17
          ∨ 1 ≤ a.toNat ∧ a.toNat ≤ 63 ∧ data.length < 14)) ∨
        (c = 5 ∧ s.role = .feed ∧ (s.station = .joining ∨ s.station = .active) ∧ data.length < 3) ∨
        (c = 10 ∧ data.length < 2) := by
  have station : a = 0x80 ↔ a.toNat = 128 := byte_eq_iff
  have line : a = 0x81 ↔ a.toNat = 129 := byte_eq_iff
  have never : ∀ n : Nat, ¬ n < 0 := Nat.not_lt_zero
  have apart15 : (1 : Byte) ≠ 5 := by decide
  have apart1 : (1 : Byte) ≠ 10 := by decide
  have apart5 : (5 : Byte) ≠ 1 := by decide
  have apart510 : (5 : Byte) ≠ 10 := by decide
  show decide (data.length < s.dataNeeded c a) = true ↔ _
  rw [decide_eq_true_iff]
  by_cases configure : c = 1
  · subst configure
    by_cases setup : s.station = .setup
    · rw [dataNeeded_taken (fun _ => setup) (fun h => absurd h apart15), dataBytes_configure, station, line]
      constructor
      · intro few
        refine .inl ⟨rfl, setup, ?_⟩
        split_ifs at few <;> omega
      · rintro (⟨-, -, few⟩ | ⟨h, -⟩ | ⟨h, -⟩)
        · split_ifs <;> omega
        · exact absurd h apart15
        · exact absurd h apart1
    · have needed : s.dataNeeded 1 a = 0 := if_pos (.inl ⟨rfl, setup⟩)
      rw [needed]
      refine iff_of_false (never _) ?_
      rintro (⟨-, h, -⟩ | ⟨h, -⟩ | ⟨h, -⟩)
      · exact setup h
      · exact apart15 h
      · exact apart1 h
  · by_cases load : c = 5
    · subst load
      by_cases takes : s.takesLoad = true
      · obtain ⟨role, acting⟩ := (takesLoad_iff s).mp takes
        rw [dataNeeded_taken (fun h => absurd h apart5) (fun _ => takes)]
        constructor
        · exact fun few => .inr (.inl ⟨rfl, role, acting, few⟩)
        · rintro (⟨h, -⟩ | ⟨-, -, -, few⟩ | ⟨h, -⟩)
          · exact absurd h apart5
          · exact few
          · exact absurd h apart510
      · have needed : s.dataNeeded 5 a = 0 := if_pos (.inr ⟨rfl, by simpa using takes⟩)
        rw [needed]
        refine iff_of_false (never _) ?_
        rintro (⟨h, -⟩ | ⟨-, role, acting, -⟩ | ⟨h, -⟩)
        · exact apart5 h
        · exact takes ((takesLoad_iff s).mpr ⟨role, acting⟩)
        · exact apart510 h
    · rw [dataNeeded_taken (fun h => absurd h configure) (fun h => absurd h load)]
      by_cases ack : c = 10
      · subst ack
        exact ⟨fun few => .inr (.inr ⟨rfl, few⟩), by rintro (⟨h, -⟩ | ⟨h, -⟩ | ⟨-, few⟩) <;> trivial⟩
      · rw [dataBytes_other configure load ack]
        refine iff_of_false (never _) ?_
        rintro (⟨h, -⟩ | ⟨h, -⟩ | ⟨h, -⟩) <;> contradiction

/-! ## The status word (R178) -/

theorem getLsbD_word {n i : Nat} (small : i < 16) : (BitVec.ofNat 16 n).getLsbD i = decide (n / 2 ^ i % 2 = 1) := by
  rw [BitVec.getLsbD_ofNat, Nat.testBit_eq_decide_div_mod_eq]
  simp [small]

theorem hold_any_iff (h : HoldSet) : h.any = true ↔ h ≠ HoldSet.empty := by
  obtain ⟨a, b, c, d, e⟩ := h
  cases a <;> cases b <;> cases c <;> cases d <;> cases e <;> decide

/-- The status word as a sum of its fields, each below the next one's place (section 11.3). -/
theorem statusWord_fields (s : State) (w : BitVec 16) (word : w = s.statusWord) (fill : s.fifo.held.length ≤ 32) :
    w.extractLsb' 14 2 = (match s.station with | .setup => 0 | .joining => 1 | .active => 2 | .fault => 3)
      ∧ (w.getLsbD 13 = true ↔ s.bid.hold ≠ HoldSet.empty)
      ∧ (w.extractLsb' 7 6).toNat = s.fifo.held.length
      ∧ w.getLsbD 6 = s.fifo.lost ∧ w.getLsbD 5 = s.bid.hold.lineDown
      ∧ (w.getLsbD 4 = true ↔ s.throat.jammed = true ∨ s.bid.jamming ≠ 0)
      ∧ w.getLsbD 3 = s.port.cut
      ∧ w.extractLsb' 0 3 = (match s.port.last with
          | .ok => 0 | .clamped => 1 | .wrongState => 2 | .full => 3 | .badArticle => 4 | .notFound => 5
          | .tooLate => 6 | .unknown => 7) := by
  have code : s.station.code < 4 := by cases s.station <;> decide
  have last : s.port.last.code < 8 := by cases s.port.last <;> decide
  have held := Bool.toNat_le s.bid.hold.any
  have lost := Bool.toNat_le s.fifo.lost
  have down := Bool.toNat_le s.bid.hold.lineDown
  have jam := Bool.toNat_le s.jamShown
  have cut := Bool.toNat_le s.port.cut
  have bit : ∀ {i : Nat} {b : Bool} {n : Nat}, i < 16 → n / 2 ^ i % 2 = b.toNat → (BitVec.ofNat 16 n).getLsbD i = b := by
    intro i b n small place
    rw [getLsbD_word small, place]
    cases b <;> rfl
  subst word
  unfold State.statusWord
  refine ⟨?_, ?_, ?_, bit (by decide) (by omega), bit (by decide) (by omega), ?_, bit (by decide) (by omega), ?_⟩
  · apply BitVec.eq_of_toNat_eq
    rw [BitVec.extractLsb'_toNat, BitVec.toNat_ofNat, Nat.shiftRight_eq_div_pow]
    refine Eq.trans (b := s.station.code) (by omega) ?_
    cases s.station <;> rfl
  · rw [bit (b := s.bid.hold.any) (by decide) (by omega)]
    exact hold_any_iff _
  · rw [BitVec.extractLsb'_toNat, BitVec.toNat_ofNat, Nat.shiftRight_eq_div_pow]
    omega
  · rw [bit (b := s.jamShown) (by decide) (by omega)]
    simp [State.jamShown]
  · apply BitVec.eq_of_toNat_eq
    rw [BitVec.extractLsb'_toNat, BitVec.toNat_ofNat, Nat.shiftRight_eq_div_pow]
    refine Eq.trans (b := s.port.last.code) (by omega) ?_
    cases s.port.last <;> rfl

/-- Settles O52: the two moments, ACK_EVENTS, the refused headers and the cut transactions, IRQ and the status word. -/
theorem portAcknowledgesAndRefuses : Obligations.PortAcknowledgesAndRefuses := by
  refine ⟨fun s c falls free => ?_, fun s c m host held => ?_, fun s => ?_, fun s hi lo rest older h younger free held seq other => ?_,
    fun s hi lo rest free other => ?_, fun s data free few => ?_, fun s command argument free nothing => ?_,
    fun s bytes free => ?_, fun s => ⟨rfl, fun c => rfl, cutsShort_iff s⟩, fun s => ?_, statusWord_fields⟩
  · obtain ⟨effect, row⟩ := exec_host falls
    rw [row, transact_falls free]
    rfl
  · obtain ⟨effect, row⟩ := exec_host host
    rw [row, transact_held held]
  · unfold State.shownWord
    cases s.port.captured <;> rfl
  · have found : afterSeq (hi ++ lo) s.fifo.held = some younger := by
      rw [held, ← seq]
      exact afterSeq_of_held other
    have ack : acknowledge (hi ++ lo) s =
        take .ok (fun t => t.setFifo { t.fifo with held := younger, lost := false }) s := by
      unfold acknowledge
      rw [found]
    refine ⟨_, ackEvents_taken free hi lo rest, ?_, ?_, acknowledge_frame _ s⟩ <;> rw [ack] <;> rfl
  · have ack : acknowledge (hi ++ lo) s = take .notFound (fun t => t.setFifo { t.fifo with lost := false }) s := by
      unfold acknowledge
      rw [afterSeq_of_not_held other]
    refine ⟨_, ackEvents_taken free hi lo rest, ?_, ?_, acknowledge_frame _ s⟩ <;> rw [ack] <;> rfl
  · exact ⟨cutShort s, congrArg Host.Outcome.next ((transact_taken free _).trans (withData_cut few _ s)), cutShort_spec s⟩
  · refine ⟨_, congrArg Host.Outcome.next ((transact_taken free _).trans (unknownHeader_named_nothing s command argument nothing)),
      rfl, rfl, refuse_frame _ _⟩
  · have row : exec (.transactionCut bytes) s = .next (if s.cutsShort bytes then cutShort s else s) :=
      congrArg Host.Outcome.next (transact_taken free _)
    by_cases cut : s.cutsShort bytes = true
    · rw [if_pos cut] at row
      refine ⟨cutShort s, row, setPort_frame _ _, ?_⟩
      rw [if_pos cut]
      rfl
    · rw [if_neg cut] at row
      refine ⟨s, row, .refl _ s, ?_⟩
      rw [if_neg cut]
  · simp [State.irq]

end Sys2Proof.Machine
end

section
/-! The obligation of the four reads (R56, R175 to R179, R188, R193). -/
namespace Sys2Proof.Machine

/-! ## Bytes at their places -/

theorem byteAt_append_left {l : List Byte} {i : Nat} (h : i < l.length) (m : List Byte) : byteAt (l ++ m) i = byteAt l i := by
  unfold byteAt
  rw [List.getD_append _ _ _ _ h]

theorem byteAt_append_right {l : List Byte} {n : Nat} (h : l.length = n) (m : List Byte) (i : Nat) :
    byteAt (l ++ m) (n + i) = byteAt m i := by
  subst h
  unfold byteAt
  rw [List.getD_append_right _ _ _ _ (Nat.le_add_right _ _), Nat.add_sub_cancel_left]

/-- A part of a run of bytes, from its offset. -/
theorem byteAt_part {pre part : List Byte} {n i : Nat} (offset : pre.length = n) (inside : i < part.length) (post : List Byte) :
    byteAt (pre ++ (part ++ post)) (n + i) = byteAt part i := by
  rw [byteAt_append_right offset, byteAt_append_left inside]

theorem be_one_eq (n : Nat) : byte n = [BitVec.ofNat 8 n] := by simp [byte, be]

theorem twoAt_be (n : Nat) : twoAt (be 2 n) 0 = BitVec.ofNat 16 n := by
  rw [be_two]
  exact twoBytes n

/-- A number of 32 bits is its four bytes. -/
theorem fourAt_be (n : Nat) : fourAt (be 4 n) 0 = BitVec.ofNat 32 n := by
  have bytes : be 4 n = [BitVec.ofNat 8 (n / 65536 / 256), BitVec.ofNat 8 (n / 65536), BitVec.ofNat 8 (n / 256), BitVec.ofNat 8 n] := by
    simp [be, Nat.div_div_eq_div_mul]
  have halves : fourAt (be 4 n) 0 = BitVec.ofNat 16 (n / 65536) ++ BitVec.ofNat 16 n := by
    rw [bytes, ← twoBytes, ← twoBytes]
    rfl
  rw [halves]
  apply BitVec.eq_of_toNat_eq
  rw [BitVec.toNat_append, ← Nat.shiftLeft_add_eq_or_of_lt (BitVec.isLt _)]
  simp only [BitVec.toNat_ofNat, Nat.shiftLeft_eq]
  omega

theorem ofNat_mod_eq_ofInt (k : Nat) (n : Int) : BitVec.ofNat k (n % (2 ^ k : Int)).toNat = BitVec.ofInt k n := by
  apply BitVec.eq_of_toNat_eq
  rw [BitVec.toNat_ofNat, BitVec.toNat_ofInt]
  have pos : (0 : Int) < 2 ^ k := by positivity
  have low := Int.emod_nonneg n pos.ne'
  have high := Int.emod_lt_of_pos n pos
  push_cast
  rw [Nat.mod_eq_of_lt]
  rw [← Int.ofNat_lt, Int.toNat_of_nonneg low]
  push_cast
  exact high

theorem twoAt_beSigned (n : Int) : twoAt (beSigned 2 n) 0 = BitVec.ofInt 16 n := by
  unfold beSigned
  rw [twoAt_be]
  exact ofNat_mod_eq_ofInt 16 n

theorem threeAt_beSigned (n : Int) : threeAt (beSigned 3 n) 0 = BitVec.ofInt 24 n := by
  unfold beSigned
  rw [be_three]
  exact (threeBytes _).trans (ofNat_mod_eq_ofInt 24 n)

theorem fourAt_beSigned (n : Int) : fourAt (beSigned 4 n) 0 = BitVec.ofInt 32 n := by
  unfold beSigned
  rw [fourAt_be]
  exact ofNat_mod_eq_ofInt 32 n

theorem twoAt_be_word (x : BitVec 16) : twoAt (be 2 x.toNat) 0 = x := by rw [twoAt_be, BitVec.ofNat_toNat, BitVec.setWidth_eq]

theorem fourAt_be_word (x : BitVec 32) : fourAt (be 4 x.toNat) 0 = x := by rw [fourAt_be, BitVec.ofNat_toNat, BitVec.setWidth_eq]

theorem bit_eq (b : Bool) (place : Nat) : bit b place = 2 ^ place * b.toNat := by cases b <;> simp [bit]

theorem tagBytes_eq (t : Option Tag) : tagBytes t = [(t.map Tag.owner).getD 0, (t.map Tag.seq).getD 0] := by cases t <;> rfl

/-! ## The event, the track record and the peer entry -/

theorem eventBytes_fields (h : HeldEvent) (e : Event) (l : List Byte) (event : h.event = e) (bytes : l = eventBytes h) :
    l.length = 18 ∧ twoAt l 0 = h.seq ∧ byteAt l 2 = BitVec.ofNat 8 e.kind.code
      ∧ byteAt l 3 = BitVec.ofNat 8 (e.tag.isSome.toNat + 2 * e.article.isSome.toNat + 4 * e.lot.isSome.toNat
          + 8 * e.a.isSome.toNat + 16 * e.b.isSome.toNat + 32 * e.code.isSome.toNat)
      ∧ byteAt l 4 = BitVec.ofNat 8 (e.code.getD 0)
      ∧ byteAt l 5 = (e.tag.map Tag.owner).getD 0 ∧ byteAt l 6 = (e.tag.map Tag.seq).getD 0
      ∧ byteAt l 7 = BitVec.ofNat 8 (e.article.getD 0) ∧ twoAt l 8 = BitVec.ofNat 16 (e.lot.getD 0)
      ∧ fourAt l 10 = BitVec.ofInt 32 (e.a.getD 0) ∧ fourAt l 14 = BitVec.ofInt 32 (e.b.getD 0) := by
  subst event bytes
  have presence : h.event.presence = h.event.tag.isSome.toNat + 2 * h.event.article.isSome.toNat + 4 * h.event.lot.isSome.toNat
      + 8 * h.event.a.isSome.toNat + 16 * h.event.b.isSome.toNat + 32 * h.event.code.isSome.toNat := by
    simp [Event.presence, bit_eq]
  rw [← presence]
  simp only [eventBytes, tagBytes_eq, be_one_eq]
  exact ⟨rfl, twoAt_be_word h.seq, rfl, rfl, rfl, rfl, rfl, rfl, twoAt_be (h.event.lot.getD 0), fourAt_beSigned (h.event.a.getD 0),
    fourAt_beSigned (h.event.b.getD 0)⟩

theorem recordBytes_fields (hw : Count) (r : Record) (l : List Byte) (bytes : l = recordBytes hw r) :
    l.length = 26 ∧ descAt l = r.desc.wire ∧ fourAt l 13 = r.tl
      ∧ fourAt l 17 = plus r.tl (match r.openFrom with
          | some f => max 1 (min 18000 (signedDiff hw f))
          | none => (r.measured.getD r.desc.length : Nat))
      ∧ byteAt l 21 = (match r.state with | .bid => 1 | .seen => 2 | .spacer => 3 | .stray => 4)
      ∧ byteAt l 22 = BitVec.ofNat 8 (r.missed.toNat + 2 * r.own.toNat + 4 * r.passed.toNat
          + 8 * r.measured.isSome.toNat + 16 * r.openFrom.isSome.toNat)
      ∧ byteAt l 23 = BitVec.ofNat 8 r.reporter ∧ twoAt l 24 = BitVec.ofNat 16 (r.measured.getD 0) := by
  subst bytes
  have flags : bit r.missed 0 + bit r.own 1 + bit r.passed 2 + bit r.measured.isSome 3 + bit r.openFrom.isSome 4
      = r.missed.toNat + 2 * r.own.toNat + 4 * r.passed.toNat + 8 * r.measured.isSome.toNat + 16 * r.openFrom.isSome.toNat := by
    simp [bit_eq]
  have tt : r.tt hw = plus r.tl (match r.openFrom with
          | some f => max 1 (min 18000 (signedDiff hw f))
          | none => (r.measured.getD r.desc.length : Nat)) := by
    unfold Record.tt Record.gapLength
    cases r.openFrom with
    | none => rfl
    | some f => exact congrArg (plus r.tl) (Int.toNat_of_nonneg (le_trans (by decide) (le_max_left 1 _)))
  have state : BitVec.ofNat 8 r.state.code = (match r.state with | .bid => 1 | .seen => 2 | .spacer => 3 | .stray => 4) := by
    cases r.state <;> rfl
  rw [← flags, ← tt, ← state]
  unfold recordBytes
  simp only [be_one_eq, List.append_assoc]
  refine ⟨by simp [descBytes_eq, be_length], descAt_descBytes _ _, ?_, ?_, ?_, ?_, ?_, ?_⟩
  · rw [descBytes_eq]
    exact fourAt_be_word r.tl
  · rw [descBytes_eq]
    exact fourAt_be_word (r.tt hw)
  · rw [descBytes_eq]
    rfl
  · rw [descBytes_eq]
    rfl
  · rw [descBytes_eq]
    rfl
  · rw [descBytes_eq]
    exact twoAt_be (r.measured.getD 0)

/-- The figures of a HAIL in the 13 bytes that a peer entry and a HAIL hold (section 11.2). -/
theorem hailBytes_fields (f : Hailed) (rest : List Byte) :
    byteAt (hailBytes f ++ rest) 0 = (match f.role with | none => 0 | some .feed => 1 | some .throat => 2 | some .outfeed => 3)
      ∧ byteAt (hailBytes f ++ rest) 1 = f.lanes.setWidth 8 ∧ threeAt (hailBytes f ++ rest) 2 = BitVec.ofInt 24 f.eye
      ∧ twoAt (hailBytes f ++ rest) 5 = BitVec.ofNat 16 f.cpm ∧ byteAt (hailBytes f ++ rest) 7 = BitVec.ofNat 8 f.lineLanes
      ∧ twoAt (hailBytes f ++ rest) 8 = BitVec.ofNat 16 f.lotBreak ∧ twoAt (hailBytes f ++ rest) 10 = BitVec.ofNat 16 f.strayGap
      ∧ byteAt (hailBytes f ++ rest) 12 = BitVec.ofNat 8 f.settle := by
  refine ⟨?_, rfl, threeAt_beSigned f.eye, twoAt_be f.cpm, rfl, twoAt_be f.lotBreak, twoAt_be f.strayGap, rfl⟩
  show BitVec.ofNat 8 _ = _
  cases f.role with
  | none => rfl
  | some r => cases r <;> rfl

theorem peerBytes_fields (now : Nat) (p : Peer) (f : Hailed) (l : List Byte) (bytes : l = peerBytes now p)
    (held : ∀ x, p.hailed = some x → x = f)
    (absent : p.hailed = none → f = { role := none, lanes := 0, eye := 0, cpm := 0, lineLanes := 0, lotBreak := 0
                                      strayGap := 0, settle := 0 }) :
    l.length = 18 ∧ byteAt l 0 = BitVec.ofNat 8 p.number
      ∧ byteAt l 1 = (match p.state with | .present => 1 | .silent => 2 | .mismatch => 3)
      ∧ byteAt l 2 = BitVec.ofNat 8 (p.hailed.isSome.toNat + 2 * p.differs.toNat)
      ∧ byteAt l 3 = (match f.role with | none => 0 | some .feed => 1 | some .throat => 2 | some .outfeed => 3)
      ∧ byteAt l 4 = f.lanes.setWidth 8 ∧ threeAt l 5 = BitVec.ofInt 24 f.eye ∧ twoAt l 8 = BitVec.ofNat 16 f.cpm
      ∧ byteAt l 10 = BitVec.ofNat 8 f.lineLanes ∧ twoAt l 11 = BitVec.ofNat 16 f.lotBreak
      ∧ twoAt l 13 = BitVec.ofNat 16 f.strayGap ∧ byteAt l 15 = BitVec.ofNat 8 f.settle
      ∧ twoAt l 16 = BitVec.ofNat 16 (if p.state = .silent then 0 else (p.ttlEnds - now + 999) / 1000) := by
  have flags : bit p.hailed.isSome 0 + bit p.differs 1 = p.hailed.isSome.toNat + 2 * p.differs.toNat := by simp [bit_eq]
  have state : BitVec.ofNat 8 p.state.code = (match p.state with | .present => 1 | .silent => 2 | .mismatch => 3) := by
    cases p.state <;> rfl
  have figures : (match p.hailed with | some h => hailBytes h | none => List.replicate 13 0) = hailBytes f := by
    cases hailed : p.hailed with
    | none =>
      rw [absent hailed]
      rfl
    | some x => rw [held x hailed]
  have whole : l = [BitVec.ofNat 8 p.number, BitVec.ofNat 8 p.state.code,
      BitVec.ofNat 8 (bit p.hailed.isSome 0 + bit p.differs 1)] ++ (hailBytes f ++ be 2 (p.ttl now)) := by
    rw [bytes, ← figures]
    simp only [peerBytes, be_one_eq, List.append_assoc]
    rfl
  obtain ⟨role, lanes, eye, cpm, lineLanes, lotBreak, strayGap, settle⟩ := hailBytes_fields f (be 2 (p.ttl now))
  rw [← flags, ← state, whole]
  exact ⟨rfl, rfl, rfl, rfl, role, lanes, eye, cpm, lineLanes, lotBreak, strayGap, settle, twoAt_be (p.ttl now)⟩

/-! ## The station detail (R179) -/

theorem eventCodes : [EventKind.reversed, .trackFull, .lost, .beaten, .recalled, .fired, .confirmed, .voided, .unconfirmed, .unloaded,
      .widthUnmeasured, .jam, .jamHeld, .jamReleased, .stackClosed, .diverted, .shortGap, .foldOverrun, .msgDropped,
      .lineDown, .lineUp, .fault, .purged, .peerJoined, .peerSilent, .peerMismatch, .active, .left].map EventKind.code
    = (List.range 28).map (fun i => i + 1) := by decide

theorem quadBytes_length {α : Type} {f : α → List Byte} {n : Nat} (each : ∀ x, (f x).length = n) (q : Quad α) :
    (quadBytes f q).length = 4 * n := by
  simp [quadBytes, each]
  omega

/-- The four runs of a quad stand one behind the other. -/
theorem byteAt_quadBytes {α : Type} {f : α → List Byte} {n j : Nat} (each : ∀ x, (f x).length = n) (inside : j < n) (q : Quad α)
    (i : Fin 4) : byteAt (quadBytes f q) (n * i.val + j) = byteAt (f (q.get i)) j := by
  have right : quadBytes f q = f q.one ++ (f q.two ++ (f q.three ++ f q.four)) := by simp [quadBytes]
  have here : ∀ x (l : List Byte), byteAt (f x ++ l) j = byteAt (f x) j := fun x l =>
    byteAt_append_left ((each x).symm ▸ inside) l
  have next : ∀ x (l : List Byte) m, byteAt (f x ++ l) (n + m) = byteAt l m := fun x l m => byteAt_append_right (each x) l m
  rw [right]
  match i with
  | 0 => simp [here, Quad.get]
  | 1 => simp [here, next, Quad.get]
  | 2 =>
    rw [show n * (2 : Fin 4).val + j = n + (n + j) by simp; omega, next, next, here]
    rfl
  | 3 =>
    rw [show n * (3 : Fin 4).val + j = n + (n + (n + j)) by simp; omega, next, next, next]
    rfl

theorem ownBytes_length (o : Option OwnBid) : (ownBytes o).length = 7 := by
  cases o <;> simp [ownBytes, be_one_eq, tagBytes_eq, be_length]

theorem positionBytes_length (p : Position) : (positionBytes p).length = 4 := by simp [positionBytes, be_one_eq, be_length]

theorem streamBytes_length (x : Stream) : (streamBytes x).length = 11 := by
  simp [streamBytes, be_one_eq, be_length, tagBytes_eq]

theorem blockedBytes_length (s : State) (k : Fin 4) : (beSigned 4 (s.shownBlocked k)).length = 4 := be_length _ _

theorem counterBytes_length (s : State) : s.counterBytes.length = 18 := by
  simp [State.counterBytes, be_one_eq, be_length, beSigned]

/-- Bytes 25 to 28 of the station detail: the passed-over count, the deferral set and the head. -/
def State.bidBytes (s : State) : List Byte :=
  byte s.bid.passedOver ++ be 2 s.bid.deferral.toNat ++ byte (match s.feed.head with | some i => i.val + 1 | none => 0)

/-- Bytes 45 to 50 of the station detail: the outputs, the width sampler and the jam. -/
def State.outputBytes (s : State) : List Byte :=
  byte s.levelByte ++ byte s.foldByte ++ byte s.width.phase.code ++ be 2 (if s.role = .feed then s.width.last else 0)
    ++ byte (if s.throat.jammed then 1 else 0)

/-- Bytes 51 to 66 of the station detail: the blocked distances. -/
def State.blockedBytes (s : State) : List Byte :=
  quadBytes (fun k => beSigned 4 (s.shownBlocked k)) { one := 0, two := 1, three := 2, four := 3 }

/-- The parts of the station detail, each from its offset. -/
theorem stationBytes_parts (s : State) : s.stationBytes = s.counterBytes ++ (ownBytes s.bid.own ++ (s.bidBytes
    ++ (quadBytes positionBytes s.feed.positions ++ (s.outputBytes ++ (s.blockedBytes
    ++ (quadBytes streamBytes s.shownStreams ++ (byte s.link.outbox.length ++ byte (s.link.lastSender.getD 0)))))))) := by
  simp only [State.stationBytes, State.feedBytes, State.lineBytes, State.bidBytes, State.outputBytes, State.blockedBytes,
    List.append_assoc] <;> rfl

theorem bidBytes_length (s : State) : s.bidBytes.length = 4 := by simp [State.bidBytes, be_one_eq, be_length]

theorem outputBytes_length (s : State) : s.outputBytes.length = 6 := by simp [State.outputBytes, be_one_eq, be_length]

/-- The bytes of each part of the station detail. -/
structure StationParts (s : State) (l : List Byte) : Prop where
  length : l.length = 113
  counter : ∀ i, i < 18 → byteAt l i = byteAt s.counterBytes i
  own : ∀ i, i < 7 → byteAt l (18 + i) = byteAt (ownBytes s.bid.own) i
  bid : ∀ i, i < 4 → byteAt l (25 + i) = byteAt s.bidBytes i
  position : ∀ (k : Fin 4) i, i < 4 → byteAt l (29 + 4 * k.val + i) = byteAt (positionBytes (s.feed.positions.get k)) i
  output : ∀ i, i < 6 → byteAt l (45 + i) = byteAt s.outputBytes i
  blocked : ∀ (k : Fin 4) i, i < 4 → byteAt l (51 + 4 * k.val + i) = byteAt (beSigned 4 (s.shownBlocked k)) i
  stream : ∀ (k : Fin 4) i, i < 11 → byteAt l (67 + 11 * k.val + i) = byteAt (streamBytes (s.shownStreams.get k)) i
  link : byteAt l 111 = BitVec.ofNat 8 s.link.outbox.length ∧ byteAt l 112 = BitVec.ofNat 8 (s.link.lastSender.getD 0)

theorem stationBytes_split (s : State) : StationParts s s.stationBytes := by
  have counter := counterBytes_length s
  have own := ownBytes_length s.bid.own
  have bid := bidBytes_length s
  have position := quadBytes_length positionBytes_length s.feed.positions
  have output := outputBytes_length s
  have blocked : s.blockedBytes.length = 16 := quadBytes_length (blockedBytes_length s) _
  have stream := quadBytes_length streamBytes_length s.shownStreams
  have skip : ∀ {a : List Byte} {n : Nat} (b : List Byte) (i m : Nat), a.length = n → i = n + m →
      byteAt (a ++ b) i = byteAt b m := fun b i m h e => by
    subst e
    exact byteAt_append_right h b m
  have take : ∀ {a : List Byte} {n : Nat} (b : List Byte) (i : Nat), a.length = n → i < n → byteAt (a ++ b) i = byteAt a i :=
    fun b i h e => byteAt_append_left (h.symm ▸ e) b
  rw [stationBytes_parts]
  refine ⟨by simp [counter, own, bid, position, output, blocked, stream, be_one_eq], fun i h => ?_, fun i h => ?_, fun i h => ?_,
    fun k i h => ?_, fun i h => ?_, fun k i h => ?_, fun k i h => ?_, ?_, ?_⟩
  · rw [take _ i counter h]
  · rw [skip _ _ i counter rfl, take _ i own h]
  · rw [skip _ _ (7 + i) counter (by omega), skip _ _ i own rfl, take _ i bid h]
  · rw [skip _ _ (11 + 4 * k.val + i) counter (by omega), skip _ _ (4 + (4 * k.val + i)) own (by omega),
      skip _ _ (4 * k.val + i) bid rfl, take _ _ position (by omega), byteAt_quadBytes positionBytes_length h]
  · rw [skip _ _ (27 + i) counter (by omega), skip _ _ (20 + i) own (by omega), skip _ _ (16 + i) bid (by omega),
      skip _ _ i position rfl, take _ i output h]
  · rw [skip _ _ (33 + 4 * k.val + i) counter (by omega), skip _ _ (26 + 4 * k.val + i) own (by omega),
      skip _ _ (22 + 4 * k.val + i) bid (by omega), skip _ _ (6 + (4 * k.val + i)) position (by omega),
      skip _ _ (4 * k.val + i) output rfl, take _ _ blocked (by omega)]
    refine (byteAt_quadBytes (blockedBytes_length s) h _ k).trans ?_
    fin_cases k <;> rfl
  · rw [skip _ _ (49 + 11 * k.val + i) counter (by omega), skip _ _ (42 + 11 * k.val + i) own (by omega),
      skip _ _ (38 + 11 * k.val + i) bid (by omega), skip _ _ (22 + (11 * k.val + i)) position (by omega),
      skip _ _ (16 + (11 * k.val + i)) output (by omega), skip _ _ (11 * k.val + i) blocked rfl, take _ _ stream (by omega),
      byteAt_quadBytes streamBytes_length h]
  · rw [skip _ _ 93 counter (by omega), skip _ _ 86 own (by omega), skip _ _ 82 bid (by omega), skip _ _ 66 position (by omega),
      skip _ _ 60 output (by omega), skip _ _ 44 blocked (by omega), skip _ _ 0 stream (by omega), be_one_eq]
    rfl
  · rw [skip _ _ 94 counter (by omega), skip _ _ 87 own (by omega), skip _ _ 83 bid (by omega), skip _ _ 67 position (by omega),
      skip _ _ 61 output (by omega), skip _ _ 45 blocked (by omega), skip _ _ 1 stream (by omega), be_one_eq, be_one_eq]
    rfl

/-! ### The fields of the parts -/

theorem ownBytes_none : byteAt (ownBytes none) 0 = 0 ∧ twoAt (ownBytes none) 1 = 0 ∧ fourAt (ownBytes none) 3 = 0 := by decide

theorem ownBytes_some (o : OwnBid) :
    byteAt (ownBytes (some o)) 0 = BitVec.ofNat 8 ((match o.state with
        | .queued => 1 | .settling => 2 | .granted => 3 | .fired => 4) + 128 * o.cancelling.toNat)
      ∧ byteAt (ownBytes (some o)) 1 = o.desc.tag.owner ∧ byteAt (ownBytes (some o)) 2 = o.desc.tag.seq
      ∧ fourAt (ownBytes (some o)) 3 = o.window := by
  simp only [ownBytes, bit_eq, be_one_eq]
  exact ⟨by rfl, rfl, rfl, fourAt_be_word o.window⟩

theorem positionBytes_fields (p : Position) :
    byteAt (positionBytes p) 0 = BitVec.ofNat 8 ((match p.state with
        | .empty => 0 | .loaded => 1 | .bidding => 2 | .firing => 3) + 128 * p.unloading.toNat)
      ∧ byteAt (positionBytes p) 1 = BitVec.ofNat 8 p.article ∧ twoAt (positionBytes p) 2 = BitVec.ofNat 16 p.lot := by
  simp only [positionBytes, bit_eq, be_one_eq]
  exact ⟨by rfl, rfl, twoAt_be p.lot⟩

theorem no_tag : (0 : Byte) ++ (0 : Byte) = (0 : BitVec 16) := by decide

theorem streamBytes_fields (x : Stream) :
    byteAt (streamBytes x) 0 = x.lanes.setWidth 8
      ∧ byteAt (streamBytes x) 1 = BitVec.ofNat 8 ((x.current.map Prod.fst).getD 0)
      ∧ twoAt (streamBytes x) 2 = BitVec.ofNat 16 ((x.current.map Prod.snd).getD 0)
      ∧ byteAt (streamBytes x) 4 = BitVec.ofNat 8 x.passed
      ∧ byteAt (streamBytes x) 5 = (match x.spacer with | .none => 0 | .requested _ => 1 | .placed _ => 2)
      ∧ twoAt (streamBytes x) 6 = (match x.spacer with | .placed t => t.owner ++ t.seq | _ => 0)
      ∧ twoAt (streamBytes x) 8 = (match x.spacer with | .requested (some t) => t.owner ++ t.seq | _ => 0)
      ∧ byteAt (streamBytes x) 10 = (match x.lastStack with | .none => 0 | .full => 1 | .odd => 2 | .change => 3) := by
  obtain ⟨lanes, current, passed, serial, spacer, closure, lastStack⟩ := x
  simp only [streamBytes, be_one_eq, tagBytes_eq]
  refine ⟨BitVec.ofNat_toNat .., ?_, ?_, rfl, ?_, ?_, ?_, ?_⟩
  · cases current <;> rfl
  · refine (twoAt_be (current.getD (0, 0)).2).trans ?_
    cases current <;> rfl
  · cases spacer <;> rfl
  · cases spacer with
    | placed t => rfl
    | none => exact no_tag
    | requested e => exact no_tag
  · cases spacer with
    | requested e =>
      cases e with
      | some t => rfl
      | none => exact no_tag
    | none => exact no_tag
    | placed t => exact no_tag
  · cases lastStack <;> rfl

theorem blockedBytes_field (s : State) (k : Fin 4) : fourAt (beSigned 4 (s.shownBlocked k)) 0 =
    (match s.throat.bases.get k with | some c => s.line.highWater - c | none => 0) := by
  rw [fourAt_beSigned]
  unfold State.shownBlocked State.blockedDistance
  cases s.throat.bases.get k with
  | none => rfl
  | some c => exact BitVec.ofInt_toInt

theorem counterBytes_fields (s : State) :
    byteAt s.counterBytes 0 = (match s.station with | .setup => 0 | .joining => 1 | .active => 2 | .fault => 3)
      ∧ byteAt s.counterBytes 1 = (match s.role with | .feed => 1 | .throat => 2 | .outfeed => 3)
      ∧ byteAt s.counterBytes 2 = BitVec.ofNat 8 s.number ∧ fourAt s.counterBytes 3 = s.line.count
      ∧ fourAt s.counterBytes 7 = s.line.highWater ∧ twoAt s.counterBytes 11 = BitVec.ofInt 16 s.line.speed
      ∧ twoAt s.counterBytes 13 = BitVec.ofNat 16 (if s.role = .feed then s.line.lead else 0)
      ∧ twoAt s.counterBytes 15 = BitVec.ofNat 16 s.line.slips ∧ byteAt s.counterBytes 17 = s.bid.hold.bits := by
  simp only [State.counterBytes, be_one_eq]
  refine ⟨?_, ?_, rfl, fourAt_be_word s.line.count, fourAt_be_word s.line.highWater, twoAt_beSigned s.line.speed,
    twoAt_be s.shownLead, twoAt_be s.line.slips, rfl⟩
  · cases s.station <;> rfl
  · cases s.role <;> rfl

theorem bidBytes_fields (s : State) :
    byteAt s.bidBytes 0 = BitVec.ofNat 8 s.bid.passedOver ∧ twoAt s.bidBytes 1 = s.bid.deferral
      ∧ byteAt s.bidBytes 3 = (match s.feed.head with | some i => BitVec.ofNat 8 (i.val + 1) | none => 0) := by
  simp only [State.bidBytes, be_one_eq]
  refine ⟨rfl, twoAt_be_word s.bid.deferral, ?_⟩
  cases s.feed.head <;> rfl

theorem outputBytes_fields (s : State) :
    byteAt s.outputBytes 0 = BitVec.ofNat 8 ((s.feed.ready && decide (s.role = .feed)).toNat + 2 * s.feed.grip.toNat
          + 4 * s.feed.drop.toNat + 8 * s.outfeed.strobe.isSome.toNat + 16 * s.outfeed.divert.isSome.toNat
          + 32 * s.throat.relay.toNat)
      ∧ byteAt s.outputBytes 1 = BitVec.ofNat 8 s.foldByte
      ∧ byteAt s.outputBytes 2 = (match s.width.phase with | .idle => 0 | .armed => 1 | .converting => 2 | .resting => 3)
      ∧ twoAt s.outputBytes 3 = BitVec.ofNat 16 (if s.role = .feed then s.width.last else 0)
      ∧ byteAt s.outputBytes 5 = (if s.throat.jammed = true then 1 else 0) := by
  simp only [State.outputBytes, be_one_eq, State.levelByte, bit_eq]
  refine ⟨?_, rfl, ?_, twoAt_be _, ?_⟩
  · simp
    rfl
  · cases s.width.phase <;> rfl
  · cases s.throat.jammed <;> rfl

theorem foldByte_fields (s : State) : (BitVec.ofNat 8 s.foldByte).extractLsb' 0 4 = BitVec.ofNat 4 s.outfeed.foldCode
    ∧ ∀ i : Fin 4, (BitVec.ofNat 8 s.foldByte).getLsbD (4 + i.val) = (s.outfeed.stackChange.get i).isSome := by
  have one := Bool.toNat_le s.outfeed.stackChange.one.isSome
  have two := Bool.toNat_le s.outfeed.stackChange.two.isSome
  have three := Bool.toNat_le s.outfeed.stackChange.three.isSome
  have four := Bool.toNat_le s.outfeed.stackChange.four.isSome
  have flag : ∀ {i n : Nat} {b : Bool}, i < 8 → n / 2 ^ i % 2 = b.toNat → (BitVec.ofNat 8 n).getLsbD i = b := by
    intro i n b small place
    rw [BitVec.getLsbD_ofNat, Nat.testBit_eq_decide_div_mod_eq, place]
    cases b <;> simp [small]
  unfold State.foldByte
  simp only [bit_eq]
  constructor
  · apply BitVec.eq_of_toNat_eq
    rw [BitVec.extractLsb'_toNat, BitVec.toNat_ofNat, BitVec.toNat_ofNat, Nat.shiftRight_eq_div_pow]
    omega
  · intro i
    match i with
    | 0 => exact flag (i := 4) (b := s.outfeed.stackChange.one.isSome) (by decide) (by omega)
    | 1 => exact flag (i := 5) (b := s.outfeed.stackChange.two.isSome) (by decide) (by omega)
    | 2 => exact flag (i := 6) (b := s.outfeed.stackChange.three.isSome) (by decide) (by omega)
    | 3 => exact flag (i := 7) (b := s.outfeed.stackChange.four.isSome) (by decide) (by omega)

theorem shownStreams_get (s : State) (i : Fin 4) :
    s.shownStreams.get i = if s.role = .outfeed then s.outfeed.streams.get i else Stream.unused := by
  unfold State.shownStreams
  split
  · rfl
  · exact Quad.get_fill _ _

/-! ### Runs of two and four bytes of a part -/

theorem twoAt_of_bytes {l m : List Byte} {i j : Nat} (h : byteAt l i = byteAt m j) (h' : byteAt l (i + 1) = byteAt m (j + 1)) :
    twoAt l i = twoAt m j := by
  unfold twoAt
  rw [h, h']

theorem fourAt_of_bytes {l m : List Byte} {i j : Nat} (h : ∀ k, k < 4 → byteAt l (i + k) = byteAt m (j + k)) :
    fourAt l i = fourAt m j := by
  have high : twoAt l i = twoAt m j := twoAt_of_bytes (h 0 (by decide)) (h 1 (by decide))
  have low : twoAt l (i + 2) = twoAt m (j + 2) := twoAt_of_bytes (h 2 (by decide)) (h 3 (by decide))
  unfold fourAt
  rw [high, low]

theorem stationBytes_fields (s : State) (l : List Byte) (bytes : l = s.stationBytes) :
    l.length = 113 ∧ byteAt l 0 = (match s.station with | .setup => 0 | .joining => 1 | .active => 2 | .fault => 3)
      ∧ byteAt l 1 = (match s.role with | .feed => 1 | .throat => 2 | .outfeed => 3)
      ∧ byteAt l 2 = BitVec.ofNat 8 s.number ∧ fourAt l 3 = s.line.count ∧ fourAt l 7 = s.line.highWater
      ∧ twoAt l 11 = BitVec.ofInt 16 s.line.speed ∧ twoAt l 15 = BitVec.ofNat 16 s.line.slips
      ∧ twoAt l 13 = BitVec.ofNat 16 (if s.role = .feed then s.line.lead else 0)
      ∧ byteAt l 17 = BitVec.ofNat 8 (s.bid.hold.operator.toNat + 2 * s.bid.hold.jam.toNat
          + 4 * s.bid.hold.lineDown.toNat + 8 * s.bid.hold.mismatch.toNat + 16 * s.bid.hold.trackFull.toNat)
      ∧ (s.bid.own = none → byteAt l 18 = 0 ∧ twoAt l 19 = 0 ∧ fourAt l 21 = 0)
      ∧ (∀ o, s.bid.own = some o →
          byteAt l 18 = BitVec.ofNat 8 ((match o.state with
            | .queued => 1 | .settling => 2 | .granted => 3 | .fired => 4) + 128 * o.cancelling.toNat)
          ∧ byteAt l 19 = o.desc.tag.owner ∧ byteAt l 20 = o.desc.tag.seq ∧ fourAt l 21 = o.window)
      ∧ byteAt l 25 = BitVec.ofNat 8 s.bid.passedOver ∧ twoAt l 26 = s.bid.deferral
      ∧ byteAt l 28 = (match s.feed.head with | some i => BitVec.ofNat 8 (i.val + 1) | none => 0)
      ∧ (∀ (i : Fin 4) (p : Position), p = s.feed.positions.get i →
          byteAt l (29 + 4 * i.val) = BitVec.ofNat 8 ((match p.state with
            | .empty => 0 | .loaded => 1 | .bidding => 2 | .firing => 3) + 128 * p.unloading.toNat)
          ∧ byteAt l (30 + 4 * i.val) = BitVec.ofNat 8 p.article
          ∧ twoAt l (31 + 4 * i.val) = BitVec.ofNat 16 p.lot)
      ∧ byteAt l 45 = BitVec.ofNat 8 ((s.feed.ready && decide (s.role = .feed)).toNat + 2 * s.feed.grip.toNat
          + 4 * s.feed.drop.toNat + 8 * s.outfeed.strobe.isSome.toNat + 16 * s.outfeed.divert.isSome.toNat
          + 32 * s.throat.relay.toNat)
      ∧ lowAt l 46 = BitVec.ofNat 4 s.outfeed.foldCode
      ∧ (∀ i : Fin 4, (byteAt l 46).getLsbD (4 + i.val) = (s.outfeed.stackChange.get i).isSome)
      ∧ byteAt l 47 = (match s.width.phase with | .idle => 0 | .armed => 1 | .converting => 2 | .resting => 3)
      ∧ twoAt l 48 = BitVec.ofNat 16 (if s.role = .feed then s.width.last else 0)
      ∧ byteAt l 50 = (if s.throat.jammed = true then 1 else 0)
      ∧ (∀ k : Fin 4, fourAt l (51 + 4 * k.val) = (match s.throat.bases.get k with
          | some c => s.line.highWater - c | none => 0))
      ∧ (∀ (i : Fin 4) (x : Stream), x = (if s.role = .outfeed then s.outfeed.streams.get i else Stream.unused) →
          byteAt l (67 + 11 * i.val) = x.lanes.setWidth 8
          ∧ byteAt l (68 + 11 * i.val) = BitVec.ofNat 8 ((x.current.map Prod.fst).getD 0)
          ∧ twoAt l (69 + 11 * i.val) = BitVec.ofNat 16 ((x.current.map Prod.snd).getD 0)
          ∧ byteAt l (71 + 11 * i.val) = BitVec.ofNat 8 x.passed
          ∧ byteAt l (72 + 11 * i.val) = (match x.spacer with | .none => 0 | .requested _ => 1 | .placed _ => 2)
          ∧ twoAt l (73 + 11 * i.val) = (match x.spacer with | .placed t => t.owner ++ t.seq | _ => 0)
          ∧ twoAt l (75 + 11 * i.val) = (match x.spacer with | .requested (some t) => t.owner ++ t.seq | _ => 0)
          ∧ byteAt l (77 + 11 * i.val) = (match x.lastStack with | .none => 0 | .full => 1 | .odd => 2 | .change => 3))
      ∧ byteAt l 111 = BitVec.ofNat 8 s.link.outbox.length
      ∧ byteAt l 112 = BitVec.ofNat 8 (s.link.lastSender.getD 0) := by
  have parts : StationParts s l := bytes ▸ stationBytes_split s
  obtain ⟨station, role, number, count, highWater, speed, lead, slips, hold⟩ := counterBytes_fields s
  obtain ⟨passedOver, deferral, head⟩ := bidBytes_fields s
  obtain ⟨levels, fold, phase, last, jam⟩ := outputBytes_fields s
  obtain ⟨foldCode, stackChange⟩ := foldByte_fields s
  have counter4 : ∀ i, i + 3 < 18 → fourAt l i = fourAt s.counterBytes i := fun i h =>
    fourAt_of_bytes (fun k hk => parts.counter _ (by omega))
  have counter2 : ∀ i, i + 1 < 18 → twoAt l i = twoAt s.counterBytes i := fun i h =>
    twoAt_of_bytes (parts.counter _ (by omega)) (parts.counter _ (by omega))
  have own4 : fourAt l 21 = fourAt (ownBytes s.bid.own) 3 := fourAt_of_bytes (fun k hk => by
    have := parts.own (3 + k) (by omega)
    rwa [← Nat.add_assoc] at this)
  have foldByte : byteAt l 46 = BitVec.ofNat 8 s.foldByte := (parts.output 1 (by decide)).trans fold
  refine ⟨parts.length, (parts.counter 0 (by decide)).trans station, (parts.counter 1 (by decide)).trans role,
    (parts.counter 2 (by decide)).trans number, (counter4 3 (by decide)).trans count, (counter4 7 (by decide)).trans highWater,
    (counter2 11 (by decide)).trans speed, (counter2 15 (by decide)).trans slips, (counter2 13 (by decide)).trans lead,
    (parts.counter 17 (by decide)).trans hold, fun none => ?_, fun o own => ?_, (parts.bid 0 (by decide)).trans passedOver,
    (twoAt_of_bytes (parts.bid 1 (by decide)) (parts.bid 2 (by decide))).trans deferral, (parts.bid 3 (by decide)).trans head,
    fun i p position => ?_, (parts.output 0 (by decide)).trans levels, ?_, fun i => ?_, (parts.output 2 (by decide)).trans phase,
    (twoAt_of_bytes (parts.output 3 (by decide)) (parts.output 4 (by decide))).trans last,
    (parts.output 5 (by decide)).trans jam, fun k => ?_, fun i x stream => ?_, parts.link.1, parts.link.2⟩
  · obtain ⟨state, tag, window⟩ := ownBytes_none
    refine ⟨(parts.own 0 (by decide)).trans (by rw [none]; exact state),
      (twoAt_of_bytes (parts.own 1 (by decide)) (parts.own 2 (by decide))).trans (by rw [none]; exact tag),
      own4.trans (by rw [none]; exact window)⟩
  · obtain ⟨state, owner, seq, window⟩ := ownBytes_some o
    rw [← own] at state owner seq window
    exact ⟨(parts.own 0 (by decide)).trans state, (parts.own 1 (by decide)).trans owner, (parts.own 2 (by decide)).trans seq,
      own4.trans window⟩
  · obtain ⟨state, article, lot⟩ := positionBytes_fields p
    have at_ : ∀ j, j < 4 → byteAt l (29 + 4 * i.val + j) = byteAt (positionBytes p) j := position ▸ parts.position i
    rw [show 30 + 4 * i.val = 29 + 4 * i.val + 1 by omega, show 31 + 4 * i.val = 29 + 4 * i.val + 2 by omega]
    exact ⟨(at_ 0 (by decide)).trans state, (at_ 1 (by decide)).trans article,
      (twoAt_of_bytes (at_ 2 (by decide)) (at_ 3 (by decide))).trans lot⟩
  · unfold lowAt
    rw [foldByte, foldCode]
  · rw [foldByte, stackChange]
  · exact (fourAt_of_bytes (fun j hj => by simpa using parts.blocked k j hj)).trans (blockedBytes_field s k)
  · obtain ⟨lanes, article, lot, passed, spacer, placed, requested, lastStack⟩ := streamBytes_fields x
    have at_ : ∀ j, j < 11 → byteAt l (67 + 11 * i.val + j) = byteAt (streamBytes x) j := by
      rw [stream, ← shownStreams_get]
      exact parts.stream i
    rw [show 68 + 11 * i.val = 67 + 11 * i.val + 1 by omega, show 69 + 11 * i.val = 67 + 11 * i.val + 2 by omega,
      show 71 + 11 * i.val = 67 + 11 * i.val + 4 by omega, show 72 + 11 * i.val = 67 + 11 * i.val + 5 by omega,
      show 73 + 11 * i.val = 67 + 11 * i.val + 6 by omega, show 75 + 11 * i.val = 67 + 11 * i.val + 8 by omega,
      show 77 + 11 * i.val = 67 + 11 * i.val + 10 by omega]
    exact ⟨(at_ 0 (by decide)).trans lanes, (at_ 1 (by decide)).trans article,
      (twoAt_of_bytes (at_ 2 (by decide)) (at_ 3 (by decide))).trans lot, (at_ 4 (by decide)).trans passed,
      (at_ 5 (by decide)).trans spacer, (twoAt_of_bytes (at_ 6 (by decide)) (at_ 7 (by decide))).trans placed,
      (twoAt_of_bytes (at_ 8 (by decide)) (at_ 9 (by decide))).trans requested, (at_ 10 (by decide)).trans lastStack⟩

/-! ## The rows of the reads and MISO -/

theorem reply_some (s : State) (l : List Byte) (free : s.port.held = false) : (reply (some l) s).port =
    { cut := false, last := .ok, status := s.shownWord, reply := 0 :: l, captured := none, held := false } := by
  simp [reply, answer, free, be_one_eq, Result.code]

theorem reply_none (s : State) (free : s.port.held = false) : (reply none s).port =
    { cut := false, last := .notFound, status := s.shownWord, reply := [5], captured := none, held := false } := by
  simp [reply, answer, free, be_one_eq, Result.code]

theorem reply_frame (record : Option (List Byte)) (s : State) : SameBut [.port] s (reply record s) := by
  cases record <;> exact answer_frame _ _ _ _

/-- Each read gives its record, and a record of its command's length (R56, R175, R179, R188). -/
theorem read_row (s : State) (c : Instr) (record : Option (List Byte)) (n : Nat) (free : s.port.held = false)
    (h : (∃ k : Byte, c = .readEvent k ∧ record = (s.fifo.held[k.toNat]?).map eventBytes ∧ n = 19) ∨
      (∃ k : Byte, c = .readTrack k
        ∧ record = (s.track.records[k.toNat]?).map (recordBytes s.line.highWater) ∧ n = 27) ∨
      (∃ k : Byte, c = .readPeer k ∧ record = (s.peer k.toNat).map (peerBytes s.now) ∧ n = 19) ∨
      (c = .readStation ∧ record = some s.stationBytes ∧ n = 114)) :
    exec c s = .next (reply record s) ∧ ∀ l, record = some l → l.length + 1 = n := by
  rcases h with ⟨k, rfl, rfl, rfl⟩ | ⟨k, rfl, rfl, rfl⟩ | ⟨k, rfl, rfl, rfl⟩ | ⟨rfl, rfl, rfl⟩
  · refine ⟨congrArg Host.Outcome.next (transact_taken free _), fun l h => ?_⟩
    obtain ⟨e, -, bytes⟩ := Option.map_eq_some_iff.mp h
    rw [(eventBytes_fields e _ l rfl bytes.symm).1]
  · refine ⟨congrArg Host.Outcome.next (transact_taken free _), fun l h => ?_⟩
    obtain ⟨r, -, bytes⟩ := Option.map_eq_some_iff.mp h
    rw [(recordBytes_fields _ r l bytes.symm).1]
  · refine ⟨congrArg Host.Outcome.next (transact_taken free _), fun l h => ?_⟩
    obtain ⟨p, -, bytes⟩ := Option.map_eq_some_iff.mp h
    cases hailed : p.hailed with
    | none =>
      rw [(peerBytes_fields s.now p _ l bytes.symm (fun x hx => by rw [hailed] at hx; cases hx) (fun _ => rfl)).1]
    | some f =>
      rw [(peerBytes_fields s.now p f l bytes.symm (fun x hx => by rw [hailed] at hx; cases hx; rfl)
        (fun hx => by rw [hailed] at hx; cases hx)).1]
  · refine ⟨congrArg Host.Outcome.next (transact_taken free _), fun l h => ?_⟩
    cases h
    rw [(stationBytes_fields s _ rfl).1]

/-- MISO: the status word, the turnaround, the reply, then zeros (R176, R177). -/
theorem miso_bytes (s : State) : (s.port.held = true → ∀ j, s.miso j = none) ∧
    (s.port.held = false → s.miso 0 = some (s.port.status.extractLsb' 8 8)
      ∧ s.miso 1 = some (s.port.status.extractLsb' 0 8)
      ∧ (s.port.reply ≠ [] → s.miso 2 = some 0 ∧ ∀ j, s.miso (3 + j) = some ((s.port.reply[j]?).getD 0))) := by
  refine ⟨fun held j => if_pos held, fun free => ?_⟩
  have driven : ¬ s.port.held = true := by simp [free]
  refine ⟨if_neg driven, if_neg driven, fun answered => ⟨?_, fun j => ?_⟩⟩
  · simp [State.miso, free, answered]
  · have after : 3 + j ≠ 0 ∧ 3 + j ≠ 1 ∧ 3 + j ≠ 2 := by omega
    simp [State.miso, free, answered, after, byteAt, List.getD_eq_getElem?_getD]

/-- Settles O51: the row of each read, and the records field by field. -/
theorem readsShowRecords : Obligations.ReadsShowRecords := by
  refine ⟨fun s c record n free read => ?_, miso_bytes, eventBytes_fields, eventCodes, recordBytes_fields, peerBytes_fields,
    stationBytes_fields⟩
  obtain ⟨row, length⟩ := read_row s c record n free read
  refine ⟨reply record s, row, fun l found => ?_, fun none => ?_, reply_frame record s⟩
  · subst found
    rw [reply_some s l free]
    exact ⟨rfl, length l rfl⟩
  · subst none
    exact reply_none s free

end Sys2Proof.Machine
end

section
/-! The obligation of DUPLICATE_NUMBER (R102, R109, R149, R151, R159, R163). -/
namespace Sys2Proof.Machine

/-! ## The own bid at the entry to FAULT (R102) -/

/-- The event of an own bid that ends at the entry to FAULT (R102). -/
def OwnBid.faultEvent (o : OwnBid) : Event := if o.state = .fired then { kind := .unconfirmed, code := some 3 } else o.recalled 12

/-- The end of an own bid is told only where the position it served was marked (R109). -/
theorem endOwn_events {s : State} {o : OwnBid} (own : s.bid.own = some o) : (endOwn s).fifo = s.withEvents
    (if (s.feed.positions.get o.serves).state = .bidding ∧ (s.feed.positions.get o.serves).unloading = true then [s.unloaded o]
      else []) := by
  unfold endOwn
  rw [own]
  unfold releasePosition
  dsimp only [State.setBid_feed]
  by_cases bidding : (s.feed.positions.get o.serves).state = .bidding
  · cases marked : (s.feed.positions.get o.serves).unloading with
    | true =>
      rw [if_pos bidding, if_pos rfl, if_pos ⟨bidding, rfl⟩]
      rfl
    | false =>
      rw [if_pos bidding, if_neg (by simp), if_neg (by simp)]
      rfl
  · rw [if_neg bidding, if_neg (fun h => bidding h.1)]
    rfl

/-- The own bid at the entry to FAULT: its event, and for a landing bid its record, before it ends (R102). -/
theorem faultOwn_eq {s : State} {o : OwnBid} (own : s.bid.own = some o) (live : o.state = .queued → o.cancelling = false) :
    faultOwn s = endOwn (raise o.faultEvent
      (if o.state = .settling ∨ o.state = .granted then dropOwnRecord o.desc.tag s else s)) := by
  unfold faultOwn
  rw [own]
  dsimp only
  cases state : o.state with
  | queued => simp [live state, OwnBid.faultEvent, state]; rfl
  | settling => simp [OwnBid.faultEvent, state]; rfl
  | granted => simp [OwnBid.faultEvent, state]; rfl
  | fired => simp [OwnBid.faultEvent, state]

theorem faultOwn_of_no_own {s : State} (h : s.bid.own = none) : faultOwn s = s := by
  unfold faultOwn
  rw [h]

theorem faultOwn_own (s : State) : (faultOwn s).bid.own = none := by
  unfold faultOwn
  split
  · assumption
  · split
    · split <;> exact endOwn_own _
    · exact endOwn_own _
    · exact endOwn_own _
    · exact endOwn_own _

theorem faultOwn_steady (s : State) : Steady s (faultOwn s) := by
  unfold faultOwn
  split
  · exact .refl s
  · split
    · exact .ite (endOwn_steady s) ((raise_steady _ s).trans (endOwn_steady _))
    · exact ((dropOwnRecord_steady _ s).trans (raise_steady _ _)).trans (endOwn_steady _)
    · exact ((dropOwnRecord_steady _ s).trans (raise_steady _ _)).trans (endOwn_steady _)
    · exact (raise_steady _ s).trans (endOwn_steady _)

/-- An own bid, and the frame of what ends it at the entry to FAULT: the link is not written (R102). -/
abbrev faultBlocks : List Block := [.track, .eye, .bid, .feed, .width, .outfeed, .fifo]

theorem faultOwn_frame (s : State) : SameBut faultBlocks s (faultOwn s) := by
  have told : ∀ (e : Event) (t : State), SameBut faultBlocks t (endOwn (raise e t)) := fun e t =>
    (raise_frame e t).then (endOwn_frame _) (by decide) (by decide)
  have dropped : ∀ tag, SameBut faultBlocks s (dropOwnRecord tag s) := fun tag =>
    (dropOwnRecord_frame tag s).widen (by decide)
  unfold faultOwn
  split
  · exact .refl _ s
  · split
    · exact .ite ((endOwn_frame s).widen (by decide)) (told _ s)
    · exact (dropped _).trans (told _ _)
    · exact (dropped _).trans (told _ _)
    · exact told _ s

/-- What the entry to FAULT does with an own bid: its events, its position, and its record (R102, R109). -/
theorem faultOwn_spec {s : State} {o : OwnBid} (own : s.bid.own = some o) (live : o.state = .queued → o.cancelling = false) :
    (faultOwn s).fifo = s.withEvents (o.faultEvent :: (if (s.feed.positions.get o.serves).state = .bidding
          ∧ (s.feed.positions.get o.serves).unloading = true then [s.unloaded o] else []))
      ∧ (faultOwn s).feed.positions = (if (s.feed.positions.get o.serves).state = .bidding then
          s.feed.positions.set o.serves (if (s.feed.positions.get o.serves).unloading = true then Position.none
            else { s.feed.positions.get o.serves with state := .loaded })
          else s.feed.positions)
      ∧ (faultOwn s).track.records = (if o.state = .settling ∨ o.state = .granted then
          (if (s.record o.desc.tag).any (fun r => r.own) = true then
            s.track.records.filter (fun r => r.desc.tag != o.desc.tag) else s.track.records)
          else s.track.records) := by
  rw [faultOwn_eq own live]
  let u := if o.state = .settling ∨ o.state = .granted then dropOwnRecord o.desc.tag s else s
  have frame : SameBut [.track, .eye, .bid, .width, .outfeed] s u := .ite (dropOwnRecord_frame _ s) (.refl _ s)
  have own' : u.bid.own = some o := by
    show (if _ then _ else _ : State).bid.own = _
    split
    · rw [dropOwnRecord_own, own]
    · exact own
  have feed : u.feed = s.feed := frame .feed (by decide)
  have fifo : u.fifo = s.fifo := frame .fifo (by decide)
  have store : u.store = s.store := frame .store (by decide)
  refine ⟨?_, ?_, ?_⟩
  · show (endOwn (raise o.faultEvent u)).fifo = _
    rw [endOwn_events (s := raise o.faultEvent u) own']
    show (raise o.faultEvent u).withEvents (if (u.feed.positions.get o.serves).state = .bidding
      ∧ (u.feed.positions.get o.serves).unloading = true then [(raise o.faultEvent u).unloaded o] else []) = _
    have told : (raise o.faultEvent u).unloaded o = s.unloaded o := by
      unfold State.unloaded
      rw [raise_feed, feed]
    rw [told, feed]
    unfold State.withEvents
    rw [raise_store, raise_fifo, store, withEvent_congr fifo store]
    rfl
  · show (endOwn (raise o.faultEvent u)).feed.positions = _
    rw [endOwn_positions (raise o.faultEvent u) o own', raise_feed, feed]
  · show (endOwn (raise o.faultEvent u)).track.records = _
    rw [endOwn_frame _ .track (by decide), raise_track]
    show (if _ then _ else _ : State).track.records = _
    split
    · exact dropOwnRecord_records _ s
    · rfl

/-! ## DUPLICATE_NUMBER -/

theorem fault_ineligible {s : State} (h : s.station = .fault) :
    (finish s).bid.own = s.bid.own ∧ SameBut [.bid, .outfeed] s (finish s) := by
  obtain ⟨own, -, -, frame⟩ := finish_idle s (by simp [h])
  exact ⟨own, frame⟩

theorem enterFault_frame (k : MsgKind) (s : State) : SameBut ([.station, .link, .peers] ++ faultBlocks) s (enterFault k s) :=
  (((((raise_frame _ s).widen (by decide)).trans ((setLink_frame _ _).widen (by decide))).trans
    ((faultOwn_frame _).widen (by decide))).trans ((setPeers_frame _ _).widen (by decide))).trans
    ((setStation_frame _ _).widen (by decide))

theorem duplicate_enters (s : State) (time : Nat) (kind : MsgKind) (running : s.running) (healthy : s.station ≠ .fault)
    (taken : s.takes kind time) :
    ∃ t, exec (.duplicateNumber time kind) s = .next t
      ∧ t.station = .fault ∧ t.bid.own = none ∧ t.bid.jamming = s.bid.jamming
      ∧ t.bid.hold = { s.bid.hold with trackFull := t.bid.hold.trackFull }
      ∧ t.link.outbox = s.link.outbox.filter (fun e => e.sending) ∧ t.link.waitingBid = none
      ∧ t.peers = { s.peers with hailTimer := none }
      ∧ t.link.quiet = some (max s.now time + 20) ∧ t.now = max s.now time
      ∧ (s.bid.own = none → t.track.records = s.track.records ∧ t.feed.positions = s.feed.positions
          ∧ t.fifo = s.withEvent { kind := .fault, code := some (kindValue kind) })
      ∧ (∀ o, s.bid.own = some o → (o.state = .queued → o.cancelling = false) →
          t.fifo = s.withEvents ({ kind := .fault, code := some (kindValue kind) }
              :: (if o.state = .fired then { kind := .unconfirmed, code := some 3 } else o.recalled 12)
              :: (if (s.feed.positions.get o.serves).state = .bidding
                    ∧ (s.feed.positions.get o.serves).unloading = true then [s.unloaded o] else []))
            ∧ t.feed.positions = (if (s.feed.positions.get o.serves).state = .bidding then
                s.feed.positions.set o.serves (if (s.feed.positions.get o.serves).unloading = true then Position.none
                  else { s.feed.positions.get o.serves with state := .loaded })
                else s.feed.positions)
            ∧ (o.state = .queued ∨ o.state = .fired → t.track.records = s.track.records)
            ∧ (o.state = .settling ∨ o.state = .granted →
                t.track.records = (if (s.record o.desc.tag).any (fun r => r.own) = true then
                  s.track.records.filter (fun r => r.desc.tag != o.desc.tag) else s.track.records)))
      ∧ SameBut ([.station, .now, .line, .peers] ++ listBlocks) s t := by
  let u := restartGrid (advanceTo time s)
  let v := cancelWaiting (raise (faultEvent kind) u)
  let w := enterFault kind u
  have moved : SameBut [.now, .line, .link] s u :=
    (advanceTo_frame time s).then (setLink_frame _ _) (by decide) (by decide)
  have now : u.now = max s.now time := advanceTo_now time s
  have bid : v.bid = s.bid := moved .bid (by decide)
  have feed : v.feed = s.feed := moved .feed (by decide)
  have track : v.track = s.track := moved .track (by decide)
  have fifo : v.fifo = s.withEvent (faultEvent kind) :=
    withEvent_congr (t := u) (moved .fifo (by decide)) (moved .store (by decide)) _
  have store : v.store = s.store := moved .store (by decide)
  have outbox : v.link.outbox = s.link.outbox.filter (fun e => e.sending) := by
    show (advanceTo time s).link.outbox.filter _ = _
    rw [advanceTo_link]
  obtain ⟨own, settled⟩ := fault_ineligible (s := w) rfl
  have row : exec (.duplicateNumber time kind) s = .next (finish w) := by
    have healthy' : (restartGrid (advanceTo time s)).station ≠ .fault := by
      rwa [show (restartGrid (advanceTo time s)).station = s.station from moved .station (by decide)]
    show execDuplicateNumber time kind s = _
    rw [execDuplicateNumber, if_pos ((tookFrame_iff s kind time running).mpr taken)]
    exact congrArg Host.Outcome.next (if_neg healthy')
  have steady : Steady v (finish w) := (faultOwn_steady v).trans
    ((Steady.of_frame (l := [.peers, .station]) ((setPeers_frame _ _).then (setStation_frame _ _) (by decide) (by decide))
      (by decide)).trans (finish_steady w))
  have link : (finish w).link = v.link := (settled .link (by decide)).trans (faultOwn_frame v .link (by decide))
  have fifo' : (finish w).fifo = (faultOwn v).fifo := settled .fifo (by decide)
  have feed' : (finish w).feed = (faultOwn v).feed := settled .feed (by decide)
  have track' : (finish w).track = (faultOwn v).track := settled .track (by decide)
  refine ⟨finish w, row, ?_, ?_, ?_, ?_, ?_, ?_, ?_, ?_, ?_, fun none => ?_, fun o held live => ?_, ?_⟩
  · exact settled .station (by decide)
  · exact own.trans (faultOwn_own v)
  · rw [steady.jamming, bid]
  · rw [steady.hold, bid]
  · rw [link, outbox]
  · rw [link]
    rfl
  · rw [settled .peers (by decide)]
    show { (faultOwn v).peers with hailTimer := none } = _
    rw [faultOwn_frame v .peers (by decide), show v.peers = s.peers from moved .peers (by decide)]
  · rw [link]
    show some (u.now + 20) = _
    rw [now]
  · rw [settled .now (by decide)]
    exact (faultOwn_frame v .now (by decide)).trans now
  · rw [track', feed', fifo', faultOwn_of_no_own (by rw [bid, none]), track, feed, fifo]
    exact ⟨rfl, rfl, rfl⟩
  · have held' : v.bid.own = some o := by rw [bid, held]
    obtain ⟨events, positions, records⟩ := faultOwn_spec held' live
    rw [feed] at events positions
    rw [track, record_congr (congrArg TrackList.records track)] at records
    rw [fifo', feed', track']
    refine ⟨?_, positions, fun h => ?_, fun h => ?_⟩
    · rw [events]
      unfold State.withEvents State.unloaded
      rw [fifo, store, feed]
      rfl
    · rw [records, if_neg]
      rcases h with h | h <;> simp [h]
    · rw [records, if_pos h]
  · exact ((moved.widen (by decide)).trans ((enterFault_frame kind u).widen (by decide))).trans (settled.widen (by decide))

/-- Settles O35: the three forms of the row. -/
theorem duplicateEntersFault : Obligations.DuplicateEntersFault := by
  refine ⟨duplicate_enters, fun s time kind fault taken => ?_, fun s time kind missed => ?_⟩
  · have running : s.running := by simp [State.running, fault]
    have moved : SameBut [.now, .line, .link] s (restartGrid (advanceTo time s)) :=
      (advanceTo_frame time s).then (setLink_frame _ _) (by decide) (by decide)
    have fault' : (restartGrid (advanceTo time s)).station = .fault := (moved .station (by decide)).trans fault
    refine ⟨restartGrid (advanceTo time s), ?_, ?_, advanceTo_now time s, moved⟩
    · show execDuplicateNumber time kind s = _
      rw [execDuplicateNumber, if_pos ((tookFrame_iff s kind time running).mpr taken)]
      exact congrArg Host.Outcome.next (if_pos fault')
    · unfold restartGrid
      simp only [State.setLink_link, advanceTo_link, advanceTo_now]
      rfl
  · refine if_neg (fun took => missed ?_)
    by_cases running : s.running
    · exact (tookFrame_iff s kind time running).mp took
    · exact absurd took (by simp [State.tookFrame, State.takesFrame, not_not.mp running])

end Sys2Proof.Machine
end

section
/-! An own bid that no recall touches, or none at all: the shared operations leave it, the outbox and the positions as they
are. One lemma per operation, in the order of the definitions. -/
namespace Sys2Proof.Machine

/-- No recall touches the own bid: there is none, or it is FIRED, or its withdrawal runs already (R81, R95). -/
def State.ownFixed (s : State) : Prop := ∀ o, s.bid.own = some o → o.state = .fired ∨ (o.state = .queued ∧ o.cancelling = true)

/-- From `s` to `t` the own bid stands, and only these blocks have been written. -/
structure OwnLeft (l : List Block) (s t : State) : Prop where
  own : t.bid.own = s.bid.own
  frame : SameBut l s t

theorem OwnLeft.refl (l : List Block) (s : State) : OwnLeft l s s := ⟨rfl, .refl l s⟩

theorem OwnLeft.trans {l : List Block} {s t u : State} (h : OwnLeft l s t) (k : OwnLeft l t u) : OwnLeft l s u :=
  ⟨k.own.trans h.own, h.frame.trans k.frame⟩

theorem OwnLeft.widen {l m : List Block} {s t : State} (h : OwnLeft l s t) (sub : ∀ b ∈ l, b ∈ m) : OwnLeft m s t :=
  ⟨h.own, h.frame.widen sub⟩

theorem OwnLeft.of_frame {l : List Block} {s t : State} (h : SameBut l s t) (bid : Block.bid ∉ l) : OwnLeft l s t :=
  ⟨congrArg BidEngine.own (h .bid bid), h⟩

theorem OwnLeft.ite {l : List Block} {s t u : State} {p : Prop} [Decidable p] (h : OwnLeft l s t) (k : OwnLeft l s u) :
    OwnLeft l s (if p then t else u) := by
  split
  · exact h
  · exact k

theorem OwnLeft.fixed {l : List Block} {s t : State} (h : OwnLeft l s t) (fixed : s.ownFixed) : t.ownFixed := fun o own =>
  fixed o (h.own ▸ own)

/-- A run of operations that each leave a fixed own bid. -/
theorem OwnLeft.foldl {l : List Block} {α : Type} (f : State → α → State) (h : ∀ s a, s.ownFixed → OwnLeft l s (f s a)) :
    ∀ (as : List α) (s : State), s.ownFixed → OwnLeft l s (as.foldl f s)
  | [], s, _ => .refl l s
  | a :: as, s, fixed => (h s a fixed).trans (OwnLeft.foldl f h as (f s a) ((h s a fixed).fixed fixed))

theorem ownFixed_none {s : State} (h : s.bid.own = none) : s.ownFixed := fun o own => by
  rw [h] at own
  cases own

theorem recallOwn_fixed {s : State} (fixed : s.ownFixed) (code : Nat) (a : Option Int) : recallOwn code a s = s :=
  recallOwn_stands fixed code a

theorem noteChange_left (lanes : Lanes) (s : State) : OwnLeft [.bid, .outfeed] s (noteChange lanes s) := by
  refine ⟨?_, noteChange_frame lanes s⟩
  unfold noteChange
  dsimp only
  split <;> rfl

theorem forgetTag_left (tag : Tag) (s : State) : OwnLeft [.eye, .bid, .width, .outfeed] s (forgetTag tag s) :=
  ⟨rfl, forgetTag_frame tag s⟩

theorem dropRecord_left (tag : Tag) (s : State) : OwnLeft [.track, .eye, .bid, .width, .outfeed] s (dropRecord tag s) :=
  ⟨dropRecord_own tag s, dropRecord_frame tag s⟩

theorem holdJoin_fixed {s : State} (fixed : s.ownFixed) (c : HoldCause) :
    holdJoin c s = if s.bid.hold.has c then s else putHold c true s := by
  unfold holdJoin
  rw [recallOwn_fixed (s := putHold c true s) fixed]

theorem holdJoin_left {s : State} (fixed : s.ownFixed) (c : HoldCause) : OwnLeft [.bid] s (holdJoin c s) := by
  rw [holdJoin_fixed fixed]
  exact .ite (.refl _ s) ⟨rfl, putHold_frame c true s⟩

theorem endRequest_left {s : State} (fixed : s.ownFixed) (i : Fin 4) : OwnLeft [.bid] s (endRequest i s) := by
  have ended : OwnLeft [.bid] s (s.setBid { s.bid with request := none, retry := none }) := ⟨rfl, setBid_frame _ _⟩
  refine .ite ?_ ended
  rw [recallOwn_fixed (ended.fixed fixed)]
  exact ended

theorem withdrawSpacer_left {s : State} (fixed : s.ownFixed) (i : Fin 4) : OwnLeft [.bid, .outfeed] s (withdrawSpacer i s) := by
  have dropped : OwnLeft [.bid, .outfeed] s (dropRequest i s) :=
    (OwnLeft.of_frame (dropRequest_frame i s) (by decide)).widen (by decide)
  exact .ite (dropped.trans ((endRequest_left (dropped.fixed fixed) i).widen (by decide))) dropped

theorem endPieceGone_left {s : State} (fixed : s.ownFixed) (tag : Tag) : OwnLeft [.bid, .outfeed] s (endPieceGone tag s) :=
  .foldl _ (fun t i fixed => .ite (withdrawSpacer_left fixed i) (.refl _ t)) _ s fixed

theorem removeRecord_left {s : State} (fixed : s.ownFixed) (tag : Tag) :
    OwnLeft [.track, .eye, .bid, .width, .outfeed] s (removeRecord tag s) :=
  (dropRecord_left tag s).trans ((endPieceGone_left ((dropRecord_left tag s).fixed fixed) tag).widen (by decide))

theorem recheck_fixed {s : State} (fixed : s.ownFixed) (tag : Tag) : recheck tag s = s := by
  unfold recheck
  split
  · rw [recallOwn_fixed fixed, ite_self]
  · rfl

theorem recordChange_left (r : Record) (l : List Record) (s : State) :
    OwnLeft [.track, .bid, .outfeed] s (noteChange r.desc.lanes (s.setRecords l)) :=
  ((OwnLeft.of_frame (setRecords_frame s l) (by decide)).widen (by decide)).trans ((noteChange_left _ _).widen (by decide))

theorem insertNew_fixed {s : State} (fixed : s.ownFixed) (r : Record) :
    insertNew r s = noteChange r.desc.lanes (s.setRecords (insertRecord r s.track.records)) :=
  recheck_fixed ((recordChange_left r _ s).fixed fixed) _

theorem putRecord_fixed {s : State} (fixed : s.ownFixed) (r : Record) :
    putRecord r s = noteChange r.desc.lanes (s.setRecords (replaceRecord r s.track.records)) :=
  recheck_fixed ((recordChange_left r _ s).fixed fixed) _

theorem changeRecord_left {s : State} (fixed : s.ownFixed) (old r : Record) :
    OwnLeft [.track, .bid, .outfeed] s (changeRecord old r s) := by
  have set : OwnLeft [.track, .bid, .outfeed] s (s.setRecords (replaceRecord r s.track.records)) :=
    (OwnLeft.of_frame (setRecords_frame s _) (by decide)).widen (by decide)
  have noted := OwnLeft.ite (p := old.altered s.line.highWater r = true)
    (recordChange_left r (replaceRecord r s.track.records) s) set
  unfold changeRecord
  dsimp only
  rw [recheck_fixed (noted.fixed fixed), ite_self]
  exact noted

theorem insertNew_left {s : State} (fixed : s.ownFixed) (r : Record) : OwnLeft [.track, .bid, .outfeed] s (insertNew r s) := by
  rw [insertNew_fixed fixed]
  exact recordChange_left r _ s

theorem replaceWhole_left {s : State} (fixed : s.ownFixed) (old r : Record) :
    OwnLeft [.track, .eye, .bid, .width, .outfeed] s (replaceWhole old r s) := by
  have forgot : OwnLeft [.track, .eye, .bid, .width, .outfeed] s (forgetTag old.desc.tag (noteChange old.desc.lanes s)) :=
    ((noteChange_left _ s).widen (by decide)).trans ((forgetTag_left _ _).widen (by decide))
  have gone := forgot.trans ((endPieceGone_left (forgot.fixed fixed) old.desc.tag).widen (by decide))
  unfold replaceWhole
  rw [putRecord_fixed (gone.fixed fixed)]
  exact gone.trans ((recordChange_left r _ _).widen (by decide))

theorem overflow_left {s : State} (fixed : s.ownFixed) (d : Desc) (source : Nat) : OwnLeft [.bid, .fifo] s (overflow d source s) :=
  .ite (.refl _ s) (((OwnLeft.of_frame (raise_frame _ s) (by decide)).widen (by decide)).trans
    ((holdJoin_left (s := raise (trackFullEvent d source) s) fixed .trackFull).widen (by decide)))

theorem fileRecord_left {s : State} (fixed : s.ownFixed) (r : Record) (source : Nat) :
    OwnLeft [.track, .eye, .bid, .width, .outfeed, .fifo] s (fileRecord r source s) := by
  unfold fileRecord
  split
  · exact (replaceWhole_left fixed _ r).widen (by decide)
  · exact .ite ((insertNew_left fixed r).widen (by decide)) ((overflow_left fixed _ _).widen (by decide))

/-! ## What the rest does not begin: no entry becomes SENDING by the message of an own frame -/

/-- An outbox with nothing SENDING keeps nothing SENDING. -/
def SendsNothing (s t : State) : Prop := outboxStill s.link.outbox → outboxStill t.link.outbox

theorem SendsNothing.of_link {s t : State} (h : t.link.outbox = s.link.outbox) : SendsNothing s t := fun still => h ▸ still

theorem SendsNothing.ite {s t u : State} {p : Prop} [Decidable p] (h : SendsNothing s t) (k : SendsNothing s u) :
    SendsNothing s (if p then t else u) := by
  split
  · exact h
  · exact k

theorem beaten_sendsNothing (o : OwnBid) (owner code : Nat) (s : State) : SendsNothing s (beaten o owner code s) := by
  unfold beaten
  dsimp only
  generalize (if s.run.line.limit ≤ s.bid.passedOver then s.bid.passedOver else s.bid.passedOver + 1) = n
  exact ((((enqueue_steady (.recall o.desc.tag) (s.setBid { s.bid with passedOver := n })).trans
    (dropOwnRecord_steady _ _)).trans (endOwn_steady _)).trans (raise_steady _ _)).still

theorem settleEnds_sendsNothing (o : OwnBid) (rivals : List Rival) (s : State) : SendsNothing s (settleEnds o rivals s) := by
  unfold settleEnds
  split
  · exact beaten_sendsNothing _ _ _ s
  · split
    · exact (recallOwn_steady _ _ s).still
    · exact .ite (recallOwn_steady _ _ s).still (.ite (recallOwn_steady _ _ s).still id)

theorem fileOwn_steady (r : Record) (s : State) : Steady s (fileOwn r s) := by
  unfold fileOwn
  split
  · exact replaceWhole_steady _ r s
  · exact .ite (insertNew_steady r s) (.ite (.refl s) ((raise_steady _ s).trans (putTrackFull_steady _)))

theorem acceptOrphan_steady (d : Desc) (tl : Count) (s : State) : Steady s (acceptOrphan d tl s) := by
  have filed := fileRecord_steady (bidRecord d tl s.number true false) 1 s
  unfold acceptOrphan
  dsimp only
  refine (Steady.trans ?_ (enqueue_steady (.recall d.tag) _)).trans (dropOwnRecord_steady d.tag _)
  split
  · exact .ite (filed.trans (endOwn_steady _)) filed
  · exact filed

theorem acceptOwnBid_sendsNothing (d : Desc) (tl : Count) (s : State) : SendsNothing s (acceptOwnBid d tl s) := by
  have live : ∀ o, SendsNothing s (acceptLive o s) := fun o =>
    settleEnds_sendsNothing _ _ _ ∘ (fileOwn_steady _ (s.setBid { s.bid with
      own := some { o with state := .settling, accepted := s.now } })).still
  unfold acceptOwnBid
  split
  · exact .ite (live _) (acceptOrphan_steady d tl s).still
  · exact (acceptOrphan_steady d tl s).still

theorem countMiss_steady (r : Record) (n : Nat) (s : State) : Steady s (countMiss r n s) :=
  .ite (((raise_steady _ s).trans (removeRecord_steady _ _)).trans (unconfirm_steady _ _ _)) (setRecords_steady s _)

theorem missedEffect_steady (tag : Tag) (n : Nat) (s : State) : Steady s (missedEffect tag n s) := by
  unfold missedEffect
  split
  · exact .ite (.refl s) (countMiss_steady _ n s)
  · exact .refl s

theorem withdrawEffect_steady (tag : Tag) (n : Nat) (s : State) : Steady s (withdrawEffect tag n s) :=
  .ite (removeRecord_steady tag s) (.refl s)

theorem strayEffect_steady (d : Desc) (tl : Count) (n : Nat) (s : State) : Steady s (strayEffect d tl n s) := by
  unfold strayEffect
  split
  · exact .ite (changeRecord_steady _ _ s) (fileRecord_steady _ 3 s)
  · exact fileRecord_steady _ 3 s

theorem takeFree_sendsNothing (used : Bool) (s : State) : SendsNothing s (takeFree used s) := .ite id id

theorem fileSeen_sendsNothing (d : Desc) (tl : Count) (measured n : Nat) (s : State) :
    SendsNothing s (fileSeen d tl measured n s) := by
  unfold fileSeen
  split
  · exact .ite id ((changeRecord_steady _ _ _).still ∘ takeFree_sendsNothing _ s)
  · exact .ite id ((fileRecord_steady _ 2 _).still ∘ takeFree_sendsNothing _ s)

theorem confirm_steady (d : Desc) (measured : Nat) (s : State) : Steady s (confirm d measured s) :=
  .ite ((endOwn_steady s).trans (raise_steady _ _)) (.refl s)

theorem seenEffect_sendsNothing (d : Desc) (tl : Count) (measured n : Nat) (s : State) :
    SendsNothing s (seenEffect d tl measured n s) := by
  have bid : ∀ t, SendsNothing t (seenBid d measured n t) := fun t => .ite (confirm_steady d measured t).still (.ite id id)
  exact bid _ ∘ fileSeen_sendsNothing d tl measured n s

theorem jamEffect_sendsNothing (n : Nat) (s : State) : SendsNothing s (jamEffect n s) := by
  unfold jamEffect
  refine .ite id ?_
  unfold holdJoin
  exact .ite id (recallOwn_steady _ _ (putHold .jam true (raise { kind := .jamHeld, a := some n }
    (s.setBid { s.bid with jamming := s.bid.jamming ||| stationBit n })))).still

theorem purgeOwn_sendsNothing (s : State) : SendsNothing s (purgeOwn s) := by
  unfold purgeOwn
  split
  · exact id
  · exact .ite id (endOwn_steady s).still

theorem outboxStill.purged {l : List Entry} (h : outboxStill l) : outboxStill (purgeOutbox l) := fun e mem => by
  obtain ⟨x, there, rfl⟩ := List.mem_map.mp mem
  have still := h x (List.mem_of_mem_filter there)
  split
  · exact still
  · exact still

theorem purgeAll_sendsNothing (n : Nat) (s : State) : SendsNothing s (purgeAll n s) := fun still => by
  have purged := (purgeOwn_sendsNothing (raise (purgedEvent n) s) still).purged
  unfold purgeAll
  rwa [rebase_frame _ .link (by decide)]

/-- What the station's own message does here begins no attempt. -/
theorem ownEffect_sendsNothing (m : Msg) (s : State) : SendsNothing s (ownEffect m s) := by
  match m with
  | .recall t => exact (withdrawEffect_steady t _ s).still
  | .void t => exact (withdrawEffect_steady t _ s).still
  | .jam => exact jamEffect_sendsNothing _ s
  | .jamRelease => exact .ite (.ite id id) id
  | .purge => exact purgeAll_sendsNothing _ s
  | .bid d tl => exact acceptOwnBid_sendsNothing d tl s
  | .seen d tl n => exact seenEffect_sendsNothing d tl n _ s
  | .missed d tl => exact (missedEffect_steady d.tag _ s).still
  | .stray d tl => exact (strayEffect_steady d tl _ s).still
  | .hail => exact id

end Sys2Proof.Machine
end

section
/-! The obligation of the spoiled attempt (R109, R151, R152, R156, R157). -/
namespace Sys2Proof.Machine

/-! ## The end of an attempt that is spoiled -/

theorem dropMarks_staying {s : State} (h : s.leaving = false) : dropMarks s = s := by
  unfold dropMarks
  rw [h]
  rfl

theorem endQueued_frame (tag : Option Tag) (s : State) : SameBut [.bid, .feed, .fifo] s (endQueued tag s) := by
  unfold endQueued
  split
  · exact .ite (endOwn_frame s) (.refl _ s)
  · exact .refl _ s

theorem handDropped_blocks (m : Msg) (s : State) : SameBut [.bid, .feed, .fifo] s (handDropped m s) := by
  unfold handDropped
  split
  · exact .ite ((endOwn_frame s).then (raise_frame _ _) (by decide) (by decide)) (.refl _ s)
  · exact .refl _ s

/-- A message that is not about the own bid's tag. -/
def Msg.elsewhere (m : Msg) (s : State) : Prop := ∀ o, s.bid.own = some o → m.tag? ≠ some o.desc.tag

theorem endQueued_elsewhere {tag : Option Tag} {s : State} (h : ∀ o, s.bid.own = some o → tag ≠ some o.desc.tag) :
    endQueued tag s = s := by
  unfold endQueued
  split
  · rename_i o own
    exact if_neg (fun both => h o own both.2)
  · rfl

theorem ownIs_elsewhere {s : State} {b : BidState} {t : Tag} (h : ∀ o, s.bid.own = some o → t ≠ o.desc.tag) :
    s.ownIs b t = false := by
  unfold State.ownIs
  cases own : s.bid.own with
  | none => rfl
  | some o =>
    have other : ¬ o.desc.tag = t := fun same => h o own same.symm
    simp [other]

theorem handDropped_elsewhere {m : Msg} {s : State} (h : m.elsewhere s) : handDropped m s = s := by
  unfold handDropped
  split
  · rename_i d tl n
    have other : ∀ o, s.bid.own = some o → d.tag ≠ o.desc.tag := fun o own same => h o own (congrArg some same)
    rw [ownIs_elsewhere other]
    rfl
  · rfl

/-- The source of a message that is dropped at its eighth attempt, or cancelled, is told (R156, R157). -/
theorem dropSending_frame (e : Entry) (s : State) : SameBut [.bid, .feed, .link, .fifo] s (dropSending e s) := by
  have left : SameBut [.bid, .feed, .link, .fifo] s (raise (dropEvent e.msg 1 (some Config.maxAttempts)) (endSending s)) :=
    (setLink_frame s _).then (raise_frame _ _) (by decide) (by decide)
  unfold dropSending
  dsimp only
  split
  · exact left.trans ((endQueued_frame _ _).widen (by decide))
  · exact left.trans ((handDropped_blocks _ _).widen (by decide))

theorem dropSending_link (e : Entry) (s : State) : (dropSending e s).link = (endSending s).link := by
  unfold dropSending
  dsimp only
  split
  · exact endQueued_frame _ _ .link (by decide)
  · exact handDropped_blocks _ _ .link (by decide)

theorem cancelSending_frame (e : Entry) (s : State) : SameBut [.bid, .feed, .link, .fifo] s (cancelSending e s) := by
  have left : SameBut [.bid, .feed, .link, .fifo] s (endSending s) := (setLink_frame s _).widen (by decide)
  unfold cancelSending
  split
  · exact left.trans ((endQueued_frame _ _).widen (by decide))
  · exact left

theorem cancelSending_link (e : Entry) (s : State) : (cancelSending e s).link = (endSending s).link := by
  unfold cancelSending
  split
  · exact endQueued_frame _ _ .link (by decide)
  · rfl

/-- The outbox after a spoiled attempt: the entry WAITING again with one attempt more, or gone (R152, R156). -/
def Entry.afterSpoil (e : Entry) (l : List Entry) : List Entry :=
  if e.cancelling = false ∧ e.attempts < 7 then
    l.map (fun x => if x.sending then { x with sending := false, attempts := x.attempts + 1 } else x)
  else l.filter (fun x => !x.sending)

theorem afterSpoil_still (e : Entry) (l : List Entry) : outboxStill (e.afterSpoil l) := by
  unfold Entry.afterSpoil
  split
  · intro x mem
    obtain ⟨y, -, rfl⟩ := List.mem_map.mp mem
    cases busy : y.sending <;> simp [busy]
  · intro x mem
    simpa using (List.mem_filter.mp mem).2

/-- A station that stays: the three ends of a spoiled attempt (R152, R156). -/
theorem spoilAttempt_eq {s : State} (staying : s.leaving = false) (e : Entry) : spoilAttempt e s =
    if e.cancelling = true then cancelSending e s else if 7 ≤ e.attempts then dropSending e s else retrySending s := by
  have eighth : Config.maxAttempts ≤ e.attempts + 1 ↔ 7 ≤ e.attempts := by
    have : Config.maxAttempts = 8 := rfl
    omega
  unfold spoilAttempt
  rw [dropMarks_staying staying]
  simp only [eighth]

theorem spoilAttempt_link {s : State} (staying : s.leaving = false) (e : Entry) :
    (spoilAttempt e s).link = { s.link with outbox := e.afterSpoil s.link.outbox, frame := [] } := by
  rw [spoilAttempt_eq staying]
  unfold Entry.afterSpoil
  cases e.cancelling with
  | true =>
    rw [if_pos rfl, cancelSending_link, if_neg (by simp)]
    rfl
  | false =>
    rw [if_neg (by simp)]
    by_cases eighth : 7 ≤ e.attempts
    · rw [if_pos eighth, dropSending_link, if_neg (by omega)]
      rfl
    · rw [if_neg eighth, if_pos ⟨rfl, by omega⟩]
      rfl

theorem spoilAttempt_frame {s : State} (staying : s.leaving = false) (e : Entry) :
    SameBut [.bid, .feed, .link, .fifo] s (spoilAttempt e s) := by
  rw [spoilAttempt_eq staying]
  exact .ite (cancelSending_frame e s) (.ite (dropSending_frame e s) ((setLink_frame s _).widen (by decide)))

/-- The events of a spoiled attempt whose message is not about the own bid: MSG_DROPPED at the eighth, and nothing else (R152). -/
theorem spoilAttempt_events {s : State} (staying : s.leaving = false) (e : Entry) (other : e.msg.elsewhere s) :
    (spoilAttempt e s).fifo = if e.cancelling = false ∧ 7 ≤ e.attempts then s.withEvent (dropEvent e.msg 1 (some 8)) else s.fifo := by
  rw [spoilAttempt_eq staying]
  cases e.cancelling with
  | true =>
    rw [if_pos rfl, if_neg (by simp)]
    unfold cancelSending
    split
    · rename_i d tl msg
      rw [endQueued_elsewhere (s := endSending s) (fun o own => by
        have := other o own
        rwa [msg] at this)]
      rfl
    · rfl
  | false =>
    rw [if_neg (by simp)]
    by_cases eighth : 7 ≤ e.attempts
    · rw [if_pos eighth, if_pos ⟨rfl, eighth⟩]
      unfold dropSending
      dsimp only
      split
      · rename_i d tl msg
        rw [endQueued_elsewhere (s := raise _ (endSending s)) (fun o own => by
          have := other o own
          rwa [msg] at this)]
        rfl
      · rw [handDropped_elsewhere (s := raise _ (endSending s)) other]
        rfl
    · rw [if_neg eighth, if_neg (fun h => eighth h.2)]
      rfl

/-! ## The rows -/

/-- The state in which an attempt of `s` ends spoiled at `time`, its quiet beginning `wait` later (R151, R152). -/
structure SpoilStart (s u : State) (time wait : Nat) : Prop where
  frame : SameBut [.now, .line, .link] s u
  now : u.now = max s.now time
  link : u.link = { s.link with quiet := some (max s.now time + wait), listenFrom := u.link.listenFrom }

theorem restartGrid_start (s : State) (time : Nat) : SpoilStart s (restartGrid (advanceTo time s)) time 20 := by
  refine ⟨(advanceTo_frame time s).then (setLink_frame _ _) (by decide) (by decide), advanceTo_now time s, ?_⟩
  unfold restartGrid
  simp only [State.setLink_link, advanceTo_link, advanceTo_now]
  rfl

theorem attemptSpoiled_row {s : State} {e : Entry} {c : Instr} {time wait : Nat} (busy : s.sending = some e)
    (staying : s.leaving = false)
    (row : (c = .attemptSpoiled time ∧ wait = 20) ∨ (c = .readbackMismatch time ∧ wait = 44)) :
    ∃ u, exec c s = .next (finish (spoilAttempt e u)) ∧ SpoilStart s u time wait := by
  have stays : ∀ u, u.leaving = false → leaveIfDue (spoilAttempt e u) = spoilAttempt e u := fun u h => by
    unfold leaveIfDue
    rw [spoilAttempt_frame h e .leaving (by decide), h]
    rfl
  rcases row with ⟨rfl, rfl⟩ | ⟨rfl, rfl⟩
  · have start := restartGrid_start s time
    refine ⟨restartGrid (advanceTo time s), ?_, start⟩
    have staying' := (start.frame .leaving (by decide)).trans staying
    show execAttemptSpoiled time s = _
    unfold execAttemptSpoiled
    rw [busy]
    exact congrArg (Host.Outcome.next ∘ finish) (stays _ staying')
  · let t := advanceTo time s
    let ends := t.now + Config.breakTime + Config.windowTime
    let u := t.setLink { t.link with quiet := some (ends + Config.windowTime), listenFrom := ends }
    have moved : SameBut [.now, .line, .link] s u := (advanceTo_frame time s).then (setLink_frame _ _) (by decide) (by decide)
    have staying' : u.leaving = false := (moved .leaving (by decide)).trans staying
    have now : t.now = max s.now time := advanceTo_now time s
    have after : (spoilAttempt e u).leaving = false := (spoilAttempt_frame staying' e .leaving (by decide)).trans staying'
    refine ⟨u, ?_, moved, now, ?_⟩
    · show execReadbackMismatch time s = _
      unfold execReadbackMismatch
      rw [busy]
      show Host.Outcome.next (afterSpoiled (if (spoilAttempt e u).leaving then _ else spoilAttempt e u)) = _
      rw [after]
      exact congrArg (Host.Outcome.next ∘ finish) (stays u staying')
    · show { t.link with quiet := some (t.now + 4 + 20 + 20), listenFrom := ends } = _
      rw [show t.link = s.link from advanceTo_link time s, now]
      rfl

theorem attemptSpoiled_spec (s : State) (e : Entry) (c : Instr) (time wait : Nat) (busy : s.sending = some e)
    (staying : s.leaving = false)
    (row : (c = .attemptSpoiled time ∧ wait = 20) ∨ (c = .readbackMismatch time ∧ wait = 44)) :
    ∃ t l, exec c s = .next t ∧ freshBids l
      ∧ t.now = max s.now time ∧ t.sending = none ∧ t.link.frame = []
      ∧ t.link.quiet = some (max s.now time + wait)
      ∧ t.link.outbox = (if e.cancelling = false ∧ e.attempts < 7 then s.link.outbox.map (fun x =>
          if x.sending then { x with sending := false, attempts := x.attempts + 1 } else x)
        else s.link.outbox.filter (fun x => !x.sending)) ++ l
      ∧ (e.cancelling = false → e.attempts < 7 → t.fifo = s.fifo)
      ∧ (e.cancelling = false → 7 ≤ e.attempts → (∀ o, s.bid.own = some o → e.msg.tag? ≠ some o.desc.tag) →
          t.fifo = s.withEvent { kind := .msgDropped, tag := e.msg.tag?, article := e.msg.desc?.map Desc.article
                                 lot := e.msg.desc?.map Desc.lot, a := some (kindValue e.msg.kind)
                                 b := some 8, code := some 1 })
      ∧ (e.cancelling = true → (∀ o, s.bid.own = some o → e.msg.tag? ≠ some o.desc.tag) → t.fifo = s.fifo)
      ∧ t.track.records = s.track.records
      ∧ SameBut ([.now, .line, .fifo] ++ settlingBlocks) s t := by
  obtain ⟨u, row, start⟩ := attemptSpoiled_row busy staying row
  have staying' : u.leaving = false := (start.frame .leaving (by decide)).trans staying
  have bid : u.bid = s.bid := start.frame .bid (by decide)
  have fifo : u.fifo = s.fifo := start.frame .fifo (by decide)
  have store : u.store = s.store := start.frame .store (by decide)
  have frame := spoilAttempt_frame staying' e
  have link := spoilAttempt_link staying' e
  have outbox : (spoilAttempt e u).link.outbox = e.afterSpoil s.link.outbox := by
    rw [link, start.link]
  have events : e.msg.elsewhere s → (finish (spoilAttempt e u)).fifo =
      if e.cancelling = false ∧ 7 ≤ e.attempts then s.withEvent (dropEvent e.msg 1 (some 8)) else s.fifo := fun other => by
    rw [finish_fifo, spoilAttempt_events staying' e (fun o own => other o (bid ▸ own)), withEvent_congr fifo store, fifo]
  obtain ⟨l, more, fresh⟩ := (finish_keeps (spoilAttempt e u)).outbox
  rw [outbox] at more
  refine ⟨_, l, row, fresh, ?_, ?_, ?_, ?_, more, fun live retried => ?_, fun live eighth other => ?_,
    fun cancelled other => ?_, ?_, ?_⟩
  · rw [finish_now, frame .now (by decide), start.now]
  · rw [sending_none_iff, more]
    exact (afterSpoil_still e _).append (outboxStill_freshBids fresh)
  · rw [finish_link_frame, link]
  · rw [finish_link_quiet, link, start.link]
  · rw [finish_fifo, spoilAttempt_eq staying', if_neg (by simp [live]), if_neg (by omega)]
    exact fifo
  · rw [events other, if_pos ⟨live, eighth⟩]
    rfl
  · rw [events other, if_neg (by simp [cancelled])]
  · rw [finish_track_records, frame .track (by decide), start.frame .track (by decide)]
  · exact ((start.frame.widen (by decide)).trans (frame.widen (by decide))).trans ((finish_frame _).widen (by decide))

/-- The entry that is dropped at its eighth attempt, with the state in which its source is told (R152, R157). -/
theorem eighthAttempt_row {s : State} {e : Entry} (time : Nat) (busy : s.sending = some e) (staying : s.leaving = false)
    (live : e.cancelling = false) (eighth : 7 ≤ e.attempts) :
    ∃ u, exec (.attemptSpoiled time) s = .next (finish (dropSending e u)) ∧ SpoilStart s u time 20 := by
  obtain ⟨u, row, start⟩ := attemptSpoiled_row (time := time) busy staying (.inl ⟨rfl, rfl⟩)
  have staying' : u.leaving = false := (start.frame .leaving (by decide)).trans staying
  rw [spoilAttempt_eq staying', if_neg (by simp [live]), if_pos eighth] at row
  exact ⟨u, row, start⟩

/-- The own bid's BID is dropped: the own bid ends, and its position is LOADED again (R157). -/
theorem ownBid_dropped (s : State) (e : Entry) (o : OwnBid) (tl : Count) (time : Nat) (dropped : Event)
    (busy : s.sending = some e) (staying : s.leaving = false) (live : e.cancelling = false) (eighth : 7 ≤ e.attempts)
    (msg : e.msg = .bid o.desc tl) (own : s.bid.own = some o) (queued : o.state = .queued) (role : s.role = .feed)
    (low : s.feed.ready = false) (unmarked : (s.feed.positions.get o.serves).unloading = false)
    (event : dropped = { kind := .msgDropped, tag := some o.desc.tag, article := some o.desc.article
                         lot := some o.desc.lot, a := some 6, b := some 8, code := some 1 }) :
    ∃ t, exec (.attemptSpoiled time) s = .next t
      ∧ t.bid.own = none ∧ t.fifo = s.withEvent dropped
      ∧ ((s.feed.positions.get o.serves).state = .bidding → (t.feed.positions.get o.serves).state = .loaded) := by
  obtain ⟨u, row, start⟩ := eighthAttempt_row time busy staying live eighth
  let v := raise (dropEvent e.msg 1 (some 8)) (endSending u)
  have own' : v.bid.own = some o := (congrArg BidEngine.own (start.frame .bid (by decide))).trans own
  have feed : v.feed = s.feed := start.frame .feed (by decide)
  have told : dropEvent e.msg 1 (some 8) = dropped := by
    rw [msg, event]
    rfl
  have fifo : v.fifo = s.withEvent dropped := by
    show u.withEvent (dropEvent e.msg 1 (some 8)) = _
    rw [told]
    exact withEvent_congr (start.frame .fifo (by decide)) (start.frame .store (by decide)) _
  have ends : dropSending e u = endOwn v := by
    unfold dropSending
    rw [msg]
    dsimp only
    unfold endQueued
    rw [show (raise (dropEvent (.bid o.desc tl) 1 (some Config.maxAttempts)) (endSending u)).bid.own = some o from own']
    dsimp only
    rw [if_pos ⟨queued, rfl⟩]
    show _ = endOwn (raise (dropEvent e.msg 1 (some 8)) (endSending u))
    rw [msg]
    rfl
  have role' : (endOwn v).role = .feed := by
    unfold State.role at role ⊢
    rw [endOwn_frame v .run (by decide), show v.run = s.run from start.frame .run (by decide)]
    exact role
  have low' : (endOwn v).feed.ready = false := by
    rw [(endOwn_levels v).1, feed]
    exact low
  have quiet : (handRequest (planStreams (endOwn v))).eligible = none := by
    rw [eligible_handRequest_feed role']
    exact eligible_not_ready role' low'
  obtain ⟨stands, -, -, frame⟩ := finish_ineligible quiet
  rw [ends] at row
  refine ⟨_, row, stands.trans (endOwn_own v), ?_, fun bidding => ?_⟩
  · rw [frame .fifo (by decide), ← fifo]
    refine endOwn_fifo v (fun x held => ?_)
    cases own'.symm.trans held
    rwa [feed]
  · rw [frame .feed (by decide), endOwn_positions v o own', feed, if_pos bidding, Quad.get_set_self, if_neg (by simp [unmarked])]

/-- The own bid's SIGHTING SEEN is dropped: CONFIRMED with code UNSENT behind MSG_DROPPED (R98, R157). -/
theorem ownSighting_dropped (s : State) (e : Entry) (o : OwnBid) (d : Desc) (tl : Count) (n time : Nat) (dropped : Event)
    (busy : s.sending = some e) (staying : s.leaving = false) (live : e.cancelling = false) (eighth : 7 ≤ e.attempts)
    (msg : e.msg = .seen d tl n) (own : s.bid.own = some o) (fired : o.state = .fired) (tag : o.desc.tag = d.tag)
    (standing : (s.feed.positions.get o.serves).state ≠ .bidding)
    (event : dropped = { kind := .msgDropped, tag := some d.tag, article := some d.article
                         lot := some d.lot, a := some 7, b := some 8, code := some 1 }) :
    ∃ t, exec (.attemptSpoiled time) s = .next t
      ∧ (∀ o', t.bid.own = some o' → o'.state = .queued)
      ∧ t.fifo = s.withEvents [dropped, { kind := .confirmed, code := some 15 }] := by
  obtain ⟨u, row, start⟩ := eighthAttempt_row time busy staying live eighth
  let v := raise (dropEvent (.seen d tl n) 1 (some 8)) (endSending u)
  have own' : v.bid.own = some o := (congrArg BidEngine.own (start.frame .bid (by decide))).trans own
  have feed : v.feed = s.feed := start.frame .feed (by decide)
  have store : v.store = s.store := start.frame .store (by decide)
  have fifo : v.fifo = s.withEvent dropped := by
    rw [event]
    exact withEvent_congr (start.frame .fifo (by decide)) (start.frame .store (by decide)) _
  have confirmed : dropSending e u = raise { kind := .confirmed, code := some 15 } (endOwn v) := by
    unfold dropSending
    rw [msg]
    refine if_pos ?_
    show v.ownIs .fired d.tag = true
    unfold State.ownIs
    rw [own']
    simp [fired, tag]
  rw [confirmed] at row
  refine ⟨_, row, fun x held => ?_, ?_⟩
  · rcases finish_fresh (s := raise { kind := .confirmed, code := some 15 } (endOwn v)) (endOwn_own v) with
      none | ⟨y, fresh, queued, -⟩
    · rw [none] at held
      cases held
    · cases fresh.symm.trans held
      exact queued
  · have quiet : (endOwn v).fifo = v.fifo := by
      rw [endOwn_events own', feed, if_neg (fun h => standing h.1)]
      rfl
    rw [finish_fifo, raise_fifo, withEvent_congr (t := endOwn v) (s := v) quiet (endOwn_frame v .store (by decide))]
    unfold State.withEvent State.withEvents
    rw [fifo, store]
    rfl

/-- Settles O45: the three ends of a spoiled attempt, and what its source does. -/
theorem spoiledAttemptRetriesOrDrops : Obligations.SpoiledAttemptRetriesOrDrops :=
  ⟨attemptSpoiled_spec, ownBid_dropped, ownSighting_dropped⟩

end Sys2Proof.Machine
end

section
/-! The obligation of WITHDRAWAL_COMPLETION (R88, R95, R156). -/
namespace Sys2Proof.Machine

/-! ## The station's own frame accepted -/

theorem leaveIfDue_staying {s : State} (h : s.leaving = false) : leaveIfDue s = s := by
  unfold leaveIfDue
  rw [h]
  rfl

/-- What the end of the own attempt leaves to the message of an accepted own frame (R150, R154). -/
def ownAccepted (s : State) : State := recordSender s.number (restartGrid (endSending s))

theorem ownAccepted_frame (s : State) : SameBut [.link] s (ownAccepted s) :=
  ((setLink_frame _ _).trans (setLink_frame _ _)).trans (setLink_frame _ _)

theorem ownAccepted_outbox (s : State) : (ownAccepted s).link.outbox = s.link.outbox.filter (fun x => !x.sending) := rfl

theorem ownAccepted_lastSender (s : State) : (ownAccepted s).link.lastSender = some s.number := rfl

theorem ownAccepted_still (s : State) : outboxStill (ownAccepted s).link.outbox := fun x mem => by
  simpa using (List.mem_filter.mp mem).2

theorem acceptOwn_staying {s : State} (staying : s.leaving = false) {m : Msg}
    (stays : (ownEffect m (ownAccepted s)).leaving = false) : acceptOwn m s = finish (ownEffect m (ownAccepted s)) := by
  unfold acceptOwn
  rw [dropMarks_staying staying]
  exact congrArg finish (leaveIfDue_staying stays)

/-! ## A withdrawn BID accepted (R88) -/

/-- The record that the own BID has just filed is its own, or none is held where the list was full (R40, R51). -/
theorem filedOwn_dropped {s : State} (fixed : s.ownFixed) (r : Record) (own : r.own = true) (k : Nat) :
    ((fileRecord r k s).record r.desc.tag).filter (fun x => !x.own) = none := by
  have there : ∀ l : State, l.record r.desc.tag = some r → (l.record r.desc.tag).filter (fun x => !x.own) = none := fun l h => by
    rw [h]
    simp [own]
  have noted : ∀ (x : Lanes) (t : State), (noteChange x t).record r.desc.tag = t.record r.desc.tag := fun x t =>
    record_congr (congrArg TrackList.records (noteChange_frame x t .track (by decide))) _
  unfold fileRecord
  cases held : s.record r.desc.tag with
  | some old =>
    have tag : old.desc.tag = r.desc.tag := (record_tag held).1
    have forgot : OwnLeft [.track, .eye, .bid, .width, .outfeed] s (forgetTag old.desc.tag (noteChange old.desc.lanes s)) :=
      ((noteChange_left _ s).widen (by decide)).trans ((forgetTag_left _ _).widen (by decide))
    have gone := endPieceGone_left (forgot.fixed fixed) old.desc.tag
    have track : (endPieceGone old.desc.tag (forgetTag old.desc.tag (noteChange old.desc.lanes s))).track = s.track := by
      rw [gone.frame .track (by decide), forgetTag_frame _ _ .track (by decide), noteChange_frame _ _ .track (by decide)]
    refine there _ ?_
    show (replaceWhole old r s).record _ = _
    unfold replaceWhole
    rw [putRecord_fixed (gone.fixed (forgot.fixed fixed)), noted, setRecords_replace, if_pos rfl]
  | none =>
    have fresh : ∀ x ∈ s.track.records, x.desc.tag ≠ r.desc.tag := fun x mem => by
      simpa using List.find?_eq_none.mp held x mem
    dsimp only
    split
    · refine there _ ?_
      rw [insertNew_fixed fixed, noted]
      exact (find_insertRecord r _ _ fresh).trans (if_pos rfl)
    · have full := overflow_left fixed r.desc k
      rw [record_congr (congrArg TrackList.records (full.frame .track (by decide))), held]
      rfl

/-- A withdrawn own BID that is accepted: the record is filed, recalled and removed, and the own bid has ended (R88, R95). -/
theorem acceptOrphan_withdrawn {s : State} {o : OwnBid} (own : s.bid.own = some o) (queued : o.state = .queued)
    (cancelling : o.cancelling = true) (tl : Count) :
    (acceptOrphan o.desc tl s).bid.own = none ∧ (acceptOrphan o.desc tl s).record o.desc.tag = none
      ∧ ((acceptOrphan o.desc tl s).feed.positions.get o.serves).state ≠ .bidding
      ∧ (s.roomFirst → Entry.fresh (.recall o.desc.tag) ∈ (acceptOrphan o.desc tl s).link.outbox) := by
  have fixed : s.ownFixed := fun x held => by
    cases own.symm.trans held
    exact .inr ⟨queued, cancelling⟩
  let r := bidRecord o.desc tl s.number true false
  let t := fileRecord r 1 s
  have filed : OwnLeft [.track, .eye, .bid, .width, .outfeed, .fifo] s t := fileRecord_left fixed r 1
  have own' : t.bid.own = some o := filed.own.trans own
  let u := enqueue (.recall o.desc.tag) (endOwn t)
  have row : acceptOrphan o.desc tl s = dropOwnRecord o.desc.tag u := by
    unfold acceptOrphan
    dsimp only
    rw [show (fileRecord (bidRecord o.desc tl s.number true false) 1 s).bid.own = some o from own']
    dsimp only
    rw [if_pos ⟨queued, cancelling, rfl⟩]
  have ended : (endOwn t).bid.own = none := endOwn_own t
  have sent : SameBut [.link, .fifo] (endOwn t) u := enqueueFirst_unfired _ _ (fun x held => by
    rw [ended] at held
    cases held)
  have link : (endOwn t).link = s.link := (endOwn_frame t .link (by decide)).trans (filed.frame .link (by decide))
  rw [row]
  refine ⟨?_, ?_, ?_, fun room => ?_⟩
  · rw [dropOwnRecord_own, sent .bid (by decide)]
    exact ended
  · rw [dropOwnRecord_self, record_congr (t := u) (s := t)]
    · exact filedOwn_dropped fixed r rfl 1
    · rw [sent .track (by decide), endOwn_frame t .track (by decide)]
  · rw [dropOwnRecord_frame _ _ .feed (by decide), sent .feed (by decide)]
    exact endOwn_position t o own'
  · rw [dropOwnRecord_frame _ _ .link (by decide)]
    exact (enqueueFirst_queued ((roomFirst_congr link).mpr room)).mem

theorem acceptOwnBid_cancelling {s : State} {o : OwnBid} (own : s.bid.own = some o) (cancelling : o.cancelling = true) (d : Desc)
    (tl : Count) : acceptOwnBid d tl s = acceptOrphan d tl s := by
  unfold acceptOwnBid
  rw [own]
  exact if_neg (by simp [cancelling])

/-- A few entries beside a waiting BID leave one for a message of class 0 (R154, R155). -/
theorem roomFirst_of_few {s : State} (few : s.link.outbox.length < 7) : s.roomFirst := by
  have reserved : s.link.reserved ≤ 1 := by
    unfold LinkController.reserved
    split <;> omega
  have capacity : Config.outboxCapacity = 8 := rfl
  unfold State.roomFirst
  omega

/-- Settles O46: the attempt of the withdrawn BID ends, and the own bid with it, either way. -/
theorem withdrawalCompletes : Obligations.WithdrawalCompletes := by
  intro s o e tl time clean own queued cancelling busy msg cancelled staying operator
  have row : exec (.withdrawalCompletion time clean) s = .next (endAttempt time clean e s) := by
    show execWithdrawalCompletion time clean s = _
    unfold execWithdrawalCompletion
    rw [own, busy]
    exact if_pos ⟨queued, cancelling, by rw [msg]; rfl⟩
  have moved := advanceTo_frame time s
  have now : (advanceTo time s).now = max s.now time := advanceTo_now time s
  have held : ∀ t : State, t.bid.hold = { s.bid.hold with trackFull := t.bid.hold.trackFull } → t.bid.hold.any = true :=
    fun t hold => hold_any_of_has (c := .operator) (by rw [hold]; exact operator)
  cases clean with
  | true =>
    let u := ownAccepted (advanceTo time s)
    have start : SameBut [.now, .line, .link] s u := moved.then (ownAccepted_frame _) (by decide) (by decide)
    have own' : u.bid.own = some o := (congrArg BidEngine.own (start .bid (by decide))).trans own
    have effect : ownEffect e.msg u = acceptOrphan o.desc tl u := by
      rw [msg]
      exact acceptOwnBid_cancelling own' cancelling o.desc tl
    have frame := acceptOrphan_frame o.desc tl u
    have stays : (ownEffect e.msg u).leaving = false := by
      rw [effect, frame .leaving (by decide), start .leaving (by decide), staying]
    have accepted : endAttempt time true e s = finish (acceptOrphan o.desc tl u) :=
      (acceptOwn_staying (by rwa [advanceTo_leaving]) stays).trans (by rw [effect])
    have steady := acceptOrphan_steady o.desc tl u
    obtain ⟨ended, gone, position, recalled⟩ := acceptOrphan_withdrawn own' queued cancelling tl
    obtain ⟨stands, settled⟩ := finish_held (held (acceptOrphan o.desc tl u) (by rw [steady.hold, start .bid (by decide)]))
    refine ⟨_, row.trans (congrArg Host.Outcome.next accepted), stands.trans ended, ?_, ?_, ?_, fun _ => ⟨?_, ?_, fun few => ?_⟩,
      nofun, ?_⟩
    · rw [sending_none_iff, settled .link (by decide)]
      exact steady.still (ownAccepted_still _)
    · rw [finish_now, frame .now (by decide)]
      exact now
    · rw [settled .feed (by decide)]
      exact position
    · rw [finish_record, gone]
    · rw [finish_link_lastSender, steady.link]
      show some (advanceTo time s).number = some s.number
      unfold State.number
      rw [advanceTo_run]
    · refine mem_finish_outbox (recalled (roomFirst_of_few ?_))
      rw [ownAccepted_outbox, advanceTo_link]
      exact few
    · exact ((start.widen (by decide)).trans (frame.widen (by decide))).trans (settled.widen (by decide))
  | false =>
    have start := restartGrid_start s time
    let u := restartGrid (advanceTo time s)
    have staying' : u.leaving = false := (start.frame .leaving (by decide)).trans staying
    have own' : (endSending u).bid.own = some o := (congrArg BidEngine.own (start.frame .bid (by decide))).trans own
    have frame := spoilAttempt_frame staying' e
    have ends : spoilAttempt e u = endOwn (endSending u) := by
      rw [spoilAttempt_eq staying', if_pos cancelled]
      unfold cancelSending
      rw [msg]
      dsimp only
      unfold endQueued
      rw [own']
      exact if_pos ⟨queued, rfl⟩
    have spoiled : endAttempt time false e s = finish (spoilAttempt e u) :=
      congrArg finish (leaveIfDue_staying ((frame .leaving (by decide)).trans staying'))
    have steady : Steady (endSending u) (spoilAttempt e u) := ends ▸ endOwn_steady _
    obtain ⟨stands, settled⟩ := finish_held (held (spoilAttempt e u)
      (by rw [steady.hold, show (endSending u).bid = s.bid from start.frame .bid (by decide)]))
    have outbox : (finish (spoilAttempt e u)).link.outbox = s.link.outbox.filter (fun x => !x.sending) := by
      rw [settled .link (by decide), spoilAttempt_link staying', start.link]
      exact if_neg (by simp [cancelled])
    refine ⟨_, row.trans (congrArg Host.Outcome.next spoiled), ?_, ?_, ?_, ?_, nofun, fun _ => ⟨?_, ?_, outbox⟩, ?_⟩
    · rw [stands, ends]
      exact endOwn_own _
    · rw [sending_none_iff, outbox]
      intro x mem
      simpa using (List.mem_filter.mp mem).2
    · rw [finish_now, frame .now (by decide), start.now]
    · rw [settled .feed (by decide), ends]
      exact endOwn_position _ o own'
    · rw [finish_track_records, frame .track (by decide), start.frame .track (by decide)]
    · rw [finish_link_lastSender, spoilAttempt_link staying', start.link]
    · exact ((start.frame.widen (by decide)).trans (frame.widen (by decide))).trans (settled.widen (by decide))

end Sys2Proof.Machine
end

section
/-! The obligation of LEAVE (R109, R122, R143, R160, R183). -/
namespace Sys2Proof.Machine

/-! ## The entry to SETUP -/

/-- SETUP is settled: no stream plans and no engine searches there (R78, R139, R160). -/
theorem finish_enterSetup (s : State) : finish (enterSetup s) = enterSetup s := by
  have plans : planStreams (enterSetup s) = enterSetup s := if_pos rfl
  have searches : reconsider (enterSetup s) = enterSetup s := rfl
  unfold finish
  rw [plans]
  show clearMarks (reconsider (enterSetup s)) = _
  rw [searches]
  rfl

/-- A station that waits to leave enters SETUP once no attempt is in flight, and stands there (R160). -/
theorem finish_leaveIfDue {s : State} (leaving : s.leaving = true) (still : outboxStill s.link.outbox) :
    finish (leaveIfDue s) = enterSetup s := by
  have due : leaveIfDue s = enterSetup s := by
    unfold leaveIfDue
    rw [leaving, (sending_none_iff s).mpr still]
    rfl
  rw [due, finish_enterSetup]

/-! ## The wait for the attempt in flight (R160) -/

theorem endQueuedAny_frame (s : State) : SameBut [.bid, .feed, .fifo] s (awaitLeave.endQueuedAny s) := by
  unfold awaitLeave.endQueuedAny
  split
  · exact .ite (endOwn_frame s) (.refl _ s)
  · exact .refl _ s

/-- LEAVE with an attempt in flight: the SENDING entry alone stays, cancelled, and no BID waits (R160). -/
theorem awaitLeave_spec (s : State) : (awaitLeave s).leaving = true
    ∧ (awaitLeave s).link = { s.link with
        outbox := (s.link.outbox.filter (fun e => e.sending)).map (fun e => { e with cancelling := true })
        waitingBid := none }
    ∧ SameBut [.leaving, .link, .bid, .feed, .fifo] s (awaitLeave s) := by
  let t := if s.bidSending then s else awaitLeave.endQueuedAny s
  have ended : SameBut [.bid, .feed, .fifo] s t := .ite (.refl _ s) (endQueuedAny_frame s)
  have link : t.link = s.link := ended .link (by decide)
  refine ⟨rfl, ?_, ?_⟩
  · show ({ t.link with
        outbox := (t.link.outbox.filter (fun e => e.sending)).map (fun e => { e with cancelling := true })
        waitingBid := none } : LinkController) = _
    rw [link]
  · have waits : SameBut [.leaving, .link] t (awaitLeave s) :=
      (setLink_frame t _).then (setLeaving_frame _ _) (by decide) (by decide)
    exact (ended.widen (by decide)).trans (waits.widen (by decide))

/-- A BID of a new search takes an entry of the outbox where one is free to it, and does not wait (R155). -/
theorem finish_waitingBid {s : State} (room : sharedRoom s.link.outbox = true) :
    (finish s).link.waitingBid = s.link.waitingBid := by
  let t := handRequest (planStreams s)
  have link : t.link = s.link :=
    (handRequest_frame _ .link (by decide)).trans (planStreams_frame s .link (by decide))
  have queued : ∀ x w, (queueBid x w t).link.waitingBid = t.link.waitingBid := fun x w => by
    have marked : (markBidding x (takeTag t)).link = t.link := markBidding_frame x _ .link (by decide)
    unfold queueBid enqueue
    dsimp only [Msg.kind]
    rw [if_pos (by rw [State.setBid_link, marked, link]; exact room)]
    show (markBidding x (takeTag t)).link.waitingBid = _
    rw [marked]
  have searched : (reconsider t).link.waitingBid = t.link.waitingBid := by
    unfold reconsider search
    split
    · split
      · split
        · exact queued _ _
        · rfl
      · rfl
    · rfl
  show (reconsider t).link.waitingBid = _
  rw [searched, link]

/-- One entry leaves room for a message of classes 1 to 3 (R154). -/
theorem sharedRoom_of_single {l : List Entry} (single : l.length ≤ 1) : sharedRoom l = true := by
  have shared : sharedCount l ≤ l.length := List.length_filter_le _ l
  have capacity : Config.outboxCapacity = 8 ∧ Config.outboxShared = 6 := ⟨rfl, rfl⟩
  unfold sharedRoom
  simp only [Bool.and_eq_true, decide_eq_true_eq]
  omega

/-! ## The end of the wait -/

theorem dropMarks_frame (s : State) : SameBut [.feed] s (dropMarks s) := .ite (setFeed_frame s _) (.refl _ s)

theorem dropMarks_unmarked {s : State} (leaving : s.leaving = true) (i : Fin 4) :
    ((dropMarks s).feed.positions.get i).unloading = false := by
  unfold dropMarks
  rw [leaving, if_pos rfl]
  simp only [State.setFeed_feed, Quad.get_mapAt]
  cases marked : (s.feed.positions.get i).unloading with
  | true => rfl
  | false => exact marked

/-- Whether the attempt is retried, dropped or cancelled, nothing is SENDING behind it (R152, R156). -/
theorem spoilAttempt_ends (e : Entry) (s : State) :
    SameBut [.bid, .feed, .link, .fifo] s (spoilAttempt e s) ∧ outboxStill (spoilAttempt e s).link.outbox := by
  have marks : SameBut [.bid, .feed, .link, .fifo] s (dropMarks s) := (dropMarks_frame s).widen (by decide)
  unfold spoilAttempt
  dsimp only
  split
  · refine ⟨marks.trans (cancelSending_frame e _), ?_⟩
    rw [cancelSending_link]
    exact ownAccepted_still (dropMarks s)
  · split
    · refine ⟨marks.trans (dropSending_frame e _), ?_⟩
      rw [dropSending_link]
      exact ownAccepted_still (dropMarks s)
    · refine ⟨marks.trans ((setLink_frame _ _).widen (by decide)), fun x mem => ?_⟩
      obtain ⟨y, -, rfl⟩ := List.mem_map.mp mem
      cases busy : y.sending <;> simp [busy]

/-- A cancelled attempt that is spoiled raises nothing at a station that leaves: no position is marked any more (R109). -/
theorem spoilAttempt_leaving_fifo {s : State} {e : Entry} (leaving : s.leaving = true) (cancelling : e.cancelling = true) :
    (spoilAttempt e s).fifo = s.fifo := by
  have quiet : ∀ tag, (endQueued tag (endSending (dropMarks s))).fifo = s.fifo := fun tag => by
    unfold endQueued
    split
    · split
      · rw [endOwn_fifo (endSending (dropMarks s)) (fun x _ => dropMarks_unmarked leaving x.serves)]
        exact dropMarks_frame s .fifo (by decide)
      · exact dropMarks_frame s .fifo (by decide)
    · exact dropMarks_frame s .fifo (by decide)
  unfold spoilAttempt
  dsimp only
  rw [if_pos cancelling]
  unfold cancelSending
  split
  · exact quiet _
  · exact dropMarks_frame s .fifo (by decide)

/-- However the attempt in flight at LEAVE ends, its station enters SETUP from a state that keeps the counts, the store, and,
where a cancelled attempt was spoiled, the events (R160). -/
theorem endAttempt_leaving {s : State} (leaving : s.leaving = true) (e : Entry) (time : Nat) (clean : Bool) :
    ∃ u, endAttempt time clean e s = enterSetup u
      ∧ SameBut [.now, .line, .track, .eye, .bid, .feed, .width, .throat, .outfeed, .link, .fifo] s u
      ∧ u.line.count = s.line.count ∧ u.line.highWater = s.line.highWater
      ∧ (clean = false → e.cancelling = true → u.fifo = s.fifo ∧ u.track = s.track) := by
  have moved := advanceTo_frame time s
  cases clean with
  | true =>
    let t := ownAccepted (dropMarks (advanceTo time s))
    let u := ownEffect e.msg t
    have accepted : SameBut [.feed, .link] (advanceTo time s) t :=
      (dropMarks_frame _).then (ownAccepted_frame _) (by decide) (by decide)
    have effect : SameBut messageBlocks t u := ownEffect_frame e.msg t
    have leaves : u.leaving = true :=
      (effect .leaving (by decide)).trans ((accepted .leaving (by decide)).trans ((moved .leaving (by decide)).trans leaving))
    have line : u.line = (advanceTo time s).line := (effect .line (by decide)).trans (accepted .line (by decide))
    refine ⟨u, ?_, ?_, ?_, ?_, nofun⟩
    · have number : (dropMarks (advanceTo time s)).number = (advanceTo time s).number :=
        congrArg (fun x => x.station.number) (dropMarks_frame _ .run (by decide))
      have row : endAttempt time true e s = finish (leaveIfDue u) := by
        show acceptOwn e.msg (advanceTo time s) = _
        unfold acceptOwn
        rw [← number]
        rfl
      exact row.trans (finish_leaveIfDue leaves (ownEffect_sendsNothing e.msg t (ownAccepted_still _)))
    · exact ((moved.widen (by decide)).trans (accepted.widen (by decide))).trans (effect.widen (by decide))
    · rw [line, advanceTo_count]
    · rw [line, advanceTo_highWater]
  | false =>
    let t := restartGrid (advanceTo time s)
    let u := spoilAttempt e t
    have start := restartGrid_start s time
    have leaves' : t.leaving = true := (start.frame .leaving (by decide)).trans leaving
    obtain ⟨effect, still⟩ := spoilAttempt_ends e t
    have line : u.line = (advanceTo time s).line := effect .line (by decide)
    refine ⟨u, ?_, ?_, ?_, ?_, fun _ cancelling => ⟨?_, ?_⟩⟩
    · exact finish_leaveIfDue ((effect .leaving (by decide)).trans leaves') still
    · exact (start.frame.widen (by decide)).trans (effect.widen (by decide))
    · rw [line, advanceTo_count]
    · rw [line, advanceTo_highWater]
    · exact (spoilAttempt_leaving_fifo leaves' cancelling).trans (start.frame .fifo (by decide))
    · exact (effect .track (by decide)).trans (start.frame .track (by decide))

/-! ## The rows of LEAVE -/

/-- LEAVE taken with nothing SENDING. -/
theorem leave_at_once {s : State} (free : s.port.held = false) (running : s.running) (staying : s.leaving = false)
    (idle : s.sending = none) : exec .leave s = .next (take .ok enterSetup s) := by
  have leaves : leaveStation s = enterSetup s := by
    unfold leaveStation
    rw [staying, idle]
    rfl
  refine congrArg Host.Outcome.next ((transact_taken free _).trans ?_)
  rw [if_neg running]
  exact congrArg (answer s .ok []) leaves

/-- LEAVE taken while an entry is SENDING. -/
theorem leave_waits {s : State} {e : Entry} (free : s.port.held = false) (running : s.running)
    (staying : s.leaving = false) (busy : s.sending = some e) :
    exec .leave s = .next (answer s .ok [] (finish (awaitLeave s))) := by
  have waits : leaveStation s = finish (awaitLeave s) := by
    unfold leaveStation
    rw [staying, busy]
    rfl
  refine congrArg Host.Outcome.next ((transact_taken free _).trans ?_)
  rw [if_neg running]
  exact congrArg (answer s .ok []) waits

/-- Settles O47: LEAVE reaches SETUP at once, or through the end of the attempt in flight, and resets each block there. -/
theorem leaveEntersSetup : Obligations.LeaveEntersSetup := by
  refine ⟨?atOnce, ?waits, ?completes, ?refused⟩
  case atOnce =>
    intro s free running staying idle
    refine ⟨_, leave_at_once free running staying idle, rfl, rfl, rfl, rfl, rfl, rfl, rfl, rfl, rfl, rfl, rfl, rfl, rfl, rfl,
      rfl, rfl, rfl, rfl, rfl, rfl, rfl, fun i => Quad.get_fill _ i, rfl, ?_, rfl, rfl, rfl, rfl, rfl, ?_⟩
    · show (s.width.abandon s.now).last = _
      unfold WidthSampler.abandon
      split <;> rfl
    · intro b other
      cases b <;> first | rfl | exact absurd other (by decide)
  case waits =>
    intro s e free running staying busy
    obtain ⟨leaving, link, frame⟩ := awaitLeave_spec s
    let t := finish (awaitLeave s)
    have settled := finish_keeps (awaitLeave s)
    obtain ⟨l, more, fresh⟩ := settled.outbox
    have answered : SameBut [.port] t (answer s .ok [] t) := answer_frame _ _ _ _
    have ends : SameBut settlingBlocks (awaitLeave s) t := finish_frame _
    refine ⟨_, l, leave_waits free running staying busy, fresh, rfl, ?_, ?_, fun within => ?_, ?_, ?_, ?_⟩
    · show t.station = _
      rw [finish_station, frame .station (by decide)]
    · show t.leaving = true
      rw [finish_leaving, leaving]
    · obtain ⟨-, -, single⟩ := within
      have room : sharedRoom (awaitLeave s).link.outbox = true := by
        rw [link]
        exact sharedRoom_of_single ((List.length_map _).trans_le single)
      show t.link.waitingBid = none
      rw [finish_waitingBid room, link]
    · show t.link.outbox = _
      rw [more, link]
    · show t.track.records = _
      rw [finish_track_records, frame .track (by decide)]
    · exact ((frame.widen (by decide)).trans (ends.widen (by decide))).trans (answered.widen (by decide))
  case completes =>
    intro s time clean leaving
    cases busy : s.sending with
    | none =>
      refine ⟨enterSetup s, ?_, rfl, rfl, rfl, rfl, rfl, rfl, rfl, rfl, rfl, rfl, fun _ _ => rfl⟩
      show execLeaveCompletion time clean s = _
      unfold execLeaveCompletion
      rw [if_pos leaving, busy]
    | some e =>
      obtain ⟨u, ends, frame, count, highWater, quiet⟩ := endAttempt_leaving leaving e time clean
      refine ⟨enterSetup u, ?_, rfl, rfl, rfl, rfl, rfl, rfl, count, highWater, frame .store (by decide),
        frame .run (by decide), fun spoiled marked => ?_⟩
      · show execLeaveCompletion time clean s = _
        unfold execLeaveCompletion
        rw [if_pos leaving, busy]
        exact congrArg Host.Outcome.next ends
      · obtain ⟨fifo, track⟩ := quiet spoiled (marked e rfl)
        show (raise (leftEvent u) u).fifo = _
        rw [raise_fifo, withEvent_congr fifo (frame .store (by decide))]
        unfold leftEvent
        rw [track, frame .station (by decide)]
  case refused =>
    intro s free setup
    refine ⟨refuse .wrongState s, ?_, rfl, refuse_frame _ s⟩
    refine congrArg Host.Outcome.next ((transact_taken free _).trans ?_)
    exact if_pos setup

end Sys2Proof.Machine
end

section
/-! The obligations of the misses and the retirement (R43, R47, R50, R52, R69, R70, R98). -/
namespace Sys2Proof.Machine

/-! ## The hold set where the own bid is fixed -/

theorem endRequest_hold {s : State} (fixed : s.ownFixed) (i : Fin 4) : (endRequest i s).bid.hold = s.bid.hold := by
  unfold endRequest
  dsimp only
  split
  · rw [recallOwn_fixed (s := s.setBid { s.bid with request := none, retry := none }) fixed]
    rfl
  · rfl

theorem withdrawSpacer_hold {s : State} (fixed : s.ownFixed) (i : Fin 4) : (withdrawSpacer i s).bid.hold = s.bid.hold := by
  unfold withdrawSpacer
  dsimp only
  split
  · exact endRequest_hold (s := dropRequest i s) fixed i
  · rfl

/-- The end of a request leaves the hold set, where it withdraws no bid (R140). -/
theorem endPieceGone_hold {s : State} (fixed : s.ownFixed) (tag : Tag) : (endPieceGone tag s).bid.hold = s.bid.hold := by
  have fold : ∀ (l : List (Fin 4)) (t : State), t.ownFixed → (l.foldl (fun t i =>
      if (t.outfeed.streams.get i).spacer = .requested (some tag) then withdrawSpacer i t else t) t).bid.hold = t.bid.hold := by
    intro l
    induction l with
    | nil => exact fun _ _ => rfl
    | cons i l ih =>
      intro t fixed
      dsimp only [List.foldl_cons]
      split
      · rw [ih _ ((withdrawSpacer_left fixed i).fixed fixed), withdrawSpacer_hold fixed]
      · exact ih t fixed
  exact fold four s fixed

theorem forgetTag_hold (tag : Tag) (s : State) : (forgetTag tag s).bid.hold = s.bid.hold := rfl

theorem noteChange_hold (lanes : Lanes) (s : State) : (noteChange lanes s).bid.hold = s.bid.hold := by
  unfold noteChange
  dsimp only
  split <;> rfl

/-- A removal clears the TRACK_FULL cause where it leaves 56 records or fewer (R52). -/
theorem dropRecord_hold {s : State} {tag : Tag} {r : Record} (held : s.record tag = some r) :
    (dropRecord tag s).bid.hold = { s.bid.hold with
      trackFull := s.bid.hold.trackFull && decide (56 < (dropRecord tag s).track.records.length) } := by
  have relief : Config.trackRelief = 56 := rfl
  have records : (dropRecord tag s).track.records = eraseTag tag s.track.records := by rw [dropRecord_track]
  have hold : (dropRecord tag s).bid.hold = (relieveTrack (s.setRecords (eraseTag tag s.track.records))).bid.hold := by
    unfold dropRecord
    rw [held]
    dsimp only
    rw [noteChange_hold, losePlaced_bid, forgetTag_hold]
  rw [hold, records]
  unfold relieveTrack
  split
  · rename_i few
    have few : (eraseTag tag s.track.records).length ≤ 56 := few
    rw [decide_eq_false (Nat.not_lt.mpr few), Bool.and_false]
    rfl
  · rename_i many
    have many : 56 < (eraseTag tag s.track.records).length := Nat.lt_of_not_le many
    rw [decide_eq_true many, Bool.and_true]
    rfl

theorem removeRecord_hold {s : State} {tag : Tag} {r : Record} (fixed : s.ownFixed) (held : s.record tag = some r) :
    (removeRecord tag s).bid.hold = { s.bid.hold with
      trackFull := s.bid.hold.trackFull && decide (56 < (removeRecord tag s).track.records.length) } := by
  have dropped := (dropRecord_left tag s).fixed fixed
  unfold removeRecord
  rw [endPieceGone_hold dropped, (endPieceGone_left dropped tag).frame .track (by decide), dropRecord_hold held]

/-! ## UNCONFIRMED (R98) -/

theorem ownFixed_fired {s : State} {o : OwnBid} (own : s.bid.own = some o) (fired : o.state = .fired) : s.ownFixed :=
  fun x held => by
    cases own.symm.trans held
    exact .inl fired

/-- The removal of a record that ends no own bid, of a state where none is FIRED about its tag. -/
theorem unconfirm_elsewhere {s : State} {tag : Tag} (h : s.ownIs .fired tag = false) (code : Nat) : unconfirm tag code s = s :=
  if_neg (by simp [h])

theorem ownIs_none {s : State} (h : s.bid.own = none) (b : BidState) (tag : Tag) : s.ownIs b tag = false := by
  unfold State.ownIs
  rw [h]

theorem ownIs_self {s : State} {o : OwnBid} (own : s.bid.own = some o) : s.ownIs o.state o.desc.tag = true := by
  unfold State.ownIs
  rw [own]
  simp

/-- The end of an own bid whose position is no longer BIDDING raises nothing (R107, R109). -/
theorem endOwn_quiet {s : State} {o : OwnBid} (own : s.bid.own = some o)
    (released : (s.feed.positions.get o.serves).state ≠ .bidding) : (endOwn s).fifo = s.fifo := by
  rw [endOwn_events own, if_neg (fun both => released both.1)]
  rfl

/-- The fired record leaves the list: the own bid ends, and UNCONFIRMED is the only event (R98). -/
theorem unconfirm_fired {s : State} {o : OwnBid} (own : s.bid.own = some o) (fired : o.state = .fired)
    (released : (s.feed.positions.get o.serves).state ≠ .bidding) (code : Nat) :
    (unconfirm o.desc.tag code s).bid.own = none
      ∧ (unconfirm o.desc.tag code s).fifo = s.withEvent { kind := .unconfirmed, code := some code } := by
  have ends : unconfirm o.desc.tag code s = raise { kind := .unconfirmed, code := some code } (endOwn s) :=
    if_pos (fired ▸ ownIs_self own)
  rw [ends]
  refine ⟨endOwn_own s, ?_⟩
  rw [raise_fifo]
  exact withEvent_congr (endOwn_quiet own released) (endOwn_frame s .store (by decide)) _

/-! ## RETIREMENT -/

theorem retirement_row {s : State} {tag : Tag} {r : Record} (acting : s.acting = true) (held : s.record tag = some r)
    (retires : s.retiresNow r = true) :
    exec (.retirement tag) s = .next (finish (unconfirm tag 1 (removeRecord tag s))) := by
  show execRetirement tag s = _
  unfold execRetirement
  rw [held]
  exact if_pos (by rw [acting, retires]; rfl)

/-- A record is removed, and UNCONFIRMED told where it was the fired one; no other record but that of an own bid is touched. -/
theorem removed_spec (tag : Tag) (code : Nat) (s : State) :
    (finish (unconfirm tag code (removeRecord tag s))).record tag = none
      ∧ (∀ x ∈ (finish (unconfirm tag code (removeRecord tag s))).track.records, x ∈ s.track.records ∧ x.desc.tag ≠ tag)
      ∧ (∀ x ∈ s.track.records, x.desc.tag ≠ tag → s.ownElsewhere x.desc.tag →
          x ∈ (finish (unconfirm tag code (removeRecord tag s))).track.records)
      ∧ SameBut listBlocks s (finish (unconfirm tag code (removeRecord tag s))) := by
  obtain ⟨sub, -, kept⟩ := removeRecord_spec tag s
  have track : (finish (unconfirm tag code (removeRecord tag s))).track.records = (removeRecord tag s).track.records := by
    rw [finish_track_records, unconfirm_frame tag code _ .track (by decide)]
  refine ⟨(record_congr track tag).trans (removeRecord_self tag s), ?_, ?_, ?_⟩
  · rw [track]
    exact sub
  · rw [track]
    exact kept
  · exact ((removeRecord_frame tag s).trans ((unconfirm_frame tag code _).widen (by decide))).trans
      ((finish_frame _).widen (by decide))

theorem retiresNow_iff (s : State) (r : Record) : s.retiresNow r = true ↔ r.openFrom = none
    ∧ 0 ≤ signedDiff s.line.highWater (plus (plus r.tl (r.measured.getD r.desc.length))
        (-s.run.eye + r.desc.trail + s.run.tolerance))
    ∧ (r.passed = true ∨ r.desc.kind = .spacer ∨ share r.desc.lanes s.run.lanes = false) := by
  cases opened : r.openFrom with
  | some n => simp [State.retiresNow, opened]
  | none =>
    have distance : r.tt s.line.highWater = plus r.tl (r.measured.getD r.desc.length) := by
      unfold Record.tt Record.gapLength
      rw [opened]
    simp [State.retiresNow, State.retireDistance, opened, distance, atLeast, or_assoc]

/-- Settles O12: the removal of the record, with what an own bid makes of it. -/
theorem retirementRemovesRecord : Obligations.RetirementRemovesRecord := by
  refine ⟨?removes, ?fired, retiresNow_iff⟩
  case removes =>
    intro s tag r acting held retires
    obtain ⟨gone, sub, kept, frame⟩ := removed_spec tag 1 s
    refine ⟨_, retirement_row acting held retires, gone, fun x mem => (sub x mem).1, kept, fun none => ?_, frame⟩
    have left := removeRecord_left (ownFixed_none none) tag
    rw [unconfirm_elsewhere (ownIs_none (left.own.trans none) _ _), finish_fifo, finish_bid_hold, finish_track_records]
    exact ⟨left.frame .fifo (by decide), removeRecord_hold (ownFixed_none none) held⟩
  case fired =>
    rintro s tag r o acting held retires own fired rfl released
    have left := removeRecord_left (ownFixed_fired own fired) o.desc.tag
    obtain ⟨ended, told⟩ := unconfirm_fired (left.own.trans own) fired
      (by rwa [left.frame .feed (by decide)]) 1
    refine ⟨_, retirement_row acting held retires, ?_, ?_⟩
    · exact finish_own_ne ended (by simp [fired])
    · rw [finish_fifo, told]
      exact withEvent_congr (left.frame .fifo (by decide)) (left.frame .store (by decide)) _

end Sys2Proof.Machine
end

section
/-! The obligation of the misses (R43, R47, R69, R70, R98, R100). -/
namespace Sys2Proof.Machine

/-! ## Sets of stations -/

theorem hasStation_or (a b : Stations) (n : Nat) : hasStation (a ||| b) n = (hasStation a n || hasStation b n) := by
  have zero : ∀ x y : Stations, x ||| y = 0 ↔ x = 0 ∧ y = 0 := fun x y => BitVec.or_eq_zero_iff
  have spread : (a ||| b) &&& stationBit n = (a &&& stationBit n) ||| (b &&& stationBit n) := by
    rw [BitVec.and_comm, BitVec.and_or_distrib_left, BitVec.and_comm _ a, BitVec.and_comm _ b]
  unfold hasStation
  rw [spread, Bool.eq_iff_iff]
  simp only [bne_iff_ne, Bool.or_eq_true, ne_eq, zero]
  exact not_and_or

theorem hasStation_zero (n : Nat) : hasStation 0 n = false := by
  unfold hasStation
  simp

/-- The set of one station holds it and no other (R100). -/
theorem hasStation_stationBit (m n : Nat) (low : 1 ≤ n) (high : n ≤ 15) : hasStation (stationBit m) n = decide (m = n) := by
  by_cases small : m ≤ 15
  · have finite : ∀ a : Fin 16, ∀ b : Fin 16, 1 ≤ b.val → hasStation (stationBit a) b = decide (a = b) := by decide
    have := finite ⟨m, by omega⟩ ⟨n, by omega⟩ low
    simpa using this
  · have none : ∀ b : Fin 16, hasStation (stationBit 16) b = false := by decide
    have bit : stationBit m = if m = 16 then stationBit 16 else 0 := by
      split
      · rename_i last
        rw [last]
      · unfold stationBit
        rw [if_neg (by omega), BitVec.shiftLeft_eq_zero (by omega)]
        rfl
    rw [decide_eq_false (by omega), bit]
    split
    · exact none ⟨n, by omega⟩
    · exact hasStation_zero n

/-- The union of the stations of some peers holds a station exactly where one of them has its number. -/
theorem hasStation_union (n : Nat) (low : 1 ≤ n) (high : n ≤ 15) : ∀ (l : List Peer) (w : Stations),
    hasStation (l.foldl (fun w p => w ||| stationBit p.number) w) n = true ↔ hasStation w n = true ∨ ∃ q ∈ l, q.number = n
  | [], w => by simp
  | p :: l, w => by
    rw [List.foldl_cons, hasStation_union n low high l, hasStation_or, hasStation_stationBit _ _ low high]
    simp [or_assoc]

/-- The deferral set takes in the FEED peers that are PRESENT (R100). -/
theorem hasStation_feedPeers (s : State) (n : Nat) (low : 1 ≤ n) (high : n ≤ 15) :
    hasStation s.feedPeers n = true ↔ ∃ q ∈ s.peers.entries, q.number = n ∧ q.state = .present
      ∧ ∃ f, q.hailed = some f ∧ f.role = some .feed := by
  unfold State.feedPeers
  rw [hasStation_union n low high, hasStation_zero]
  simp only [Bool.false_eq_true, false_or, List.mem_filter, Bool.and_eq_true, beq_iff_eq, Option.any_eq_true]
  constructor
  · rintro ⟨q, ⟨mem, present, f, hailed, role⟩, number⟩
    exact ⟨q, mem, number, present, f, hailed, role⟩
  · rintro ⟨q, mem, number, present, f, hailed, role⟩
    exact ⟨q, ⟨mem, present, f, hailed, role⟩, number⟩

/-! ## Which record is missed (R69) -/

theorem four_any (p : Fin 4 → Bool) : four.any p = true ↔ ∃ k, p k = true := by
  have all : ∀ k : Fin 4, k ∈ four := by decide
  rw [List.any_eq_true]
  exact ⟨fun ⟨k, _, h⟩ => ⟨k, h⟩, fun ⟨k, h⟩ => ⟨k, all k, h⟩⟩

/-- A pending leading edge that could still match the record defers its miss (R69). -/
theorem deferred_iff (s : State) (r : Record) : s.deferred r = true ↔ ∃ k c, hasLane r.desc.lanes k = true
    ∧ hasLane s.run.lanes k = true ∧ (s.eye.eyes.get k).state = .clear ∧ (s.eye.eyes.get k).edge = some c
    ∧ 0 ≤ signedDiff (s.arrivalEnd r) c := by
  unfold State.deferred
  rw [four_any]
  refine exists_congr fun k => ?_
  dsimp only
  split
  · rename_i c edge
    simp [edge, atLeast, and_assoc]
  · rename_i edge
    simp [edge]

theorem missedNow_iff (s : State) (r : Record) (last : Count) (ends : last = plus (plus r.tl (-s.run.eye)) s.run.tolerance) :
    s.missedNow r = true ↔ r.state ≠ .spacer ∧ share r.desc.lanes s.run.lanes = true ∧ r.passed = false
      ∧ 0 < signedDiff s.line.highWater last
      ∧ ∀ k c, hasLane r.desc.lanes k = true → hasLane s.run.lanes k = true → (s.eye.eyes.get k).state = .clear →
          (s.eye.eyes.get k).edge = some c → signedDiff last c < 0 := by
  have span : s.arrivalEnd r = last := ends.symm
  have free : s.deferred r = false ↔ ∀ k c, hasLane r.desc.lanes k = true → hasLane s.run.lanes k = true →
      (s.eye.eyes.get k).state = .clear → (s.eye.eyes.get k).edge = some c → signedDiff last c < 0 := by
    rw [← Bool.not_eq_true, deferred_iff, span]
    push Not
    exact Iff.rfl
  rw [← free]
  unfold State.missedNow later
  rw [span]
  simp [and_assoc]

/-! ## MISS -/

/-- The list after a miss at this eye: the record has passed (R47). -/
def State.passedRecords (s : State) (tag : Tag) : List Record :=
  s.track.records.map (fun x => if x.desc.tag = tag then { x with passed := true } else x)

theorem miss_row {s : State} {tag : Tag} {r : Record} (acting : s.acting = true) (taken : s.edgesTaken = true)
    (held : s.record tag = some r) (missed : s.missedNow r = true) :
    exec (.miss tag) s = .next (finish (declareMiss r s)) := by
  show execMiss tag s = _
  unfold execMiss
  rw [held]
  exact if_pos (by rw [acting, taken, missed]; rfl)

theorem declareMiss_joining {s : State} {r : Record} (station : s.station ≠ .active) :
    declareMiss r s = countMiss { r with passed := true } s.number (s.setRecords (s.passedRecords r.desc.tag)) :=
  if_neg station

theorem declareMiss_reported {s : State} {r : Record} (station : s.station = .active)
    (foreign : ¬ (r.own = true ∧ r.desc.kind = .piece)) : declareMiss r s =
    enqueue (.missed r.desc.sighted r.tl) (s.setRecords (s.passedRecords r.desc.tag)) :=
  (if_pos station).trans (if_neg foreign)

theorem declareMiss_own {s : State} {r : Record} (station : s.station = .active)
    (own : r.own = true) (kind : r.desc.kind = .piece) : declareMiss r s =
    voidOwn r.desc.tag (s.setRecords (s.passedRecords r.desc.tag)) :=
  (if_pos station).trans (if_pos ⟨own, kind⟩)

/-- The list with the record passed holds the same record under every tag, but for the flag. -/
theorem record_passed {s : State} {tag : Tag} {r : Record} (held : s.record tag = some r) :
    (s.setRecords (s.passedRecords tag)).record tag = some { r with passed := true } := by
  have same : ∀ x : Record, (if x.desc.tag = tag then { x with passed := true } else x).desc.tag = x.desc.tag := fun x => by
    split <;> rfl
  have tagged := (record_tag held).1
  unfold State.record at held ⊢
  show (s.passedRecords tag).find? _ = _
  unfold State.passedRecords
  rw [List.find?_map]
  have pred : ((fun y : Record => y.desc.tag == tag) ∘ fun x : Record => if x.desc.tag = tag then { x with passed := true } else x)
      = fun x => x.desc.tag == tag := funext fun x => by
    show ((if x.desc.tag = tag then { x with passed := true } else x : Record).desc.tag == tag) = _
    rw [same]
  rw [pred, held]
  simp [tagged]

/-- The records other than the one missed stand as they were. -/
theorem mem_passedRecords {s : State} {tag : Tag} {x : Record} (other : x.desc.tag ≠ tag) :
    x ∈ s.passedRecords tag ↔ x ∈ s.track.records := by
  unfold State.passedRecords
  rw [List.mem_map]
  constructor
  · rintro ⟨y, mem, changed⟩
    split at changed
    · rename_i same
      exact absurd (changed ▸ same) other
    · exact changed ▸ mem
  · intro mem
    exact ⟨x, mem, if_neg other⟩

/-- VOID takes a free entry, and the deferral set its members; VOIDED is told where the own bid is FIRED about the piece
(R70, R98, R100). -/
theorem voidOwn_room {s : State} (room : s.roomFirst) (tag : Tag) :
    let u := (s.setOutbox (s.link.outbox ++ [Entry.fresh (.void tag)])).setBid { s.bid with deferral := s.feedPeers }
    voidOwn tag s = if s.ownIs .fired tag then raise { kind := .voided } (endOwn u) else u := by
  intro u
  have queued : enqueue (.void tag) s = s.setOutbox (s.link.outbox ++ [Entry.fresh (.void tag)]) := enqueueFirst_room _ s room
  unfold voidOwn
  rw [queued]
  rfl

/-- Settles O11: who counts a miss, who reports it, and when an own piece is voided. -/
theorem missCountedOrReported : Obligations.MissCountedOrReported := by
  refine ⟨?first, ?second, missedNow_iff, fun s n low high => hasStation_feedPeers s n low high, ?reported, ?voided, ?kept, ?early⟩
  case first =>
    intro s tag r acting taken held missed station once
    have tagged := (record_tag held).1
    let t := declareMiss r s
    have counted : t = s.setRecords (s.track.records.map (fun x => if x.desc.tag = tag then
        { x with passed := true, missed := true, reporter := s.number } else x)) := by
      show declareMiss r s = _
      rw [declareMiss_joining station, tagged]
      unfold countMiss
      rw [if_neg (by simp [once])]
      show s.setRecords ((s.passedRecords tag).map _) = _
      unfold State.passedRecords
      rw [List.map_map]
      congr 2
      funext x
      rw [tagged]
      by_cases same : x.desc.tag = tag <;> simp [same]
    have idle : ¬ (t.station = .active ∧ t.bid.hold.any = false ∧ t.bid.own = none) := fun both => by
      rw [counted] at both
      exact station both.1
    refine ⟨_, miss_row acting taken held missed, ?_, ?_⟩
    · rw [finish_track_records, show declareMiss r s = _ from counted]
      rfl
    · refine SameBut.trans (t := t) ?_ ((finish_idle t idle).2.2.2.widen (by decide))
      rw [counted]
      exact (setRecords_frame s _).widen (by decide)
  case second =>
    intro s tag r acting taken held missed station again
    have tagged := (record_tag held).1
    let p := s.setRecords (s.passedRecords tag)
    let u := raise (r.lost s.number) p
    have counted : declareMiss r s = unconfirm tag 2 (removeRecord tag u) := by
      rw [declareMiss_joining station, tagged]
      exact (if_pos again).trans (by rw [show ({ r with passed := true } : Record).desc.tag = tag from tagged]; rfl)
    obtain ⟨gone, sub, kept, frame⟩ := removed_spec tag 2 u
    have listed : ∀ x : Record, x.desc.tag ≠ tag → (x ∈ u.track.records ↔ x ∈ s.track.records) := fun x other =>
      mem_passedRecords other
    have event : ∀ {x : State}, x.fifo = u.fifo → x.store = u.store → ∀ e, x.withEvent e
        = s.withEvents [r.lost s.number, e] := fun fifo store e => withEvent_congr fifo store e
    refine ⟨_, miss_row acting taken held missed, ?_⟩
    rw [counted]
    refine ⟨gone, fun x mem => (listed x (sub x mem).2).mp (sub x mem).1,
      fun x mem other elsewhere => kept x ((listed x other).mpr mem) other elsewhere, fun none => ?_,
      fun o own fired same released => ?_, ?_⟩
    · have left := removeRecord_left (s := u) (ownFixed_none none) tag
      rw [unconfirm_elsewhere (ownIs_none (left.own.trans none) _ _), finish_fifo, left.frame .fifo (by decide)]
      rfl
    · subst same
      have left := removeRecord_left (s := u) (ownFixed_fired (o := o) own fired) o.desc.tag
      obtain ⟨ended, told⟩ := unconfirm_fired (left.own.trans own) fired (by rwa [left.frame .feed (by decide)]) 2
      constructor
      · refine (finish_idle _ fun both => ?_).1.trans ended
        have active := both.1
        rw [unconfirm_frame _ _ _ .station (by decide), left.frame .station (by decide)] at active
        exact station active
      · rw [finish_fifo, told]
        exact event (left.frame .fifo (by decide)) (left.frame .store (by decide)) _
    · have passed : SameBut [.track, .fifo] s u := (setRecords_frame s _).then (raise_frame _ _) (by decide) (by decide)
      exact (passed.widen (by decide)).trans frame
  case reported =>
    intro s tag r acting taken held missed station foreign room
    have tagged := (record_tag held).1
    let t := (s.setRecords (s.passedRecords tag)).setOutbox (s.link.outbox ++ [Entry.fresh (.missed r.desc.sighted r.tl)])
    have queued : declareMiss r s = t := by
      rw [declareMiss_reported station foreign, tagged]
      unfold enqueue
      exact if_pos room
    refine ⟨_, miss_row acting taken held missed, ?_⟩
    rw [queued]
    refine ⟨?_, mem_finish_outbox (List.mem_append_right _ (List.mem_singleton.mpr rfl)), ?_⟩
    · rw [finish_track_records]
      rfl
    · exact (((setRecords_frame s _).widen (by decide)).trans ((setOutbox_frame _ _).widen (by decide))).trans (finish_frame t)
  case voided =>
    rintro s tag r o acting taken station held missed ownPiece piece own fired rfl released room
    have tagged := (record_tag held).1
    let p := s.setRecords (s.passedRecords o.desc.tag)
    let u := (p.setOutbox (p.link.outbox ++ [Entry.fresh (.void o.desc.tag)])).setBid { p.bid with deferral := p.feedPeers }
    let t := raise { kind := .voided } (endOwn u)
    have voids : declareMiss r s = t := by
      rw [declareMiss_own station ownPiece piece, tagged, voidOwn_room (s := p) room]
      exact if_pos (fired ▸ ownIs_self (s := p) own)
    have own' : u.bid.own = some o := own
    have passed : SameBut [.track, .bid, .link] s u :=
      (((setRecords_frame s _).widen (by decide)).trans ((setOutbox_frame _ _).widen (by decide))).trans
        ((setBid_frame _ _).widen (by decide))
    have ended : SameBut [.bid, .feed, .fifo] u t :=
      ((endOwn_frame u).widen (by decide)).trans ((raise_frame _ _).widen (by decide))
    refine ⟨_, miss_row acting taken held missed, ?_⟩
    rw [voids]
    refine ⟨?_, ?_, ?_, ⟨{ r with passed := true }, ?_, rfl, rfl⟩, ?_, ?_⟩
    · refine mem_finish_outbox ?_
      rw [ended .link (by decide)]
      exact List.mem_append_right _ (List.mem_singleton.mpr rfl)
    · rw [finish_bid_deferral]
      show (endOwn u).bid.deferral = _
      rw [endOwn_bid u o own']
      rfl
    · rw [finish_fifo]
      show (raise _ (endOwn u)).fifo = _
      rw [raise_fifo]
      exact withEvent_congr (endOwn_quiet own' released) (endOwn_frame u .store (by decide)) _
    · rw [finish_record]
      exact (record_congr (congrArg TrackList.records (ended .track (by decide))) _).trans (record_passed held)
    · exact finish_own_ne (endOwn_own u) (by simp [fired])
    · exact ((passed.widen (by decide)).trans (ended.widen (by decide))).trans ((finish_frame t).widen (by decide))
  case kept =>
    intro s tag r acting taken station held missed ownPiece piece unfired room
    have tagged := (record_tag held).1
    let p := s.setRecords (s.passedRecords tag)
    let t := (p.setOutbox (p.link.outbox ++ [Entry.fresh (.void tag)])).setBid { p.bid with deferral := p.feedPeers }
    have stands : p.ownIs .fired tag = false := by
      unfold State.ownIs
      cases own : p.bid.own with
      | none => rfl
      | some o =>
        rw [Bool.eq_false_iff]
        intro both
        simp only [Bool.and_eq_true, beq_iff_eq] at both
        exact unfired o own both.2 both.1
    have voids : declareMiss r s = t := by
      rw [declareMiss_own station ownPiece piece, tagged, voidOwn_room (s := p) room]
      exact if_neg (by simp [stands])
    have frame : SameBut settlingBlocks s t :=
      (((setRecords_frame s _).widen (by decide)).trans ((setOutbox_frame _ _).widen (by decide))).trans
        ((setBid_frame _ _).widen (by decide))
    have settled := finish_keeps t
    obtain ⟨l, more, fresh⟩ := settled.outbox
    refine ⟨_, l, miss_row acting taken held missed, fresh, ?_⟩
    rw [voids]
    refine ⟨more, ?_, ?_, fun o own => finish_own (s := t) own, frame.trans (finish_frame t)⟩
    · rw [finish_bid_deferral]
      rfl
    · rw [finish_track_records]
      rfl
  case early =>
    intro s tag early
    show execMiss tag s = _
    unfold execMiss
    cases s.record tag with
    | none => rfl
    | some r => exact if_neg (by simp [early])

end Sys2Proof.Machine
end

section
/-! What the recall of the own bid leaves at the eyes, and the judgement of a bump (R72, R94). -/
namespace Sys2Proof.Machine

/-! ## The eyes and the sightings beside the own bid's -/

/-- From `s` to `t` no more than the own bid, its record and its sighting may have gone; the eyes stay as they are. -/
structure OwnGone (s t : State) : Prop extends OwnWithdrawn s t where
  eyes : t.eye.eyes = s.eye.eyes
  sightings : t.eye.sightings.Sublist s.eye.sightings
  others : ∀ x ∈ s.eye.sightings, s.ownElsewhere x.tag → x ∈ t.eye.sightings

theorem OwnGone.of_eye {s t : State} (h : OwnWithdrawn s t) (eye : t.eye = s.eye) : OwnGone s t :=
  { h with
    eyes := by rw [eye]
    sightings := by rw [eye]
    others := fun x mem _ => by rwa [eye] }

theorem OwnGone.refl (s : State) : OwnGone s s := .of_eye (.refl s) rfl

theorem OwnGone.trans {s t u : State} (h : OwnGone s t) (k : OwnGone t u) : OwnGone s u :=
  { h.toOwnWithdrawn.trans k.toOwnWithdrawn with
    eyes := k.eyes.trans h.eyes
    sightings := k.sightings.trans h.sightings
    others := fun x mem elsewhere => k.others x (h.others x mem elsewhere) (h.tags _ elsewhere) }

theorem OwnGone.ite {s t u : State} {p : Prop} [Decidable p] (h : OwnGone s t) (k : OwnGone s u) :
    OwnGone s (if p then t else u) := by
  split
  · exact h
  · exact k

theorem OwnGone.foldl {α : Type} (f : State → α → State) (h : ∀ s a, OwnGone s (f s a)) :
    ∀ (as : List α) (s : State), OwnGone s (as.foldl f s)
  | [], s => .refl s
  | a :: as, s => (h s a).trans (OwnGone.foldl f h as (f s a))

/-- The eye unit at a removal: the sighting of the tag is discarded, and the eyes stay (R72). -/
theorem dropRecord_eye (tag : Tag) (s : State) : (dropRecord tag s).eye = (if (s.record tag).isSome then
    { s.eye with sightings := s.eye.sightings.filter (fun g => g.tag != tag) } else s.eye) := by
  unfold dropRecord
  split
  · rename_i gone
    rw [gone]
    rfl
  · rename_i r held
    rw [held, noteChange_frame _ _ .eye (by decide), losePlaced_frame _ _ .eye (by decide)]
    show (forgetTag tag (relieveTrack (s.setRecords (eraseTag tag s.track.records)))).eye = _
    have relieved : (relieveTrack (s.setRecords (eraseTag tag s.track.records))).eye = s.eye :=
      relieveTrack_frame _ .eye (by decide)
    show (discardSighting tag (relieveTrack (s.setRecords (eraseTag tag s.track.records)))).eye = _
    unfold discardSighting
    rw [State.setOutfeed_eye, State.setEye_eye, relieved]
    rfl

theorem dropOwnRecord_gone {s : State} {o : OwnBid} (own : s.bid.own = some o) : OwnGone s (dropOwnRecord o.desc.tag s) := by
  refine .ite ?_ (.refl s)
  have eye := dropRecord_eye o.desc.tag s
  refine { dropRecord_withdrawn o s own with eyes := ?_, sightings := ?_, others := ?_ } <;> rw [eye] <;> split
  · rfl
  · rfl
  · exact List.filter_sublist
  · exact .refl _
  · exact fun x mem elsewhere => List.mem_filter.mpr ⟨mem, by simpa using fun same => elsewhere o own same.symm⟩
  · exact fun x mem _ => mem

theorem endOwn_gone (s : State) : OwnGone s (endOwn s) := .of_eye (endOwn_withdrawn s) (endOwn_frame s .eye (by decide))

theorem enqueue_gone (m : Msg) (s : State) : OwnGone s (enqueue m s) :=
  .of_eye (enqueue_withdrawn m s) (enqueue_frame m s .eye (by decide))

theorem raise_gone (e : Event) (s : State) : OwnGone s (raise e s) := .of_eye (raise_withdrawn e s) rfl

theorem recallOwn_gone (code : Nat) (a : Option Int) (s : State) : OwnGone s (recallOwn code a s) := by
  cases own : s.bid.own with
  | none =>
    rw [recallOwn_fixed (ownFixed_none own)]
    exact .refl s
  | some o =>
    by_cases landing : o.state = .settling ∨ o.state = .granted
    · have unfired : o.state ≠ .fired := by rcases landing with h | h <;> rw [h] <;> decide
      rw [recallOwn_landing own landing]
      exact (((enqueue_gone _ s).trans (dropOwnRecord_gone (enqueue_own _ s o own unfired))).trans (endOwn_gone _)).trans
        (raise_gone _ _)
    · refine .of_eye (recallOwn_withdrawn code a s) ?_
      unfold recallOwn
      rw [own]
      dsimp only
      split
      · split
        · rfl
        · split
          · rfl
          · exact endOwn_frame _ .eye (by decide)
      · rename_i settling
        exact absurd (.inl settling) landing
      · rename_i granted
        exact absurd (.inr granted) landing
      · rfl

theorem noteChange_gone (lanes : Lanes) (s : State) : OwnGone s (noteChange lanes s) :=
  .of_eye (noteChange_withdrawn lanes s) (noteChange_frame lanes s .eye (by decide))

theorem recheck_gone (tag : Tag) (s : State) : OwnGone s (recheck tag s) := by
  unfold recheck
  split
  · exact .ite (recallOwn_gone _ _ s) (.refl s)
  · exact .refl s

theorem finish_eye_gone (s : State) : (finish s).eye.eyes = s.eye.eyes ∧ (finish s).eye.sightings = s.eye.sightings := by
  rw [finish_eye]
  exact ⟨rfl, rfl⟩

/-! ## The bump (R94) -/

/-- A record re-checked against a SETTLING or GRANTED own bid: it bumps the bid, or nothing happens (R94). -/
theorem recheck_landing {s : State} {o : OwnBid} {r : Record} (own : s.bid.own = some o)
    (landing : o.state = .settling ∨ o.state = .granted) (held : s.record r.desc.tag = some r) :
    recheck r.desc.tag s = if bumps s o r = true then recallOwn 7 (some r.desc.tag.owner.toNat) s else s := by
  unfold recheck
  rw [own, held]
  by_cases bumped : bumps s o r = true
  · rw [if_pos bumped]
    exact if_pos ⟨landing, bumped⟩
  · rw [if_neg bumped]
    exact if_neg (fun both => bumped both.2)

theorem Recalled.bumped {s t : State} {o : OwnBid} {owner : Nat} (h : Recalled s t o 7 (some owner)) :
    s.bumped t o owner :=
  ⟨by rw [h.own]; nofun, h.record, h.passedOver, h.outbox, h.fifo⟩

theorem landing_unqueued {o : OwnBid} (landing : o.state = .settling ∨ o.state = .granted) : o.state ≠ .queued := by
  rcases landing with h | h <;> rw [h] <;> decide

theorem landing_unfired {o : OwnBid} (landing : o.state = .settling ∨ o.state = .granted) : o.state ≠ .fired := by
  rcases landing with h | h <;> rw [h] <;> decide

/-- The end of the step leaves a bump as it is (R78). -/
theorem State.bumped.finish {s t : State} {o : OwnBid} {owner : Nat} (h : s.bumped t o owner) (ended : t.bid.own = none)
    (landing : o.state = .settling ∨ o.state = .granted) : s.bumped (finish t) o owner := by
  obtain ⟨-, record, passedOver, outbox, fifo⟩ := h
  refine ⟨finish_own_ne ended (landing_unqueued landing), ?_, ?_, fun room => mem_finish_outbox (outbox room), ?_⟩
  · rwa [finish_record]
  · rwa [finish_bid_passedOver]
  · rwa [finish_fifo]

/-- What the recall of an own bid reads of the state before it. -/
structure RecallSame (o : OwnBid) (s u : State) : Prop where
  record : u.record o.desc.tag = s.record o.desc.tag
  passedOver : u.bid.passedOver = s.bid.passedOver
  link : u.link = s.link
  fifo : u.fifo = s.fifo
  store : u.store = s.store
  positions : u.feed.positions = s.feed.positions

theorem RecallSame.refl (o : OwnBid) (s : State) : RecallSame o s s := ⟨rfl, rfl, rfl, rfl, rfl, rfl⟩

theorem RecallSame.trans {o : OwnBid} {s t u : State} (h : RecallSame o s t) (k : RecallSame o t u) : RecallSame o s u :=
  ⟨k.record.trans h.record, k.passedOver.trans h.passedOver, k.link.trans h.link, k.fifo.trans h.fifo, k.store.trans h.store,
    k.positions.trans h.positions⟩

/-- A bump is the same from every state that the recall reads alike. -/
theorem State.bumped.of_same {s u t : State} {o : OwnBid} {owner : Nat} (same : RecallSame o s u) (h : u.bumped t o owner) :
    s.bumped t o owner := by
  obtain ⟨gone, record, passedOver, outbox, fifo⟩ := h
  refine ⟨gone, ?_, passedOver.trans same.passedOver, fun room => outbox ((roomFirst_congr same.link).mpr room),
    fun room unmarked => ?_⟩
  · rw [record]
    unfold State.withoutOwn
    rw [same.record]
  · rw [fifo ((roomFirst_congr same.link).mpr room) (by rwa [same.positions])]
    exact withEvent_congr same.fifo same.store _

theorem noteChange_same (o : OwnBid) (lanes : Lanes) (s : State) : RecallSame o s (noteChange lanes s) := by
  have frame := noteChange_frame lanes s
  exact ⟨record_congr (congrArg TrackList.records (frame .track (by decide))) _, noteChange_passedOver lanes s,
    frame .link (by decide), frame .fifo (by decide), frame .store (by decide),
    congrArg FeedSequencer.positions (frame .feed (by decide))⟩

/-- What the test for a bump reads (R88, R94). -/
theorem bumps_congr {s u : State} (run : u.run = s.run) (line : u.line = s.line) (o : OwnBid) (r : Record) :
    bumps u o r = bumps s o r := by
  unfold bumps
  rw [run, line]

/-- A record that conflicts with an own bid about another tag bumps it in SEEN or STRAY alone (R94). -/
theorem bumps_iff {s : State} {o : OwnBid} {r : Record} (other : r.desc.tag ≠ o.desc.tag) : bumps s o r = true ↔
    (r.state = .seen ∨ r.state = .stray) ∧ conflict s.run (r.span s.line.highWater) o.span = true := by
  unfold bumps
  simp [other]

/-- The second half of `State.bumpedBy`: the record is new, or has moved (R94). -/
theorem moved_iff {hw : Count} {old r : Record} : old.moved hw r = true ↔
    old.tl ≠ r.tl ∨ old.state ≠ r.state ∨ old.gapLength hw ≠ r.gapLength hw := by
  unfold Record.moved
  simp only [Bool.or_eq_true, bne_iff_ne, ne_eq, or_assoc]
  exact or_congr (not_congr eq_comm) (or_congr (not_congr eq_comm) (not_congr eq_comm))

/-- The list with a record in it, handed on as a change or not, as the recall of another bid reads it. -/
theorem setRecords_same {s : State} {o : OwnBid} {l : List Record}
    (kept : (s.setRecords l).record o.desc.tag = s.record o.desc.tag) : RecallSame o s (s.setRecords l) :=
  ⟨kept, rfl, rfl, rfl, rfl, rfl⟩

theorem replaced_same {s : State} {o : OwnBid} {r : Record} (other : r.desc.tag ≠ o.desc.tag) :
    RecallSame o s (s.setRecords (replaceRecord r s.track.records)) :=
  setRecords_same (by rw [setRecords_replace, if_neg other])

theorem inserted_record {s : State} {r : Record} (fresh : s.record r.desc.tag = none) (u : Tag) :
    (s.setRecords (insertRecord r s.track.records)).record u = if r.desc.tag = u then some r else s.record u :=
  find_insertRecord r u _ fun x mem => by
    simpa using List.find?_eq_none.mp fresh x mem

/-- From `s`, whose own bid is SETTLING or GRANTED, the record `r` has entered the list of `u`, and is re-checked where it
is new or has moved: the bid is bumped, or nothing more happens (R94). -/
theorem recheck_judges {s u : State} {o : OwnBid} {r : Record} (own : s.bid.own = some o)
    (landing : o.state = .settling ∨ o.state = .granted) (other : r.desc.tag ≠ o.desc.tag) (kept : u.bid.own = s.bid.own)
    (held : u.record r.desc.tag = some r) (same : RecallSame o s u) (run : u.run = s.run) (line : u.line = s.line)
    (p : Prop) [Decidable p] (moved : p ↔ ∀ x, s.record r.desc.tag = some x →
      x.tl ≠ r.tl ∨ x.state ≠ r.state ∨ x.gapLength s.line.highWater ≠ r.gapLength s.line.highWater) :
    (s.bumpedBy r o → Recalled u (if p then recheck r.desc.tag u else u) o 7 (some r.desc.tag.owner.toNat)
        ∧ s.bumped (if p then recheck r.desc.tag u else u) o r.desc.tag.owner.toNat)
      ∧ (¬ s.bumpedBy r o → (if p then recheck r.desc.tag u else u) = u) := by
  have own' : u.bid.own = some o := kept.trans own
  have judged : s.bumpedBy r o ↔ p ∧ bumps u o r = true := by
    rw [bumps_iff other, moved, run, line]
    unfold State.bumpedBy
    tauto
  refine ⟨fun bumped => ?_, fun stands => ?_⟩
  · obtain ⟨moves, conflicts⟩ := judged.mp bumped
    rw [if_pos moves, recheck_landing own' landing held, if_pos conflicts]
    have recalled := recallOwn_recalled own' landing 7 (some (r.desc.tag.owner.toNat : Int))
    exact ⟨recalled, recalled.bumped.of_same same⟩
  · split
    · rename_i moves
      rw [recheck_landing own' landing held, if_neg (fun conflicts => stands (judged.mpr ⟨moves, conflicts⟩))]
    · rfl

end Sys2Proof.Machine
end

section
/-! The obligations of the encoder (R1, R2, R4, R6, R7, R16, R34, R57, R58, R94, R171). -/
namespace Sys2Proof.Machine

/-! ## The three kinds of step (R1, R2) -/

theorem nextPair_ne (q : Bool × Bool) : nextPair q ≠ q ∧ prevPair q ≠ q ∧ prevPair q ≠ nextPair q := by
  revert q
  decide

/-- An illegal step changes both levels at once (R2). -/
theorem illegal_iff (p q : Bool × Bool) : (p ≠ q ∧ p ≠ nextPair q ∧ p ≠ prevPair q) ↔ (p.1 ≠ q.1 ∧ p.2 ≠ q.2) := by
  revert p q
  decide

/-- The state of a change of the pair: the pair is taken, and the instant of R110 has ended (log 46). -/
def pairTaken (p : Bool × Bool) (s : State) : State := endInstant (s.setLine { s.line with pair := some p })

theorem pairTaken_frame (p : Bool × Bool) (s : State) : SameBut [.line, .feed] s (pairTaken p s) :=
  (setLine_frame _ _).then (setFeed_frame _ _) (by decide) (by decide)

theorem encoderStep_still {s : State} {q : Bool × Bool} (pair : s.line.pair = some q) (eyes : Lanes) :
    encoderStep q eyes s = s := by
  unfold encoderStep
  rw [pair]
  exact if_pos rfl

theorem encoderStep_forward {s : State} {q : Bool × Bool} (pair : s.line.pair = some q) (eyes : Lanes) :
    encoderStep (nextPair q) eyes s = stepForward eyes (pairTaken (nextPair q) s) := by
  unfold encoderStep
  rw [pair]
  exact (if_neg (nextPair_ne q).1).trans (if_pos rfl)

theorem encoderStep_backward {s : State} {q : Bool × Bool} (pair : s.line.pair = some q) (eyes : Lanes) :
    encoderStep (prevPair q) eyes s = stepBackward (pairTaken (prevPair q) s) := by
  unfold encoderStep
  rw [pair]
  exact (if_neg (nextPair_ne q).2.1).trans ((if_neg (nextPair_ne q).2.2).trans (if_pos rfl))

theorem encoderStep_illegal {s : State} {p q : Bool × Bool} (pair : s.line.pair = some q) (changed : p ≠ q)
    (next : p ≠ nextPair q) (prev : p ≠ prevPair q) (eyes : Lanes) :
    encoderStep p eyes s = stepIllegal (pairTaken p s) := by
  unfold encoderStep
  rw [pair]
  exact (if_neg changed).trans ((if_neg next).trans (if_neg prev))

theorem encoder_row {s : State} (free : s.port.held = false) (a b : Bool) (eyes : Lanes) :
    exec (.encoderStep a b eyes) s = .next (finish (encoderStep (a, b) eyes s)) := by
  refine congrArg Host.Outcome.next (if_neg ?_)
  simp [free]

/-! ## EXCURSION (R6, R7) -/

theorem wouldReverse_iff (s : State) (c : Count) : s.wouldReverse c = true ↔
    s.line.excursion = false ∧ s.running ∧ s.run.reverse < signedDiff s.line.highWater c := by
  simp [State.wouldReverse, State.running, and_assoc]

/-- The entry into EXCURSION before the own bid reacts: the flag stands, and REVERSED is raised (R6). -/
def excursionEntered (s : State) : State :=
  raise { kind := .reversed, a := some s.line.speed, b := some s.line.slips } (s.setLine { s.line with excursion := true })

theorem enterExcursion_eq (s : State) : enterExcursion s = recallLanding 9 (excursionEntered s) := rfl

theorem recallLanding_frame (code : Nat) (s : State) : SameBut listBlocks s (recallLanding code s) := by
  unfold recallLanding
  split
  · exact .ite (recallOwn_frame _ _ s) (.refl _ s)
  · exact .refl _ s

theorem recallLanding_gone (code : Nat) (s : State) : OwnGone s (recallLanding code s) := by
  unfold recallLanding
  split
  · exact .ite (recallOwn_gone _ _ s) (.refl s)
  · exact .refl s

/-- The state of the backward step that enters EXCURSION, before the own bid reacts. -/
def reversed (p : Bool × Bool) (s : State) : State :=
  let t := pairTaken p s
  excursionEntered (t.setLine { t.line with count := s.line.count - 1, atAdvance := false })

theorem reversed_frame (p : Bool × Bool) (s : State) : SameBut [.line, .feed, .fifo] s (reversed p s) :=
  (((pairTaken_frame p s).widen (by decide)).trans ((setLine_frame _ _).widen (by decide))).trans
    (((setLine_frame _ _).widen (by decide)).trans ((raise_frame _ _).widen (by decide)))

theorem stepBackward_reverses {s : State} (p : Bool × Bool) (reverses : s.wouldReverse (s.line.count - 1) = true) :
    stepBackward (pairTaken p s) = recallLanding 9 (reversed p s) := if_pos reverses

theorem stepBackward_stays {s : State} (p : Bool × Bool) (stays : s.wouldReverse (s.line.count - 1) = false) :
    stepBackward (pairTaken p s) = (pairTaken p s).setLine
      { (pairTaken p s).line with count := s.line.count - 1, atAdvance := false } :=
  if_neg (fun reverses => by
    have reverses : s.wouldReverse (s.line.count - 1) = true := reverses
    rw [stays] at reverses
    cases reverses)

theorem excursion_row {s : State} {q : Bool × Bool} (free : s.port.held = false) (pair : s.line.pair = some q)
    (reverses : s.wouldReverse (s.line.count - 1) = true) :
    exec .excursion s = .next (finish (recallLanding 9 (reversed (prevPair q) s))) := by
  refine congrArg Host.Outcome.next ?_
  refine (if_neg (by simp [free])).trans ?_
  dsimp only
  rw [pair]
  dsimp only
  rw [if_pos reverses, encoderStep_backward pair, stepBackward_reverses _ reverses]

/-- Settles O3: REVERSED at the entry, and the recall of a landing bid behind it. -/
theorem excursionRaisesReversed : Obligations.ExcursionRaisesReversed := by
  intro s q free pair running armed beyond
  have reverses : s.wouldReverse (s.line.count - 1) = true := (wouldReverse_iff s _).mpr ⟨armed, running, beyond⟩
  let u := reversed (prevPair q) s
  have entered := reversed_frame (prevPair q) s
  have recalled := recallLanding_frame 9 u
  have ends := finish_frame (recallLanding 9 u)
  have line : u.line = { s.line with
      pair := some (prevPair q), count := s.line.count - 1, excursion := true, atAdvance := false } := rfl
  have told : u.fifo = s.withEvent { kind := .reversed, a := some s.line.speed, b := some s.line.slips } := rfl
  refine ⟨_, excursion_row free pair reverses, ?_, fun others => ?_, fun o own landing => ?_, ?_⟩
  · rw [finish_line, recalled .line (by decide), line]
  · have stands : recallLanding 9 u = u := recallLanding_of_not_landing (s := u) others 9
    rw [show reversed (prevPair q) s = u from rfl, stands]
    refine ⟨?_, ?_, fun o own => finish_own (s := u) own⟩
    · rw [finish_fifo, told]
    · rw [finish_track_records]
      rfl
  · have happened : Recalled u (recallLanding 9 u) o 9 none := by
      rw [recallLanding_eq (s := u) own landing]
      exact recallOwn_recalled (s := u) own landing 9 none
    refine ⟨finish_own_ne happened.own (landing_unqueued landing), ?_, fun room => ?_, fun room unmarked => ?_⟩
    · rw [finish_record]
      exact happened.record
    · exact mem_finish_outbox (happened.outbox room)
    · rw [finish_fifo]
      exact happened.fifo room unmarked
  · exact ((entered.widen (by decide)).trans (recalled.widen (by decide))).trans (ends.widen (by decide))

/-! ## The growth of the open strays (R34, R94) -/

/-- The hand-on of one grown stray. -/
def growStray (s : State) (r : Record) : State := recheck r.desc.tag (noteChange r.desc.lanes s)

theorem growStrays_eq (s : State) : growStrays s = (s.track.records.filter s.grows).foldl growStray s := rfl

theorem growStray_frame (s : State) (r : Record) : SameBut listBlocks s (growStray s r) :=
  ((noteChange_frame _ s).widen (by decide)).trans (recheck_frame _ _)

theorem growStray_gone (s : State) (r : Record) : OwnGone s (growStray s r) :=
  (noteChange_gone _ s).trans (recheck_gone _ _)

/-- Without a landing bid a grown stray is handed on, and nothing else happens. -/
theorem growStray_left {s : State} (fixed : s.ownFixed) (r : Record) : OwnLeft [.bid, .outfeed] s (growStray s r) := by
  have noted := noteChange_left r.desc.lanes s
  unfold growStray
  rw [recheck_fixed (noted.fixed fixed)]
  exact noted

/-- What a bump leaves is left by every hand-on behind it. -/
theorem State.bumped.later {s t u : State} {o : OwnBid} {owner : Nat} (h : s.bumped t o owner)
    (own : u.bid.own ≠ some o) (record : u.record o.desc.tag = t.record o.desc.tag) (passedOver : u.bid.passedOver = t.bid.passedOver)
    (link : u.link = t.link) (fifo : u.fifo = t.fifo) : s.bumped u o owner := by
  obtain ⟨-, gone, passed, outbox, events⟩ := h
  refine ⟨own, record.trans gone, passedOver.trans passed, fun room => ?_, fun room unmarked => fifo.trans (events room unmarked)⟩
  rw [link]
  exact outbox room

/-- A run of hand-ons at a station without an own bid. -/
theorem growStrays_idle (o : OwnBid) : ∀ (l : List Record) (s : State), s.bid.own = none →
    RecallSame o s (l.foldl growStray s) ∧ (l.foldl growStray s).bid.own = none
  | [], s, ended => ⟨.refl o s, ended⟩
  | r :: l, s, ended => by
    have noted := (noteChange_left r.desc.lanes s).own.trans ended
    have step : growStray s r = noteChange r.desc.lanes s := recheck_fixed (ownFixed_none noted) _
    obtain ⟨same, still⟩ := growStrays_idle o l _ noted
    rw [List.foldl_cons, step]
    exact ⟨(noteChange_same o _ s).trans same, still⟩

/-- The first grown stray in list order that conflicts with a landing bid bumps it, and where none does the bid stands
(R94, log 14). -/
theorem growStrays_bump {s : State} {o : OwnBid} (landing : o.state = .settling ∨ o.state = .granted) :
    ∀ (l : List Record) (u : State), u.bid.own = some o → RecallSame o s u → u.run = s.run → u.line = s.line →
      (∀ r ∈ l, u.record r.desc.tag = some r) →
      (∀ r, l.find? (bumps s o) = some r → s.bumped (l.foldl growStray u) o r.desc.tag.owner.toNat
          ∧ (l.foldl growStray u).bid.own = none)
        ∧ ((∀ r ∈ l, bumps s o r = false) → (l.foldl growStray u).bid.own = some o ∧ (l.foldl growStray u).fifo = s.fifo)
  | [], u, own, same, _, _, _ => ⟨nofun, fun _ => ⟨own, same.fifo⟩⟩
  | r :: l, u, own, same, run, line, listed => by
    have frame := noteChange_frame r.desc.lanes u
    have noted : (noteChange r.desc.lanes u).bid.own = some o := (noteChange_left _ u).own.trans own
    have same' := same.trans (noteChange_same o r.desc.lanes u)
    have run' := (frame .run (by decide)).trans run
    have line' := (frame .line (by decide)).trans line
    have records := congrArg TrackList.records (frame .track (by decide))
    have held := (record_congr records r.desc.tag).trans (listed r List.mem_cons_self)
    have step : growStray u r = _ := recheck_landing noted landing held
    rw [bumps_congr run' line'] at step
    rw [List.foldl_cons]
    cases bumped : bumps s o r with
    | true =>
      rw [if_pos bumped] at step
      have recalled := recallOwn_recalled noted landing 7 (some (r.desc.tag.owner.toNat : Int))
      obtain ⟨idle, ended⟩ := growStrays_idle o l (growStray u r) (by rw [step]; exact recalled.own)
      refine ⟨fun x first => ?_, fun stands => ?_⟩
      · rw [List.find?_cons_of_pos bumped] at first
        obtain rfl := Option.some.inj first
        refine ⟨(recalled.bumped.of_same same').later ?_ ?_ ?_ ?_ ?_, ended⟩
        · rw [ended]
          nofun
        · rw [idle.record, step]
        · rw [idle.passedOver, step]
        · rw [idle.link, step]
        · rw [idle.fifo, step]
      · rw [stands r List.mem_cons_self] at bumped
        cases bumped
    | false =>
      rw [if_neg (by simp [bumped])] at step
      rw [step]
      obtain ⟨first, stands⟩ := growStrays_bump landing l (noteChange r.desc.lanes u) noted same' run' line'
        (fun x mem => (record_congr records _).trans (listed x (List.mem_cons_of_mem _ mem)))
      refine ⟨fun x found => first x ?_, fun quiet => stands fun x mem => quiet x (List.mem_cons_of_mem _ mem)⟩
      rwa [List.find?_cons_of_neg (by simp [bumped])] at found

/-! ## The advance (R5, R57, R58, R171) -/

/-- The counts of an advance, before it is handed to the blocks (R4). -/
def countAdvance (s : State) : State :=
  s.setLine { s.line with count := s.line.count + 1, highWater := s.line.count + 1, atAdvance := false }

/-- An advance as the blocks see it before the open strays grow (R5). -/
def advanceSeen (eyes : Lanes) (s : State) : State :=
  let t := countAdvance s
  countJoin (sampleEyes eyes (t.setLine { t.line with atAdvance := true }))

theorem stepForward_advance {s : State} (eyes : Lanes) (rises : 0 < signedDiff (s.line.count + 1) s.line.highWater) :
    stepForward eyes s = if s.station = .setup then countAdvance s else growStrays (advanceSeen eyes s) :=
  if_pos (decide_eq_true rises)

theorem stepForward_within {s : State} (eyes : Lanes) (below : ¬ 0 < signedDiff (s.line.count + 1) s.line.highWater) :
    stepForward eyes s = s.setLine { s.line with
      count := s.line.count + 1, atAdvance := false
      excursion := s.line.excursion && s.line.count + 1 != s.line.highWater } :=
  if_neg (by simpa [later] using below)

/-- One eye after an advance (R58). -/
theorem sampleEye_spec (c : Count) (level : Bool) (e : Eye) : sampleEye c level e = { e with
    edge := if e.state ≠ .idle then (if level = (e.state == .blocked) then none else some (e.edge.getD c)) else e.edge } := by
  unfold sampleEye
  split
  · rename_i idle
    rw [if_neg (by simp [idle])]
  · rename_i awake
    rw [if_pos awake]
    split <;> rfl

theorem advanceSeen_line (eyes : Lanes) (s : State) : (advanceSeen eyes s).line = { s.line with
    count := s.line.count + 1, highWater := s.line.count + 1, atAdvance := true } := by
  unfold advanceSeen countJoin
  dsimp only
  split <;> rfl

theorem advanceSeen_eyes (eyes : Lanes) (s : State) (k : Fin 4) : (advanceSeen eyes s).eye.eyes.get k =
    if hasLane s.run.lanes k then sampleEye (s.line.count + 1) (hasLane eyes k) (s.eye.eyes.get k) else s.eye.eyes.get k := by
  have eye : (advanceSeen eyes s).eye.eyes = s.eye.eyes.mapAt (fun k e =>
      if hasLane s.run.lanes k then sampleEye (s.line.count + 1) (hasLane eyes k) e else e) := by
    unfold advanceSeen countJoin
    dsimp only
    split <;> rfl
  rw [eye, Quad.get_mapAt]

theorem advanceSeen_sightings (eyes : Lanes) (s : State) : (advanceSeen eyes s).eye.sightings = s.eye.sightings := by
  unfold advanceSeen countJoin
  dsimp only
  split <;> rfl

theorem advanceSeen_joined (eyes : Lanes) (s : State) : (advanceSeen eyes s).peers = { s.peers with
    joined := if s.station = .joining then s.peers.joined + 1 else s.peers.joined } := by
  unfold advanceSeen countJoin
  dsimp only
  split
  · rename_i joining
    rw [if_pos (show s.station = .joining from joining)]
    rfl
  · rename_i other
    rw [if_neg (show ¬ s.station = .joining from other)]
    rfl

theorem advanceSeen_frame (eyes : Lanes) (s : State) : SameBut [.line, .eye, .peers] s (advanceSeen eyes s) := by
  have sampled : SameBut [.line, .eye, .peers] s (sampleEyes eyes ((countAdvance s).setLine
      { (countAdvance s).line with atAdvance := true })) :=
    (((setLine_frame _ _).widen (by decide)).trans ((setLine_frame _ _).widen (by decide))).trans
      ((setEye_frame _ _).widen (by decide))
  exact .ite (sampled.trans ((setPeers_frame _ _).widen (by decide))) sampled

/-- What the growth of the strays leaves of the advance: all but the own bid, its record and its sighting, and the marks. -/
theorem growStrays_gone (s : State) : OwnGone s (growStrays s) := .foldl growStray growStray_gone _ s

theorem growStrays_frame (s : State) : SameBut listBlocks s (growStrays s) := .foldl growStray growStray_frame _ s

theorem growStrays_left {s : State} (fixed : s.ownFixed) : OwnLeft [.bid, .outfeed] s (growStrays s) :=
  .foldl growStray (fun _ r fixed => growStray_left fixed r) _ s fixed

/-- What ENCODER_STEP does to the line counter, the eyes and the join travel, for an advance and for any other step. -/
structure StepTaken (s t : State) (eyes : Lanes) (advance : Bool) : Prop where
  peers : t.peers = { s.peers with
    joined := if advance = true ∧ s.station = .joining then s.peers.joined + 1 else s.peers.joined }
  eyes : ∀ k, t.eye.eyes.get k = { s.eye.eyes.get k with
    edge := if advance = true ∧ s.station ≠ .setup ∧ hasLane s.run.lanes k = true ∧ (s.eye.eyes.get k).state ≠ .idle then
        (if hasLane eyes k = ((s.eye.eyes.get k).state == .blocked) then none
          else some ((s.eye.eyes.get k).edge.getD (s.line.count + 1)))
      else (s.eye.eyes.get k).edge }
  alone : s.bid.own = none → t.track.records = s.track.records ∧ t.eye.sightings = s.eye.sightings
    ∧ t.feed.returned = none
  frame : SameBut [.line, .track, .eye, .bid, .feed, .width, .outfeed, .link, .peers, .fifo] s t

theorem StepTaken.finish {s t : State} {eyes : Lanes} {advance : Bool} (h : StepTaken s t eyes advance) :
    StepTaken s (finish t) eyes advance := by
  refine ⟨?_, ?_, fun none => ?_, h.frame.trans ((finish_frame t).widen (by decide))⟩
  · rw [finish_peers]
    exact h.peers
  · rw [finish_eye]
    exact h.eyes
  · rw [finish_track_records, finish_eye, finish_feed_returned]
    exact h.alone none

/-- A step that is no advance. -/
theorem StepTaken.plain {s t : State} (eyes : Lanes) (h : SameBut [.line, .track, .bid, .feed, .width, .outfeed, .link, .fifo] s t)
    (alone : s.bid.own = none → t.track.records = s.track.records ∧ t.feed.returned = none) :
    StepTaken s t eyes false := by
  refine ⟨?_, fun k => ?_, fun none => ⟨(alone none).1, by rw [h .eye (by decide)], (alone none).2⟩, h.widen (by decide)⟩
  · rw [h .peers (by decide)]
    simp
  · rw [h .eye (by decide), if_neg (by simp)]

/-- An advance outside SETUP: the eyes are sampled, a JOINING station counts, and the open strays grow (R5, R57, R171). -/
theorem StepTaken.advance {s : State} (p : Bool × Bool) (eyes : Lanes) (running : s.running) :
    StepTaken s (growStrays (advanceSeen eyes (pairTaken p s))) eyes true := by
  let v := advanceSeen eyes (pairTaken p s)
  have seen : SameBut [.line, .eye, .feed, .peers] s v :=
    ((pairTaken_frame p s).widen (by decide)).trans ((advanceSeen_frame eyes _).widen (by decide))
  have grown := growStrays_frame v
  refine ⟨?_, fun k => ?_, fun ended => ?_, (seen.widen (by decide)).trans (grown.widen (by decide))⟩
  · rw [grown .peers (by decide), show v.peers = _ from advanceSeen_joined eyes (pairTaken p s)]
    simp only [true_and]
    rfl
  · rw [(growStrays_gone v).eyes, show v.eye.eyes.get k = _ from advanceSeen_eyes eyes (pairTaken p s) k]
    show (if hasLane s.run.lanes k then sampleEye (s.line.count + 1) (hasLane eyes k) (s.eye.eyes.get k)
      else s.eye.eyes.get k) = _
    by_cases watched : hasLane s.run.lanes k = true
    · rw [if_pos watched, sampleEye_spec]
      simp [watched, show s.station ≠ .setup from running]
    · rw [if_neg watched, if_neg (fun all => watched all.2.2.1)]
  · have left := growStrays_left (ownFixed_none (s := v) ((congrArg BidEngine.own (seen .bid (by decide))).trans ended))
    refine ⟨?_, ?_, ?_⟩
    · rw [left.frame .track (by decide), seen .track (by decide)]
    · rw [left.frame .eye (by decide)]
      exact advanceSeen_sightings eyes (pairTaken p s)
    · rw [left.frame .feed (by decide), show v.feed = _ from advanceSeen_frame eyes (pairTaken p s) .feed (by decide)]
      rfl

/-! ## ENCODER_STEP -/

/-- A count is not an advance over itself (R4). -/
theorem rises_ne {a b : Count} (rises : 0 < signedDiff a b) : a ≠ b := by
  rintro rfl
  simp [signedDiff] at rises

/-- The line counter after a change of the pair from `q` to `p` (R1, R2, R4, R6, R16). -/
structure LineMoved (s t : State) (p q : Bool × Bool) (advance : Bool) : Prop where
  pair : t.line.pair = some p
  count : t.line.count = (if p = nextPair q then s.line.count + 1
    else if p = prevPair q then s.line.count - 1 else s.line.count)
  slips : t.line.slips = (if p.1 ≠ q.1 ∧ p.2 ≠ q.2 then min 65535 (s.line.slips + 1) else s.line.slips)
  highWater : t.line.highWater = (if advance = true then s.line.count + 1 else s.line.highWater)
  excursion : t.line.excursion = (if p = nextPair q ∧ s.line.count + 1 = s.line.highWater then false
    else if p = prevPair q ∧ s.station ≠ .setup ∧ s.line.excursion = false
      ∧ s.run.reverse < signedDiff s.line.highWater (s.line.count - 1) then true
    else s.line.excursion)
  atAdvance : t.line.atAdvance = (if p = q then s.line.atAdvance else advance && s.station != .setup)
  speeds : t.line.speed = s.line.speed ∧ t.line.lead = s.line.lead ∧ t.line.margin = s.line.margin
    ∧ t.line.speedRef = s.line.speedRef ∧ t.line.speedDue = s.line.speedDue

/-- What a step of the encoder leaves, where the pair has changed. -/
theorem encoderStep_changed {s : State} {p q : Bool × Bool} (pair : s.line.pair = some q) (changed : p ≠ q) (eyes : Lanes)
    (advance : Bool) (h : advance = true ↔ p = nextPair q ∧ 0 < signedDiff (s.line.count + 1) s.line.highWater) :
    LineMoved s (encoderStep p eyes s) p q advance ∧ StepTaken s (encoderStep p eyes s) eyes advance := by
  obtain ⟨nextNe, prevNe, prevNext⟩ := nextPair_ne q
  have taken := pairTaken_frame p s
  have legal : p = nextPair q ∨ p = prevPair q → ¬ (p.1 ≠ q.1 ∧ p.2 ≠ q.2) := fun either both => by
    obtain ⟨-, next, prev⟩ := (illegal_iff p q).mpr both
    exact either.elim next prev
  by_cases next : p = nextPair q
  · have sane := legal (.inl next)
    have unprev : p ≠ prevPair q := fun prev => prevNext (prev.symm.trans next)
    have step : encoderStep p eyes s = stepForward eyes (pairTaken p s) := by
      subst next
      exact encoderStep_forward pair eyes
    by_cases rises : 0 < signedDiff (s.line.count + 1) s.line.highWater
    · have advances : advance = true := h.mpr ⟨next, rises⟩
      subst advances
      have new : s.line.count + 1 ≠ s.line.highWater := rises_ne rises
      rw [step, stepForward_advance (s := pairTaken p s) eyes rises]
      by_cases setup : s.station = .setup
      · rw [if_pos (show (pairTaken p s).station = .setup from setup)]
        refine ⟨⟨rfl, ?_, ?_, rfl, ?_, ?_, rfl, rfl, rfl, rfl, rfl⟩, ?_⟩
        · rw [if_pos next]
          rfl
        · rw [if_neg sane]
          rfl
        · rw [if_neg (fun both => new both.2), if_neg (fun both => unprev both.1)]
          rfl
        · rw [if_neg changed, setup]
          rfl
        · refine ⟨?_, fun k => ?_, fun _ => ⟨rfl, rfl, rfl⟩,
            (taken.widen (by decide)).trans ((setLine_frame _ _).widen (by decide))⟩
          · rw [if_neg (by simp [setup])]
            rfl
          · rw [if_neg (by simp [setup])]
            rfl
      · rw [if_neg (show ¬ (pairTaken p s).station = .setup from setup)]
        refine ⟨?_, .advance p eyes setup⟩
        have line : (growStrays (advanceSeen eyes (pairTaken p s))).line = { s.line with
            pair := some p, count := s.line.count + 1, highWater := s.line.count + 1, atAdvance := true } := by
          rw [growStrays_frame _ .line (by decide), advanceSeen_line]
          rfl
        refine ⟨?_, ?_, ?_, ?_, ?_, ?_, ?_⟩ <;> rw [line]
        · rw [if_pos next]
        · rw [if_neg sane]
        · rfl
        · rw [if_neg (fun both => new both.2), if_neg (fun both => unprev both.1)]
        · rw [if_neg changed]
          simp [setup]
        · exact ⟨rfl, rfl, rfl, rfl, rfl⟩
    · have within : advance = false := Bool.eq_false_iff.mpr (fun advances => rises (h.mp advances).2)
      subst within
      rw [step, stepForward_within (s := pairTaken p s) eyes rises]
      refine ⟨⟨rfl, ?_, ?_, rfl, ?_, ?_, rfl, rfl, rfl, rfl, rfl⟩,
        .plain eyes ((taken.widen (by decide)).trans ((setLine_frame _ _).widen (by decide))) (fun _ => ⟨rfl, rfl⟩)⟩
      · rw [if_pos next]
        rfl
      · rw [if_neg sane]
        rfl
      · show (s.line.excursion && s.line.count + 1 != s.line.highWater) = _
        by_cases met : s.line.count + 1 = s.line.highWater
        · rw [if_pos ⟨next, met⟩, met]
          simp
        · rw [if_neg (fun both => met both.2), if_neg (fun both => unprev both.1)]
          rw [bne_iff_ne.mpr met, Bool.and_true]
      · rw [if_neg changed]
        rfl
  · have still : advance = false := Bool.eq_false_iff.mpr (fun advances => next (h.mp advances).1)
    subst still
    by_cases prev : p = prevPair q
    · have sane := legal (.inr prev)
      have step : encoderStep p eyes s = stepBackward (pairTaken p s) := by
        subst prev
        exact encoderStep_backward pair eyes
      by_cases reverses : s.wouldReverse (s.line.count - 1) = true
      · obtain ⟨armed, running, beyond⟩ := (wouldReverse_iff s _).mp reverses
        have recalled := recallLanding_frame 9 (reversed p s)
        have line : (recallLanding 9 (reversed p s)).line = { s.line with
            pair := some p, count := s.line.count - 1, excursion := true, atAdvance := false } :=
          recalled .line (by decide)
        rw [step, stepBackward_reverses p reverses]
        refine ⟨⟨?_, ?_, ?_, ?_, ?_, ?_, ?_⟩, ?_, fun k => ?_, fun ended => ?_, ?_⟩
        · rw [line]
        · rw [line, if_neg next, if_pos prev]
        · rw [line, if_neg sane]
        · rw [line]
          rfl
        · rw [line, if_neg (fun both => next both.1), if_pos ⟨prev, running, armed, beyond⟩]
        · rw [line, if_neg changed]
          rfl
        · rw [line]
          exact ⟨rfl, rfl, rfl, rfl, rfl⟩
        · rw [recalled .peers (by decide), if_neg (by simp)]
          rfl
        · rw [(recallLanding_gone 9 (reversed p s)).eyes, if_neg (by simp)]
          rfl
        · have stands : recallLanding 9 (reversed p s) = reversed p s := recallLanding_of_not_landing (fun o own => by
            cases ended.symm.trans own) 9
          rw [stands]
          exact ⟨rfl, rfl, rfl⟩
        · exact ((reversed_frame p s).widen (by decide)).trans (recalled.widen (by decide))
      · have stays : s.wouldReverse (s.line.count - 1) = false := Bool.eq_false_iff.mpr reverses
        rw [step, stepBackward_stays p stays]
        refine ⟨⟨rfl, ?_, ?_, rfl, ?_, ?_, rfl, rfl, rfl, rfl, rfl⟩,
          .plain eyes ((taken.widen (by decide)).trans ((setLine_frame _ _).widen (by decide))) (fun _ => ⟨rfl, rfl⟩)⟩
        · rw [if_neg next, if_pos prev]
          rfl
        · rw [if_neg sane]
          rfl
        · rw [if_neg (fun both => next both.1), if_neg (fun all =>
            reverses ((wouldReverse_iff s _).mpr ⟨all.2.2.1, all.2.1, all.2.2.2⟩))]
          rfl
        · rw [if_neg changed]
          rfl
    · have both := (illegal_iff p q).mp ⟨changed, next, prev⟩
      rw [encoderStep_illegal pair changed next prev]
      refine ⟨⟨rfl, ?_, ?_, rfl, ?_, ?_, rfl, rfl, rfl, rfl, rfl⟩,
        .plain eyes ((taken.widen (by decide)).trans ((setLine_frame _ _).widen (by decide))) (fun _ => ⟨rfl, rfl⟩)⟩
      · rw [if_neg next, if_neg prev]
        rfl
      · rw [if_pos both]
        rfl
      · rw [if_neg (fun all => next all.1), if_neg (fun all => prev all.1)]
        rfl
      · rw [if_neg changed]
        rfl

/-- Settles O2: the kinds of step, what an advance hands to the blocks, and the first grown stray that bumps a landing bid. -/
theorem encoderStepMovesCount : Obligations.EncoderStepMovesCount := by
  refine ⟨?moves, ?first, ?grows⟩
  case moves =>
    intro s a b eyes q advance free pair h
    refine ⟨_, encoder_row free a b eyes, ?_⟩
    rw [finish_line]
    by_cases changed : (a, b) = q
    · subst changed
      obtain ⟨nextNe, prevNe, -⟩ := nextPair_ne (a, b)
      have still : advance = false := Bool.eq_false_iff.mpr (fun advances => nextNe (h.mp advances).1.symm)
      subst still
      rw [encoderStep_still pair]
      have legal : ¬ (a ≠ a ∧ b ≠ b) := fun both => both.1 rfl
      refine ⟨pair, ?_, ?_, rfl, ?_, ?_, rfl, rfl, rfl, rfl, rfl, ?_, fun k => ?_, fun _ => ⟨?_, ?_, ?_⟩, ?_⟩
      · rw [if_neg nextNe.symm, if_neg prevNe.symm]
      · rw [if_neg legal]
      · rw [if_neg (fun both => nextNe both.1.symm), if_neg (fun both => prevNe both.1.symm)]
      · rw [if_pos rfl]
      · rw [finish_peers, if_neg (by simp)]
      · rw [finish_eye, if_neg (by simp)]
      · exact finish_track_records s
      · rw [finish_eye]
      · rw [finish_feed_returned, if_pos rfl]
      · exact (finish_frame s).widen (by decide)
    · obtain ⟨moved, taken⟩ := encoderStep_changed pair changed eyes advance h
      have ends := taken.finish
      refine ⟨moved.pair, moved.count, moved.slips, moved.highWater, moved.excursion, moved.atAdvance, moved.speeds.1,
        moved.speeds.2.1, moved.speeds.2.2.1, moved.speeds.2.2.2.1, moved.speeds.2.2.2.2, ends.peers, ends.eyes, fun ended => ?_,
        ends.frame⟩
      rw [if_neg changed]
      exact ends.alone ended
  case first =>
    intro s a b eyes free pair
    have step : encoderStep (a, b) eyes s = s.setLine { s.line with pair := some (a, b) } := by
      unfold encoderStep
      rw [pair]
    refine ⟨_, encoder_row free a b eyes, ?_, ?_⟩
    · rw [finish_line, step]
      rfl
    · rw [step]
      exact ((setLine_frame s _).widen (by decide)).trans ((finish_frame _).widen (by decide))
  case grows =>
    intro s a b eyes q o grown free running within pair next rises own landing grows
    let v := advanceSeen eyes (pairTaken (a, b) s)
    have step : encoderStep (a, b) eyes s = growStrays v := by
      rw [next, encoderStep_forward pair, stepForward_advance (s := pairTaken (nextPair q) s) eyes rises]
      exact (if_neg running).trans (by rw [← next])
    have seen : SameBut [.line, .eye, .feed, .peers] s v :=
      ((pairTaken_frame (a, b) s).widen (by decide)).trans ((advanceSeen_frame eyes _).widen (by decide))
    have line : v.line = { s.line with
        pair := some (a, b), count := s.line.count + 1, highWater := s.line.count + 1, atAdvance := true } := by
      rw [show v.line = _ from advanceSeen_line eyes _]
      rfl
    have records : v.track.records = s.track.records := congrArg TrackList.records (seen .track (by decide))
    have feed : v.feed = { s.feed with returned := none } := by
      rw [show v.feed = _ from advanceSeen_frame eyes (pairTaken (a, b) s) .feed (by decide)]
      rfl
    have same : RecallSame o s v := ⟨record_congr records _, congrArg BidEngine.passedOver (seen .bid (by decide)),
      seen .link (by decide), seen .fifo (by decide), seen .store (by decide), by rw [feed]⟩
    have own' : v.bid.own = some o := (congrArg BidEngine.own (seen .bid (by decide))).trans own
    have listed : ∀ r ∈ v.track.records.filter v.grows, v.record r.desc.tag = some r := fun r mem => by
      rw [record_congr records]
      exact record_of_mem within.2 (records ▸ List.mem_of_mem_filter mem)
    obtain ⟨first, stands⟩ := growStrays_bump (s := v) landing (v.track.records.filter v.grows) v own' (.refl o v) rfl rfl listed
    have test : ∀ r, (v.grows r && bumps v o r) = grown r := fun r => by
      rw [Bool.eq_iff_iff, grows r]
      have before : v.line.highWater - 1 = s.line.count := by
        rw [line]
        simp
      have now : v.line.highWater = s.line.count + 1 := by rw [line]
      unfold State.grows bumps
      rw [before, now, seen .run (by decide)]
      simp [Option.isSome_iff_ne_none, and_assoc]
    refine ⟨_, encoder_row free a b eyes, fun r found => ?_, fun quiet => ?_⟩ <;> rw [step, growStrays_eq]
    · have found' : (v.track.records.filter v.grows).find? (bumps v o) = some r := by
        rw [List.find?_filter, records, ← found]
        exact congrArg (fun p => s.track.records.find? p) (funext fun r => by simp [← test r])
      obtain ⟨bumped, ended⟩ := first r found'
      exact (bumped.of_same same).finish ended landing
    · obtain ⟨own, fifo⟩ := stands (fun r mem => by
        obtain ⟨mem, grew⟩ := List.mem_filter.mp mem
        have := test r
        rw [grew, quiet r (records ▸ mem)] at this
        exact this)
      exact ⟨finish_own own, by rw [finish_fifo, fifo, same.fifo]⟩

end Sys2Proof.Machine
end

section
/-! The obligations of LOAD and READY_RISE (R20, R78, R85, R86, R105, R106, R111). -/
namespace Sys2Proof.Machine

/-! ## The chain of positions (R105) -/

theorem occupied_iff (p : Position) : p.occupied = true ↔ p.state ≠ .empty := by
  simp [Position.occupied]

/-- The place of a position in the chain that begins after position `l`. -/
def placeAfter (l i : Fin 4) : Nat := (i - (l + 1)).val

/-- The first position in chain order that meets `p`, and the last, for every place that the chain may begin at. -/
theorem chain_find (l i : Fin 4) (p : Fin 4 → Bool) :
    ([l + 1, l + 2, l + 3, l].find? p = some i ↔ p i = true ∧ ∀ j, placeAfter l j < placeAfter l i → p j = false)
      ∧ ([l + 1, l + 2, l + 3, l].reverse.find? p = some i ↔
          p i = true ∧ ∀ j, placeAfter l i < placeAfter l j → p j = false) := by
  have finite : ∀ l i : Fin 4, ∀ a b c d : Bool,
      ([l + 1, l + 2, l + 3, l].find? (fun k => ![a, b, c, d] k) = some i ↔
          ![a, b, c, d] i = true ∧ ∀ j, placeAfter l j < placeAfter l i → ![a, b, c, d] j = false)
        ∧ ([l + 1, l + 2, l + 3, l].reverse.find? (fun k => ![a, b, c, d] k) = some i ↔
          ![a, b, c, d] i = true ∧ ∀ j, placeAfter l i < placeAfter l j → ![a, b, c, d] j = false) := by
    unfold placeAfter
    decide
  have table : p = fun k => ![p 0, p 1, p 2, p 3] k := by
    funext k
    fin_cases k <;> rfl
  have := finite l i (p 0) (p 1) (p 2) (p 3)
  rwa [← table, show ![p 0, p 1, p 2, p 3] = p from table.symm] at this

theorem head_iff (f : FeedSequencer) (i : Fin 4) : f.head = some i ↔ (f.positions.get i).state ≠ .empty
    ∧ ∀ j, placeAfter f.lastFilled j < placeAfter f.lastFilled i → (f.positions.get j).state = .empty := by
  have first := (chain_find f.lastFilled i (fun k => (f.positions.get k).occupied)).1
  unfold FeedSequencer.head FeedSequencer.fromOldest
  rw [first, occupied_iff]
  simp [Position.occupied]

theorem newest_iff (f : FeedSequencer) (i : Fin 4) : f.newest = some i ↔ (f.positions.get i).state ≠ .empty
    ∧ ∀ j, placeAfter f.lastFilled i < placeAfter f.lastFilled j → (f.positions.get j).state = .empty := by
  have last := (chain_find f.lastFilled i (fun k => (f.positions.get k).occupied)).2
  unfold FeedSequencer.newest FeedSequencer.fromOldest
  rw [last, occupied_iff]
  simp [Position.occupied]

/-! ## LOAD (R20, R106) -/

theorem enabled_iff (st : Store) (n : Nat) (a : Article) :
    st.enabled n = some a ↔ 1 ≤ n ∧ st.articles[n - 1]? = some a ∧ a.enabled = true := by
  unfold Store.enabled
  cases n with
  | zero => simp
  | succ m =>
    rw [if_neg (Nat.succ_ne_zero m)]
    cases entry : st.articles[m + 1 - 1]? with
    | none => simp
    | some x =>
      by_cases on : x.enabled = true
      · simp [on]
        rintro rfl
        exact on
      · simp [on]
        rintro rfl
        simpa using on

theorem loadable_iff (s : State) (n : Nat) : s.loadable n = true ↔
    ∃ a, 1 ≤ n ∧ s.store.articles[n - 1]? = some a ∧ a.enabled = true
      ∧ (a.fullWidth = true → s.run.lanes = s.run.lineLanes) := by
  have some : s.loadable n = true ↔ ∃ a, s.store.enabled n = some a ∧ (a.fullWidth = true → s.run.lanes = s.run.lineLanes) := by
    unfold State.loadable
    cases s.store.enabled n with
    | none => simp
    | some a => cases full : a.fullWidth <;> simp [full]
  rw [some]
  simp only [enabled_iff, and_assoc]

/-- A LOAD that is taken and has its data. -/
theorem load_row {s : State} {article lot rest : List Byte} {a b c : Byte} (data : article ++ lot = a :: b :: c :: rest)
    (free : s.port.held = false) (takes : s.takesLoad = true) :
    exec (.load article lot) s = .next (loadPiece a.toNat (256 * b.toNat + c.toNat) s) := by
  have enough : 3 ≤ (article ++ lot).length := by
    rw [data]
    simp
  have lotRead : (twoAt (a :: b :: c :: rest) 1).toNat = 256 * b.toNat + c.toNat := by
    show (b ++ c).toNat = _
    rw [BitVec.toNat_append, ← Nat.shiftLeft_add_eq_or_of_lt (BitVec.isLt _), Nat.shiftLeft_eq]
    omega
  refine congrArg Host.Outcome.next ((transact_taken free _).trans ((if_pos takes).trans ?_))
  rw [withData_enough enough, data, lotRead]
  rfl

theorem load_refused {s : State} (free : s.port.held = false) (other : s.takesLoad ≠ true) (article lot : List Byte) :
    exec (.load article lot) s = .next (refuse .wrongState s) :=
  congrArg Host.Outcome.next ((transact_taken free _).trans (if_neg other))

/-- Settles O17: the article check, the room in the chain, and the position filled. -/
theorem loadFillsNextPosition : Obligations.LoadFillsNextPosition := by
  refine ⟨?fills, ?refused, ?short, loadable_iff, ?empty, ?next, ?chain⟩
  case fills =>
    intro s article lot rest a b c i data free role station loadable room
    have takes := (takesLoad_iff s).mpr ⟨role, station⟩
    let u := fillPosition i a.toNat (256 * b.toNat + c.toNat) s
    have filled : loadPiece a.toNat (256 * b.toNat + c.toNat) s = answer s .ok [] (finish u) := by
      unfold loadPiece
      rw [if_pos loadable, room]
      rfl
    have frame : SameBut [.feed] s u := setFeed_frame _ _
    have here : u.feed.positions.get i =
        { state := .loaded, article := a.toNat, lot := 256 * b.toNat + c.toNat, unloading := false } := Quad.get_set_self _ _ _
    have there : ∀ j, j ≠ i → u.feed.positions.get j = s.feed.positions.get j := fun j other => Quad.get_set_of_ne _ other _
    have searched := finish_positions u
    refine ⟨answer s .ok [] (finish u), by rw [load_row data free takes, filled], rfl, ?_, ?_, ?_, ?_, ?_, fun j other => ?_,
      fun n => ?_, ?_⟩
    · exact finish_feed_lastFilled u
    · rcases searched i with same | ⟨-, bidding⟩
      · exact (congrArg Position.article same).trans (by rw [here])
      · exact (congrArg Position.article bidding).trans (by rw [here])
    · rcases searched i with same | ⟨-, bidding⟩
      · exact (congrArg Position.lot same).trans (by rw [here])
      · exact (congrArg Position.lot bidding).trans (by rw [here])
    · rcases searched i with same | ⟨-, bidding⟩
      · exact (congrArg Position.unloading same).trans (by rw [here])
      · exact (congrArg Position.unloading bidding).trans (by rw [here])
    · rcases searched i with same | ⟨-, bidding⟩
      · exact (congrArg Position.occupied same).trans (by rw [here]; rfl)
      · exact (congrArg Position.occupied bidding).trans rfl
    · rcases searched j with same | ⟨-, bidding⟩
      · show ((finish u).feed.positions.get j).article = _ ∧ ((finish u).feed.positions.get j).lot = _
        rw [same, there j other]
        exact ⟨rfl, rfl⟩
      · show ((finish u).feed.positions.get j).article = _ ∧ ((finish u).feed.positions.get j).lot = _
        rw [bidding, there j other]
        exact ⟨rfl, rfl⟩
    · show (finish u).feed.returned ≠ _
      rw [finish_feed_returned]
      intro marked
      have marked : s.feed.returned.filter (fun r => r.1 != i) = some (i, n) := marked
      simp [Option.filter_eq_some_iff] at marked
    · exact ((frame.widen (by decide)).trans ((finish_frame u).widen (by decide))).trans ((answer_frame _ _ _ _).widen (by decide))
  case refused =>
    intro s article lot rest a b c r data free why full
    by_cases takes : s.takesLoad = true
    · rw [if_pos ((takesLoad_iff s).mp takes)] at why
      rw [load_row data free takes]
      by_cases loadable : s.loadable a.toNat = true
      · rw [if_pos loadable] at why
        refine ⟨refuse .full s, ?_, why.symm, refuse_frame _ s⟩
        unfold loadPiece
        rw [if_pos loadable, full why]
      · rw [if_neg loadable] at why
        refine ⟨refuse .badArticle s, ?_, why.symm, refuse_frame _ s⟩
        unfold loadPiece
        rw [if_neg loadable]
    · rw [if_neg (mt (takesLoad_iff s).mpr takes)] at why
      exact ⟨refuse .wrongState s, load_refused free takes _ _, why.symm, refuse_frame _ s⟩
  case short =>
    intro s article lot free short
    by_cases takes : s.takesLoad = true
    · obtain ⟨cut, last, frame⟩ := cutShort_spec s
      refine ⟨cutShort s, ?_, frame, ?_⟩
      · refine congrArg Host.Outcome.next ((transact_taken free _).trans ((if_pos takes).trans ?_))
        exact withData_cut short _ s
      · rw [if_pos ((takesLoad_iff s).mp takes)]
        exact ⟨cut, last⟩
    · refine ⟨refuse .wrongState s, load_refused free takes _ _, refuse_frame _ s, ?_⟩
      rw [if_neg (mt (takesLoad_iff s).mpr takes)]
      exact ⟨rfl, rfl⟩
  case empty =>
    intro f none
    unfold FeedSequencer.room
    rw [none]
  case next =>
    intro f i newest
    unfold FeedSequencer.room
    rw [newest]
  case chain =>
    intro f place placed
    obtain rfl : place = placeAfter f.lastFilled := funext placed
    exact ⟨fun i => occupied_iff _, head_iff f, newest_iff f⟩

/-! ## A search that finds a window for the head (R78, R85) -/

/-- The head of the chain, LOADED at an eligible FEED station (R78). -/
theorem eligible_head_iff {s : State} {i : Fin 4} (role : s.role = .feed) : s.eligible = some (.head i) ↔
    s.station = .active ∧ s.bid.hold.any = false ∧ s.bid.own = none ∧ s.feed.head = some i
      ∧ (s.feed.positions.get i).state = .loaded ∧ s.feed.ready = true := by
  unfold State.eligible
  rw [role]
  dsimp only
  split
  · rename_i bids
    obtain ⟨active, free, none⟩ := bids
    simp only [active, free, none, true_and]
    split
    · rename_i j head
      by_cases ready : (s.feed.positions.get j).state = .loaded ∧ s.feed.ready = true
      · rw [if_pos ready]
        constructor
        · intro same
          cases same
          exact ⟨head, ready⟩
        · rintro ⟨same, -⟩
          rw [Option.some.inj (head.symm.trans same)]
      · rw [if_neg ready]
        refine ⟨nofun, fun both => ?_⟩
        rw [Option.some.inj (head.symm.trans both.1)] at ready
        exact absurd both.2 ready
    · rename_i head
      simp [head]
  · rename_i waits
    refine ⟨nofun, fun all => absurd ⟨all.1, all.2.1, all.2.2.1⟩ waits⟩

/-- A QUEUED bid is handed to the outbox, or waits for an entry there (R85, R155). -/
theorem queueBid_link (t : Target) (w : Count) (s : State) : (queueBid t w s).link =
    if sharedRoom s.link.outbox then { s.link with outbox := s.link.outbox ++ [.fresh (.bid (s.targetDesc t) w)] }
    else { s.link with waitingBid := some (.bid (s.targetDesc t) w) } := by
  have marked : (markBidding t (takeTag s)).link = s.link := markBidding_frame t _ .link (by decide)
  unfold queueBid enqueue
  dsimp only [Msg.kind]
  rw [State.setBid_link, marked]
  split
  · show ({ (markBidding t (takeTag s)).link with outbox := s.link.outbox ++ [.fresh (.bid (s.targetDesc t) w)] }
      : LinkController) = _
    rw [marked]
  · rfl

/-- The end of a step at which the search for the head finds a window: the BID is queued (R78, R85). -/
structure HeadQueued (s t : State) (i : Fin 4) (w : Count) : Prop where
  own : t.bid.own = some (s.newBid (.head i) w)
  retry : t.bid.retry = none
  counter : t.track.counter = s.nextTag.seq + 1
  position : (t.feed.positions.get i).state = .bidding
  link : t.link = if sharedRoom s.link.outbox then
      { s.link with outbox := s.link.outbox ++ [.fresh (.bid (s.targetDesc (.head i)) w)] }
    else { s.link with waitingBid := some (.bid (s.targetDesc (.head i)) w) }

theorem finish_head {s : State} {i : Fin 4} {w : Count} (role : s.role = .feed) (eligible : s.eligible = some (.head i))
    (retry : s.bid.retry = none) (found : s.findWindow (.head i) = some w) : HeadQueued s (finish s) i w := by
  let v := handRequest (planStreams s)
  have planned := planStreams_frame s
  have handed := handRequest_frame (planStreams s)
  have kept := (planStreams_keeps s).trans (handRequest_keeps _)
  have run : v.run = s.run := (handed .run (by decide)).trans (planned .run (by decide))
  have store : v.store = s.store := (handed .store (by decide)).trans (planned .store (by decide))
  have line : v.line = s.line := (handed .line (by decide)).trans (planned .line (by decide))
  have track : v.track = s.track := (handed .track (by decide)).trans (planned .track (by decide))
  have feed : v.feed = s.feed := (handed .feed (by decide)).trans (planned .feed (by decide))
  have link : v.link = s.link := (handed .link (by decide)).trans (planned .link (by decide))
  have wait : v.bid.retry = none := by
    have same : (handRequest (planStreams s)).bid.retry = (planStreams s).bid.retry := by
      unfold handRequest
      split <;> rfl
    exact same.trans ((congrArg BidEngine.retry (planned .bid (by decide))).trans retry)
  have tag : v.nextTag = s.nextTag := by
    unfold State.nextTag State.ownerByte State.number
    rw [run, track]
  have rank : v.feedRank = s.feedRank := by
    unfold State.feedRank
    rw [run, kept.passedOver, kept.deferral]
  have desc : v.targetDesc (.head i) = s.targetDesc (.head i) := by
    unfold State.targetDesc
    dsimp only
    rw [feed, tag, rank]
    unfold State.pieceDesc State.ownArticle
    rw [store, run]
  have window : v.findWindow (.head i) = some w := by
    rw [← found]
    show windowSearch v.run v.line.highWater (v.targetDesc (.head i)) v.track.records v.feedTl0 = _
    unfold State.feedTl0
    rw [desc, run, line, track]
    rfl
  have queued : finish s = clearMarks (queueBid (.head i) w v) := by
    show clearMarks (reconsider v) = _
    unfold reconsider search
    rw [(eligible_handRequest_feed role).trans eligible]
    dsimp only
    rw [if_pos (by rw [wait]; rfl), window]
  rw [queued]
  refine ⟨?_, ?_, ?_, ?_, ?_⟩
  · show (queueBid (.head i) w v).bid.own = _
    rw [queueBid_own]
    unfold State.newBid
    rw [desc, run]
  · show (queueBid (.head i) w v).bid.retry = none
    rw [queueBid_bid]
  · show (queueBid (.head i) w v).track.counter = _
    unfold queueBid
    rw [enqueue_bid_frame _ _ _ .track (by decide)]
    show v.nextTag.seq + 1 = _
    rw [tag]
  · show ((queueBid (.head i) w v).feed.positions.get i).state = _
    unfold queueBid
    rw [enqueue_bid_frame _ _ _ .feed (by decide)]
    exact congrArg Position.state (Quad.get_set_self _ _ _)
  · show (queueBid (.head i) w v).link = _
    rw [queueBid_link, link, desc]

/-! ## READY_RISE (R78, R111) -/

theorem feedRank_eq (s : State) : s.feedRank = (if s.run.line.limit ≤ s.bid.passedOver then .overdue
    else if s.bid.deferral = 0 then .normal else .deferred) := by
  unfold State.feedRank
  by_cases none : s.bid.deferral = 0 <;> simp [none]

/-- The description of a piece whose article is enabled (R22, R23). -/
theorem pieceDesc_eq (s : State) (p : Position) (tag : Tag) (rank : Rank) (a : Article) (named : 1 ≤ p.article)
    (entry : s.store.articles[p.article - 1]? = some a) (on : a.enabled = true) : s.pieceDesc p tag rank =
      { tag := tag, kind := .piece, lanes := if a.fullWidth = true then lanesUpTo s.run.line.lanes else s.run.lanes
        article := p.article, lot := p.lot, length := (mmToCounts s.run.line.cpm a.length).toNat
        lead := (mmToCounts s.run.line.cpm a.feedGap).toNat, trail := (mmToCounts s.run.line.cpm a.foldGap).toNat
        reject := .none, rank := rank } := by
  have article : s.ownArticle p.article = a := by
    unfold State.ownArticle
    rw [(enabled_iff s.store p.article a).mpr ⟨named, entry, on⟩]
    rfl
  unfold State.pieceDesc
  rw [article]
  rfl

/-- Settles O19: the level, and the search that the level completes. -/
theorem readyRiseQueuesBid : Obligations.ReadyRiseQueuesBid := by
  refine ⟨fun s => ?_, ?_, feedRank_eq, pieceDesc_eq⟩
  · let u := s.setFeed { s.feed with ready := true }
    exact ⟨finish u, rfl, finish_feed_ready u, finish_feed_grip u, finish_feed_drop u, finish_feed_fire u,
      finish_feed_lastFilled u, finish_track_records u, finish_bid_hold u, finish_bid_passedOver u,
      ((setFeed_frame s _).widen (by decide)).trans (finish_frame u)⟩
  · intro s i w active role held none retry quiet head loaded found
    let u := s.setFeed { s.feed with ready := true }
    have eligible : u.eligible = some (.head i) :=
      (eligible_head_iff (s := u) role).mpr ⟨active, by rw [show u.bid.hold = _ from held]; rfl, none, head, loaded, rfl⟩
    obtain ⟨own, -, counter, position, link⟩ := finish_head (s := u) (w := w) role eligible retry found
    refine ⟨finish u, u.newBid (.head i) w, rfl, own, rfl, rfl, rfl, rfl, rfl, rfl, counter, position, fun room => ?_,
      fun full => ?_⟩
    · rw [link, if_pos (show sharedRoom u.link.outbox = true from room)]
      rfl
    · rw [link, if_neg (show ¬ sharedRoom u.link.outbox = true from by simp [u, full])]
      rfl

end Sys2Proof.Machine
end

section
/-! The obligation of every frame of another station, and what the hearing of one does before its message (R150, R158,
R165 to R168). -/
namespace Sys2Proof.Machine

/-! ## The peer table at an accepted frame (R165, R167, R168) -/

/-- The entry that an accepted frame of station `n` leaves. -/
def State.heardPeer (s : State) (n : Nat) (hail : Option Hailed) : Peer :=
  let p := ((s.peer n).getD { number := n, state := .present, hailed := none, differs := false, ttlEnds := 0 }).heard
    s.run s.now hail
  { p with state := p.heardState hail }

theorem heardPeer_number (s : State) (n : Nat) (hail : Option Hailed) : (s.heardPeer n hail).number = n := by
  have kept : ∀ p : Peer, (p.heard s.run s.now hail).number = p.number := fun p => by cases hail <;> rfl
  show (Peer.heard s.run s.now hail _).number = n
  rw [kept]
  cases entry : s.peer n with
  | none => rfl
  | some p => exact peer_number entry

theorem heardPeer_ttl (s : State) (n : Nat) (hail : Option Hailed) : (s.heardPeer n hail).ttlEnds = s.now + 1000000 := by
  cases hail <;> rfl

theorem heardPeer_awake (s : State) (n : Nat) (hail : Option Hailed) : (s.heardPeer n hail).state ≠ .silent := by
  show Peer.heardState hail _ ≠ .silent
  unfold Peer.heardState
  split
  · split <;> nofun
  · rename_i awake
    exact fun silent => awake (.inr silent)

theorem heardPeer_hail (s : State) (n : Nat) (f : Hailed) : (s.heardPeer n (some f)).hailed = some f
    ∧ (s.heardPeer n (some f)).differs = (firstDifference s.run f).isSome
    ∧ (s.heardPeer n (some f)).state = (if (firstDifference s.run f).isSome then .mismatch else .present) := by
  refine ⟨rfl, rfl, ?_⟩
  show Peer.heardState (some f) _ = _
  exact if_pos (.inl rfl)

/-- A new entry stands under its number, and every other entry as it was. -/
theorem appendPeer_peer {s : State} {p : Peer} (fresh : s.peer p.number = none) (m : Nat) :
    (s.setPeers { s.peers with entries := s.peers.entries ++ [p] }).peer m = if m = p.number then some p else s.peer m := by
  unfold State.peer at fresh ⊢
  rw [State.setPeers_peers, List.find?_append]
  split
  · rename_i same
    rw [same, fresh]
    simp
  · rename_i other
    cases s.peers.entries.find? (fun q => q.number == m) with
    | some q => rfl
    | none => simp [show ¬ p.number = m from fun same => other same.symm]

theorem raiseMismatch_fifo (n : Nat) {s : State} {f : Hailed} {code value : Nat}
    (differs : firstDifference s.run f = some (code, value)) : raiseMismatch n (some f) s =
      raise { kind := .peerMismatch, a := some n, b := some value, code := some code } s := by
  unfold raiseMismatch
  simp only [Option.bind_some, differs]

theorem raiseMismatch_frame (n : Nat) (hail : Option Hailed) (s : State) : SameBut [.fifo] s (raiseMismatch n hail s) := by
  unfold raiseMismatch
  split
  · exact raise_frame _ s
  · exact raise_frame _ s

theorem peerEvents_frame (old new : Peer) (s : State) : SameBut [.fifo] s (peerEvents old new s) := by
  have joined := SameBut.ite (p := old.state = .silent) (raise_frame (joinedEvent new.number new.hailed 2) s)
    (SameBut.ite (p := old.state = .mismatch ∧ new.state = .present)
      (raise_frame (joinedEvent new.number new.hailed 3) s) (.refl _ s))
  exact .ite (joined.trans (raiseMismatch_frame _ _ _)) joined

/-- The events of a HAIL from a station with an entry (R167, R168). -/
theorem peerEvents_hail {s : State} {p q : Peer} {n : Nat} {f : Hailed} (entry : s.peer n = some p) (number : q.number = n)
    (hailed : q.hailed = some f) (state : q.state = if (firstDifference s.run f).isSome then .mismatch else .present)
    {t : State} (fifo : t.fifo = s.fifo) (run : t.run = s.run) (store : t.store = s.store) :
    (peerEvents p q t).fifo = s.withEvents (s.hailEvents n f) := by
  have told : ∀ (e : Event), (raise e t).fifo = s.withEvents [e] := fun e => withEvent_congr fifo store e
  have mism : ∀ {x : State} {l : List Event} {code value : Nat}, x.fifo = s.withEvents l → x.store = s.store →
      x.run = s.run → firstDifference s.run f = some (code, value) → (raiseMismatch n (some f) x).fifo = s.withEvents
        (l ++ [{ kind := .peerMismatch, a := some n, b := some value, code := some code }]) :=
    fun fifo store run differs => by
      rw [raiseMismatch_fifo n (by rw [run]; exact differs)]
      exact raise_withEvents fifo store _
  obtain ⟨oldNumber, oldState, oldHailed, oldDiffers, oldTtl⟩ := p
  unfold peerEvents State.hailEvents
  rw [number, hailed, entry]
  dsimp only [Option.map_some, Option.any_some]
  cases difference : firstDifference s.run f with
  | none =>
    rw [difference] at state
    have state : q.state = .present := state
    rw [state, if_neg (by simp)]
    cases oldState with
    | present => exact fifo
    | silent => exact told _
    | mismatch => exact told _
  | some pair =>
    obtain ⟨code, value⟩ := pair
    rw [difference] at state
    have state : q.state = .mismatch := state
    rw [state]
    cases oldState with
    | present => exact mism (l := []) fifo store run difference
    | silent => exact mism (l := [_]) (told _) store run difference
    | mismatch => exact fifo

/-- The peer table takes an accepted frame: the entry of its sender, the events of the table, and then the MISMATCH cause. -/
theorem peerHeard_eq (n : Nat) (hail : Option Hailed) (s : State) : ∃ w, peerHeard n hail s = followMismatch w
    ∧ SameBut [.peers, .fifo] s w ∧ w.peer n = some (s.heardPeer n hail) ∧ (∀ m, m ≠ n → w.peer m = s.peer m)
    ∧ (∀ f, hail = some f → w.fifo = s.withEvents (s.hailEvents n f)) := by
  have number := heardPeer_number s n hail
  cases entry : s.peer n with
  | some p =>
    have heard : s.heardPeer n hail = { p.heard s.run s.now hail with state := (p.heard s.run s.now hail).heardState hail } := by
      unfold State.heardPeer
      rw [entry]
      rfl
    let q := s.heardPeer n hail
    let w := peerEvents p q (putPeer q s)
    have events := peerEvents_frame p q (putPeer q s)
    have table : ∀ m, w.peer m = if m = n then some q else s.peer m := fun m => by
      have same : w.peer m = (putPeer q s).peer m := by
        unfold State.peer
        rw [events .peers (by decide)]
      rw [same, putPeer_peer, show q.number = n from number]
      split
      · rename_i here
        rw [here, entry]
        rfl
      · rfl
    refine ⟨w, ?_, (putPeer_frame q s).then events (by decide) (by decide), ?_, fun m other => ?_, fun f some => ?_⟩
    · unfold peerHeard
      rw [entry]
      dsimp only
      rw [← heard]
    · rw [table, if_pos rfl]
    · rw [table, if_neg other]
    · subst some
      obtain ⟨hailed, -, state⟩ := heardPeer_hail s n f
      exact peerEvents_hail entry number hailed state rfl rfl rfl
  | none =>
    have heard : s.heardPeer n hail = (fun p1 : Peer => { p1 with state := p1.heardState hail })
        (Peer.heard s.run s.now hail { number := n, state := .present, hailed := none, differs := false, ttlEnds := 0 }) := by
      unfold State.heardPeer
      rw [entry]
      rfl
    let q := s.heardPeer n hail
    let t := raise (joinedEvent n q.hailed 1) (s.setPeers { s.peers with entries := s.peers.entries ++ [q] })
    let w := if q.state = .mismatch then raiseMismatch n q.hailed t else t
    have joined : SameBut [.peers, .fifo] s t := (setPeers_frame s _).then (raise_frame _ _) (by decide) (by decide)
    have events : SameBut [.fifo] t w := .ite (raiseMismatch_frame _ _ t) (.refl _ t)
    have table : ∀ m, w.peer m = if m = n then some q else s.peer m := fun m => by
      have same : w.peer m = t.peer m := by
        unfold State.peer
        rw [events .peers (by decide)]
      rw [same]
      have fresh : s.peer q.number = none := by rw [number, entry]
      rw [show t.peer m = _ from appendPeer_peer fresh m, show q.number = n from number]
    refine ⟨w, ?_, joined.trans (events.widen (by decide)), ?_, fun m other => ?_, fun f some => ?_⟩
    · unfold peerHeard
      rw [entry]
      exact congrArg (fun q : Peer =>
        let t := raise (joinedEvent n q.hailed 1) (s.setPeers { s.peers with entries := s.peers.entries ++ [q] })
        followMismatch (if q.state = .mismatch then raiseMismatch n q.hailed t else t)) heard.symm
    · rw [table, if_pos rfl]
    · rw [table, if_neg other]
    · subst some
      obtain ⟨hailed, -, state⟩ := heardPeer_hail s n f
      have first : t.fifo = s.withEvents [joinedEvent n (Option.some f) 1] := by
        show (raise (joinedEvent n (s.heardPeer n (Option.some f)).hailed 1) _).fifo = _
        rw [hailed]
        rfl
      unfold State.hailEvents
      rw [entry]
      show (if (s.heardPeer n (Option.some f)).state = .mismatch then
        raiseMismatch n (s.heardPeer n (Option.some f)).hailed t else t).fifo = _
      rw [state, hailed]
      cases difference : firstDifference s.run f with
      | none => exact first
      | some pair =>
        obtain ⟨code, value⟩ := pair
        exact (congrArg State.fifo (raiseMismatch_fifo (s := t) n difference)).trans (raise_withEvents first rfl _)

/-! ## The hearing of a frame (R150, R151, R158) -/

/-- A frame of another station before its message acts: the peer table and the link controller have taken it. -/
def hearing (n : Nat) (hail : Option Hailed) (s : State) : State :=
  lineHeard n (recordSender n (restartGrid (peerHeard n hail s)))

theorem acceptPeer_eq (n : Nat) (hail : Option Hailed) (effect : State → State) (s : State) :
    acceptPeer n hail effect s = finish (effect (hearing n hail s)) := rfl

theorem lineHeard_spec (n : Nat) (s : State) : (lineHeard n s).link = { s.link with health := some (s.now + 1000000) }
    ∧ (lineHeard n s).bid = { s.bid with hold := { s.bid.hold with lineDown := false } }
    ∧ (lineHeard n s).fifo = s.withEvents (s.lineUpEvents n) ∧ SameBut [.bid, .link, .fifo] s (lineHeard n s) := by
  let t := s.setLink { s.link with health := some (s.now + 1000000) }
  have reloaded : SameBut [.bid, .link, .fifo] s t := (setLink_frame s _).widen (by decide)
  unfold State.lineUpEvents
  cases down : s.bid.hold.lineDown with
  | true =>
    have up : lineHeard n s = raise { kind := .lineUp, a := some n } (holdLeave .lineDown t) := if_pos down
    rw [up]
    exact ⟨rfl, rfl, rfl, reloaded.trans (((setBid_frame _ _).widen (by decide)).trans ((raise_frame _ _).widen (by decide)))⟩
  | false =>
    have stays : lineHeard n s = t := if_neg (by simp [down])
    rw [stays]
    refine ⟨rfl, ?_, rfl, reloaded⟩
    show s.bid = _
    rw [← down]

theorem followMismatch_gone (s : State) : OwnGone s (followMismatch s) := by
  have matched : OwnGone s s.matched := .of_eye (.of_same rfl rfl) rfl
  rw [followMismatch_eq]
  exact .ite (matched.trans (recallOwn_gone _ _ _)) matched

/-- What the hearing of a frame of station `n` leaves. -/
structure HeardFrom (n : Nat) (s u : State) (entry : Peer) : Prop where
  link : u.link = { s.link with outbox := u.link.outbox, waitingBid := u.link.waitingBid, quiet := some (s.now + 20)
                                listenFrom := s.now, lastSender := some n, health := some (s.now + 1000000) }
  hold : u.bid.hold = { s.bid.hold with
    trackFull := u.bid.hold.trackFull, lineDown := false, mismatch := u.peers.anyMismatch }
  counts : u.bid.jamming = s.bid.jamming ∧ u.bid.deferral = s.bid.deferral ∧ u.bid.passedOver = s.bid.passedOver
  peer : u.peer n = some entry
  others : ∀ m, m ≠ n → u.peer m = s.peer m
  gone : OwnGone s u
  frame : SameBut (.peers :: listBlocks) s u

theorem hearing_heard (n : Nat) (hail : Option Hailed) (s : State) :
    HeardFrom n s (hearing n hail s) (s.heardPeer n hail) := by
  obtain ⟨w, table, told, entry, others, -⟩ := peerHeard_eq n hail s
  let v := followMismatch w
  let x := recordSender n (restartGrid v)
  have steady := followMismatch_steady w
  have followed := followMismatch_frame w
  have recorded : SameBut [.link] v x := (setLink_frame _ _).trans (setLink_frame _ _)
  have u : hearing n hail s = lineHeard n x := by
    unfold hearing
    rw [table]
  obtain ⟨link, bid, -, heard⟩ := lineHeard_spec n x
  have peers : (hearing n hail s).peers = w.peers := by
    rw [u, heard .peers (by decide), recorded .peers (by decide), followed .peers (by decide)]
  have now : v.now = s.now := (followed .now (by decide)).trans (told .now (by decide))
  have causes : w.matched.bid.hold = { s.bid.hold with mismatch := w.peers.anyMismatch } := by
    show ({ w.bid.hold with mismatch := w.peers.anyMismatch } : HoldSet) = _
    rw [show w.bid = s.bid from told .bid (by decide)]
  have hold : v.bid.hold = { s.bid.hold with trackFull := v.bid.hold.trackFull, mismatch := w.peers.anyMismatch } :=
    steady.hold.trans (by rw [causes])
  have under : v.link = { s.link with outbox := v.link.outbox, waitingBid := v.link.waitingBid } :=
    steady.link.trans (by rw [show w.matched.link = s.link from told .link (by decide)])
  have kept : v.bid.jamming = s.bid.jamming ∧ v.bid.deferral = s.bid.deferral ∧ v.bid.passedOver = s.bid.passedOver := by
    rw [steady.jamming, steady.deferral, steady.passedOver]
    show w.bid.jamming = _ ∧ w.bid.deferral = _ ∧ w.bid.passedOver = _
    rw [show w.bid = s.bid from told .bid (by decide)]
    exact ⟨rfl, rfl, rfl⟩
  refine ⟨?_, ?_, ?_, ?_, fun m other => ?_, ?_, ?_⟩
  · rw [u, link]
    show ({ v.link with
      quiet := some (v.now + 20), listenFrom := v.now, lastSender := some n, health := some (v.now + 1000000) }
        : LinkController) = { s.link with
      outbox := v.link.outbox, waitingBid := v.link.waitingBid, quiet := some (s.now + 20), listenFrom := s.now
      lastSender := some n, health := some (s.now + 1000000) }
    rw [under, now]
  · rw [peers, u, bid]
    show ({ v.bid.hold with lineDown := false } : HoldSet) = { s.bid.hold with
      trackFull := v.bid.hold.trackFull, lineDown := false, mismatch := w.peers.anyMismatch }
    rw [hold]
  · rw [u, bid]
    exact kept
  · unfold State.peer
    rw [peers]
    exact entry
  · unfold State.peer
    rw [peers]
    exact others m other
  · rw [u]
    have line : OwnGone x (lineHeard n x) :=
      .of_eye (.of_same (heard .track (by decide)) (by rw [bid])) (heard .eye (by decide))
    have sender : OwnGone v x := .of_eye (.of_frame recorded (by decide) (by decide)) (recorded .eye (by decide))
    have entered : OwnGone s w := .of_eye (.of_frame told (by decide) (by decide)) (told .eye (by decide))
    exact ((entered.trans (followMismatch_gone w)).trans sender).trans line
  · rw [u]
    exact (((told.widen (by decide)).trans (followed.widen (by decide))).trans (recorded.widen (by decide))).trans
      (heard.widen (by decide))

/-! ## What the message of a frame leaves of the hearing -/

/-- What no message of another station touches: the figures of the link, and the causes that the hearing itself sets. -/
structure HeardKept (s t : State) : Prop where
  link : t.link = { s.link with outbox := t.link.outbox, waitingBid := t.link.waitingBid }
  lineDown : t.bid.hold.lineDown = s.bid.hold.lineDown
  mismatch : t.bid.hold.mismatch = s.bid.hold.mismatch
  frame : SameBut messageBlocks s t

theorem HeardKept.refl (s : State) : HeardKept s s := ⟨rfl, rfl, rfl, .refl _ s⟩

theorem HeardKept.trans {s t u : State} (h : HeardKept s t) (k : HeardKept t u) : HeardKept s u where
  link := by rw [k.link, h.link]
  lineDown := k.lineDown.trans h.lineDown
  mismatch := k.mismatch.trans h.mismatch
  frame := h.frame.trans k.frame

theorem HeardKept.ite {s t u : State} {p : Prop} [Decidable p] (h : HeardKept s t) (k : HeardKept s u) :
    HeardKept s (if p then t else u) := by
  split
  · exact h
  · exact k

theorem HeardKept.of_steady {s t : State} (h : Steady s t) (frame : SameBut messageBlocks s t) : HeardKept s t := by
  refine ⟨h.link, ?_, ?_, frame⟩
  · rw [h.hold]
  · rw [h.hold]

/-- A change that reaches neither the bid engine nor the link controller. -/
theorem HeardKept.of_frame {l : List Block} {s t : State} (h : SameBut l s t) (bid : Block.bid ∉ l) (link : Block.link ∉ l)
    (sub : ∀ b ∈ l, b ∈ messageBlocks) : HeardKept s t := by
  have same : t.link = s.link := h .link link
  refine ⟨?_, ?_, ?_, h.widen sub⟩
  · rw [same]
  · rw [h .bid bid]
  · rw [h .bid bid]

theorem setBid_heardKept (s : State) (b : BidEngine) (lineDown : b.hold.lineDown = s.bid.hold.lineDown)
    (mismatch : b.hold.mismatch = s.bid.hold.mismatch) : HeardKept s (s.setBid b) :=
  ⟨rfl, lineDown, mismatch, (setBid_frame s b).widen (by decide)⟩

theorem finish_heardKept (s : State) : HeardKept s (finish s) :=
  .of_steady (finish_steady s) ((finish_frame s).widen (by decide))

theorem judgePeerBid_frame (y : Rival) (s : State) : SameBut listBlocks s (judgePeerBid y s) := by
  unfold judgePeerBid
  split
  · split
    · split
      · exact beaten_frame _ _ _ s
      · exact .refl _ s
    · exact .refl _ s
  · exact .refl _ s

/-- A steady run of operations behind a change that leaves the hearing. -/
theorem HeardKept.steady {s u t : State} (h : HeardKept s u) (k : Steady u t) (frame : SameBut messageBlocks s t) :
    HeardKept s t := by
  refine ⟨by rw [k.link, h.link], ?_, ?_, frame⟩
  · rw [k.hold, ← h.lineDown]
  · rw [k.hold, ← h.mismatch]

theorem beaten_heardKept (o : OwnBid) (owner code : Nat) (s : State) : HeardKept s (beaten o owner code s) := by
  have frame : SameBut messageBlocks s (beaten o owner code s) := (beaten_frame o owner code s).widen (by decide)
  unfold beaten at frame ⊢
  dsimp only at frame ⊢
  generalize (if s.run.line.limit ≤ s.bid.passedOver then s.bid.passedOver else s.bid.passedOver + 1) = n at frame ⊢
  let u := s.setBid { s.bid with passedOver := n }
  have counted : HeardKept s u := setBid_heardKept s _ rfl rfl
  exact counted.steady ((((enqueue_steady (.recall o.desc.tag) u).trans (dropOwnRecord_steady _ _)).trans
    (endOwn_steady _)).trans (raise_steady _ _)) frame

theorem judgePeerBid_heardKept (y : Rival) (s : State) : HeardKept s (judgePeerBid y s) := by
  unfold judgePeerBid
  split
  · split
    · split
      · exact beaten_heardKept _ _ _ s
      · exact .refl s
    · exact .refl s
  · exact .refl s

theorem enterRival_heardKept (y : Rival) (s : State) : HeardKept s (enterRival y s) := by
  unfold enterRival
  split
  · exact .ite (setBid_heardKept s _ rfl rfl) (.refl s)
  · exact .refl s

theorem bidEffect_heardKept (d : Desc) (tl : Count) (n : Nat) (s : State) : HeardKept s (bidEffect d tl n s) :=
  ((HeardKept.of_steady (fileRecord_steady _ 1 s) ((fileRecord_frame _ 1 s).widen (by decide))).trans
    (enterRival_heardKept _ _)).trans (judgePeerBid_heardKept _ _)

theorem takeFree_heardKept (used : Bool) (s : State) : HeardKept s (takeFree used s) :=
  .of_frame (takeFree_frame used s) (by decide) (by decide) (by decide)

theorem fileSeen_heardKept (d : Desc) (tl : Count) (m n : Nat) (s : State) : HeardKept s (fileSeen d tl m n s) := by
  unfold fileSeen
  split
  · exact .ite (.refl s) ((takeFree_heardKept _ s).trans
      (.of_steady (changeRecord_steady _ _ _) ((changeRecord_frame _ _ _).widen (by decide))))
  · exact .ite (.refl s) ((takeFree_heardKept _ s).trans
      (.of_steady (fileRecord_steady _ 2 _) ((fileRecord_frame _ 2 _).widen (by decide))))

theorem confirm_frame (d : Desc) (m : Nat) (s : State) : SameBut [.bid, .feed, .fifo] s (confirm d m s) :=
  .ite ((endOwn_frame s).trans ((raise_frame _ _).widen (by decide))) (.refl _ s)

theorem leaveDeferral_heardKept (n : Nat) (s : State) : HeardKept s (leaveDeferral n s) := setBid_heardKept s _ rfl rfl

theorem seenEffect_heardKept (d : Desc) (tl : Count) (m n : Nat) (s : State) : HeardKept s (seenEffect d tl m n s) :=
  (fileSeen_heardKept d tl m n s).trans (.ite (.of_steady (confirm_steady _ _ _) ((confirm_frame _ _ _).widen (by decide)))
    (.ite (leaveDeferral_heardKept _ _) (.refl _)))

theorem missedEffect_heardKept (tag : Tag) (n : Nat) (s : State) : HeardKept s (missedEffect tag n s) :=
  .of_steady (missedEffect_steady tag n s) ((missedEffect_frame tag n s).widen (by decide))

theorem strayEffect_heardKept (d : Desc) (tl : Count) (n : Nat) (s : State) : HeardKept s (strayEffect d tl n s) :=
  .of_steady (strayEffect_steady d tl n s) ((strayEffect_frame d tl n s).widen (by decide))

theorem withdrawEffect_heardKept (tag : Tag) (n : Nat) (s : State) : HeardKept s (withdrawEffect tag n s) :=
  .of_steady (withdrawEffect_steady tag n s) ((withdrawEffect_frame tag n s).widen (by decide))

theorem recallOwn_heardKept (code : Nat) (a : Option Int) (s : State) : HeardKept s (recallOwn code a s) :=
  .of_steady (recallOwn_steady code a s) ((recallOwn_frame code a s).widen (by decide))

theorem jamEffect_heardKept (n : Nat) (s : State) : HeardKept s (jamEffect n s) := by
  refine .ite (.refl s) ?_
  let u := raise { kind := .jamHeld, a := some n } (s.setBid { s.bid with jamming := s.bid.jamming ||| stationBit n })
  have told : HeardKept s u := (setBid_heardKept s { s.bid with jamming := s.bid.jamming ||| stationBit n } rfl rfl).trans
    (.of_frame (raise_frame _ _) (by decide) (by decide) (by decide))
  have joins : HeardKept u (putHold .jam true u) := setBid_heardKept u _ rfl rfl
  exact told.trans (.ite (.refl u) (joins.trans (recallOwn_heardKept _ _ _)))

theorem jamReleaseEffect_heardKept (n : Nat) (s : State) : HeardKept s (jamReleaseEffect n s) := by
  refine .ite ?_ (.refl s)
  have left := (setBid_heardKept s { s.bid with jamming := s.bid.jamming &&& ~~~(stationBit n) } rfl rfl).trans
    (.of_frame (raise_frame { kind := .jamReleased, a := some n } _) (by decide) (by decide) (by decide))
  exact left.trans (.ite (setBid_heardKept _ _ rfl rfl) (.refl _))

theorem purgeOwn_hold (s : State) : (purgeOwn s).bid.hold = s.bid.hold ∧ (purgeOwn s).link = s.link := by
  refine ⟨?_, purgeOwn_frame s .link (by decide)⟩
  unfold purgeOwn
  split
  · rfl
  · rename_i o own
    split
    · rfl
    · rw [endOwn_bid s o own]

theorem purgeAll_heardKept (n : Nat) (s : State) : HeardKept s (purgeAll n s) := by
  obtain ⟨hold, link⟩ := purgeOwn_hold (raise (purgedEvent n) s)
  refine ⟨?_, ?_, ?_, purgeAll_frame n s⟩
  · unfold purgeAll
    rw [rebase_frame _ .link (by decide)]
    show ({ (purgeOwn (raise (purgedEvent n) s)).link with
      outbox := purgeOutbox (purgeOwn (raise (purgedEvent n) s)).link.outbox, waitingBid := none } : LinkController) = _
    rw [link]
    rfl
  · unfold purgeAll
    rw [rebase_frame _ .bid (by decide)]
    show (purgeOwn (raise (purgedEvent n) s)).bid.hold.lineDown = _
    rw [hold]
    rfl
  · unfold purgeAll
    rw [rebase_frame _ .bid (by decide)]
    show (purgeOwn (raise (purgedEvent n) s)).bid.hold.mismatch = _
    rw [hold]
    rfl

/-! ## The ten rows of a peer's frame -/

/-- A station that does not take a frame of another one does nothing (R149, log 2). -/
theorem accept_untaken {s : State} {h : Heard} {k : MsgKind} (running : s.running) (other : h.sender.toNat ≠ s.number)
    (untaken : ¬ s.takes k h.time) (payload : List Byte) (tag : Option Tag) (hail : Option Hailed) (effect : State → State) :
    accept h k payload tag hail effect s = s := by
  unfold accept
  split
  · rfl
  · dsimp only
    rw [if_neg (mt (tookFrame_iff s k h.time running).mp untaken)]

/-- Every row of a peer's frame accepts a payload of its kind, with an effect that leaves the hearing as it is (R150). -/
theorem peerFrame_row {s : State} {h : Heard} {c : Instr} {k : MsgKind}
    (row : (∃ p, c = .bid h p ∧ p.length = 16 ∧ k = .bid)
      ∨ (∃ p n, c = .sightingSeen h p n ∧ (p ++ n).length = 18 ∧ k = .sightingSeen)
      ∨ (∃ p, c = .sightingMissed h p ∧ p.length = 16 ∧ k = .sightingMissed)
      ∨ (∃ p, c = .sightingStray h p ∧ p.length = 16 ∧ k = .sightingStray)
      ∨ (∃ p, c = .recall h p ∧ p.length = 2 ∧ k = .recall) ∨ (∃ p, c = .void h p ∧ p.length = 2 ∧ k = .void)
      ∨ (c = .jam h ∧ k = .jam) ∨ (c = .jamReleaseAccepted h ∧ k = .jamRelease) ∨ (c = .purge h ∧ k = .purge)
      ∨ (∃ p, c = .hail h p ∧ p.length = 13 ∧ k = .hail)) :
    ∃ payload tag hail effect, exec c s = .next (accept h k payload tag hail effect s)
      ∧ payload.length = payloadLength k ∧ ∀ t, HeardKept t (effect t) := by
  rcases row with ⟨p, rfl, length, rfl⟩ | ⟨p, n, rfl, length, rfl⟩ | ⟨p, rfl, length, rfl⟩ | ⟨p, rfl, length, rfl⟩
    | ⟨p, rfl, length, rfl⟩ | ⟨p, rfl, length, rfl⟩ | ⟨rfl, rfl⟩ | ⟨rfl, rfl⟩ | ⟨rfl, rfl⟩ | ⟨p, rfl, length, rfl⟩
  · refine ⟨_, _, _, _, rfl, length, fun t => ?_⟩
    split
    · exact bidEffect_heardKept _ _ _ t
    · exact .refl t
  · refine ⟨_, _, _, _, rfl, length, fun t => ?_⟩
    split
    · exact seenEffect_heardKept _ _ _ _ t
    · exact .refl t
  · refine ⟨_, _, _, _, rfl, length, fun t => ?_⟩
    split
    · exact missedEffect_heardKept _ _ t
    · exact .refl t
  · refine ⟨_, _, _, _, rfl, length, fun t => ?_⟩
    split
    · exact strayEffect_heardKept _ _ _ t
    · exact .refl t
  · exact ⟨_, _, _, _, rfl, length, withdrawEffect_heardKept _ _⟩
  · exact ⟨_, _, _, _, rfl, length, withdrawEffect_heardKept _ _⟩
  · exact ⟨_, _, _, _, rfl, rfl, jamEffect_heardKept _⟩
  · exact ⟨_, _, _, _, rfl, rfl, jamReleaseEffect_heardKept _⟩
  · exact ⟨_, _, _, _, rfl, rfl, purgeAll_heardKept _⟩
  · exact ⟨_, _, _, _, rfl, length, HeardKept.refl⟩

/-- Settles O32: the hearing of a frame, and an effect that leaves it. -/
theorem peerFrameHeard : Obligations.PeerFrameHeard := by
  intro s h c k running sender other row
  obtain ⟨payload, tag, hail, effect, exec, length, kept⟩ := peerFrame_row row
  refine ⟨fun untaken => ?_, fun taken => ?_⟩
  · rw [exec, accept_untaken running other untaken]
  · let n := h.sender.toNat
    let v := advanceTo h.time s
    let u := hearing n hail v
    let t := finish (effect u)
    have heard := hearing_heard n hail v
    have after : HeardKept u t := (kept u).trans (finish_heardKept _)
    have moved := advanceTo_frame h.time s
    have time : v.now = max s.now h.time := advanceTo_now h.time s
    have now : t.now = v.now := (after.frame .now (by decide)).trans (heard.frame .now (by decide))
    have line : t.line = v.line := (after.frame .line (by decide)).trans (heard.frame .line (by decide))
    have peers : t.peers = u.peers := after.frame .peers (by decide)
    have table : ∀ m, t.peer m = u.peer m := fun m => by
      unfold State.peer
      rw [peers]
    have accepted : accept h k payload tag hail effect s = t := accept_hears ⟨running, sender, other, taken⟩ length tag hail effect
    refine ⟨t, v.heardPeer n hail, by rw [exec, accepted], now.trans time, ?_, ?_, ?_, ?_, ?_, ?_, ?_,
      heardPeer_awake v n hail, fun m apart => ?_, ?_, ?_, ?_⟩
    · rw [after.link, heard.link]
    · rw [after.link, heard.link, now]
    · rw [after.link, heard.link, now]
    · rw [after.lineDown, heard.hold]
    · rw [after.mismatch, heard.hold, peers]
    · rw [table, heard.peer]
    · rw [heardPeer_ttl, now]
    · rw [table, heard.others m apart]
      unfold State.peer
      rw [advanceTo_peers]
    · rw [line, advanceTo_count]
    · rw [line, advanceTo_highWater]
    · exact ((moved.widen (by decide)).trans (heard.frame.widen (by decide))).trans (after.frame.widen (by decide))

end Sys2Proof.Machine
end

section
/-! The obligation of HAIL (R158, R164, R165, R167 to R169). -/
namespace Sys2Proof.Machine

/-! ## The five settings (R164, R168) -/

/-- The settings that a HAIL is compared by, in their order: the code, the peer's value and the station's own. -/
def settingPairs (x : Figures) (f : Hailed) : List (Nat × Nat × Nat) :=
  [(1, f.cpm, x.line.cpm), (2, f.lineLanes, x.line.lanes), (3, f.lotBreak, x.line.lotBreak),
    (4, f.strayGap, x.line.strayGap), (5, f.settle, x.line.settle)]

theorem firstDifference_find (x : Figures) (f : Hailed) : firstDifference x f =
    ((settingPairs x f).find? (fun p => p.2.1 != p.2.2)).map (fun p => (p.1, p.2.1)) := by
  unfold firstDifference settingPairs
  by_cases cpm : f.cpm = x.line.cpm
  · by_cases lanes : f.lineLanes = x.line.lanes
    · by_cases lot : f.lotBreak = x.line.lotBreak
      · by_cases stray : f.strayGap = x.line.strayGap
        · by_cases settle : f.settle = x.line.settle <;> simp [cpm, lanes, lot, stray, settle]
        · simp [cpm, lanes, lot, stray]
      · simp [cpm, lanes, lot]
    · simp [cpm, lanes]
  · simp [cpm]

theorem firstDifference_none (x : Figures) (f : Hailed) :
    firstDifference x f = none ↔ ∀ p ∈ settingPairs x f, p.2.1 = p.2.2 := by
  rw [firstDifference_find, Option.map_eq_none_iff, List.find?_eq_none]
  simp

theorem firstDifference_some (x : Figures) (f : Hailed) (code value : Nat) :
    firstDifference x f = some (code, value) ↔ ∃ before own after,
      settingPairs x f = before ++ (code, value, own) :: after ∧ value ≠ own ∧ ∀ p ∈ before, p.2.1 = p.2.2 := by
  rw [firstDifference_find, Option.map_eq_some_iff]
  constructor
  · rintro ⟨⟨c, v, own⟩, found, pair⟩
    obtain ⟨differs, before, after, split, same⟩ := List.find?_eq_some_iff_append.mp found
    cases pair
    exact ⟨before, own, after, split, by simpa using differs, fun p mem => by simpa using same p mem⟩
  · rintro ⟨before, own, after, split, differs, same⟩
    refine ⟨(code, value, own), List.find?_eq_some_iff_append.mpr ⟨by simpa using differs, before, after, split, ?_⟩, rfl⟩
    exact fun p mem => by simpa using same p mem

theorem firstDifference_isSome (x : Figures) (f : Hailed) : (firstDifference x f).isSome = true ↔
    f.cpm ≠ x.line.cpm ∨ f.lineLanes ≠ x.line.lanes ∨ f.lotBreak ≠ x.line.lotBreak ∨ f.strayGap ≠ x.line.strayGap
      ∨ f.settle ≠ x.line.settle := by
  rw [Option.isSome_iff_ne_none, ne_eq, firstDifference_none]
  unfold settingPairs
  simp only [List.forall_mem_cons, List.not_mem_nil, false_implies, implies_true, and_true]
  tauto

/-! ## The own bid at the hearing (R81, R95, R169) -/

/-- A hold cause's reaction stands where the lists, the own bid and the positions stand. -/
theorem HeldBack.to_lists {s t u : State} {o : OwnBid} (h : HeldBack s t o) (own : u.bid.own = t.bid.own)
    (records : u.track.records = t.track.records) (positions : u.feed.positions = t.feed.positions)
    (outbox : u.link.outbox = t.link.outbox) (waiting : u.link.waitingBid = t.link.waitingBid) : HeldBack s u o := by
  obtain ⟨landing, waits, sending, untouched, position⟩ := h
  rw [← own, ← records, ← outbox] at landing
  rw [← own, ← records, ← outbox, ← waiting] at waits
  rw [← own, ← records, ← outbox] at sending
  rw [← own, ← records, ← outbox] at untouched
  rw [← positions, ← own] at position
  exact ⟨landing, waits, sending, untouched, position⟩

/-- What the link controller leaves of the peer table's work: all lists, with LINE_UP behind the table's events (R158). -/
structure LineTaken (n : Nat) (s v u : State) : Prop where
  own : u.bid.own = v.bid.own
  records : u.track.records = v.track.records
  positions : u.feed.positions = v.feed.positions
  outbox : u.link.outbox = v.link.outbox
  waiting : u.link.waitingBid = v.link.waitingBid
  events : ∀ l, v.fifo = s.withEvents l → u.fifo = s.withEvents (l ++ s.lineUpEvents n)

theorem lineHeard_taken {n : Nat} {s v : State} (store : v.store = s.store)
    (lineDown : v.bid.hold.lineDown = s.bid.hold.lineDown) : LineTaken n s v (lineHeard n (recordSender n (restartGrid v))) := by
  let x := recordSender n (restartGrid v)
  have recorded : SameBut [.link] v x := (setLink_frame _ _).trans (setLink_frame _ _)
  obtain ⟨link, bid, fifo, heard⟩ := lineHeard_spec n x
  refine ⟨?_, ?_, ?_, ?_, ?_, fun l told => ?_⟩
  · rw [bid]
    rfl
  · exact congrArg TrackList.records ((heard .track (by decide)).trans (recorded .track (by decide)))
  · exact congrArg FeedSequencer.positions ((heard .feed (by decide)).trans (recorded .feed (by decide)))
  · rw [link]
    rfl
  · rw [link]
    rfl
  · have up : x.lineUpEvents n = s.lineUpEvents n := by
      unfold State.lineUpEvents
      rw [show x.bid = v.bid from recorded .bid (by decide), lineDown]
    have before : x.fifo = s.withEvents l := (recorded .fifo (by decide)).trans told
    have same : x.store = s.store := (recorded .store (by decide)).trans store
    rw [fifo, withEvents_append, up]
    unfold State.withEvents at before ⊢
    rw [before, same]

theorem holdJoin_mismatch {s : State} (any : s.peers.anyMismatch = true) : followMismatch s = holdJoin .mismatch s :=
  if_pos any

/-- The MISMATCH cause does not join, or there is no own bid: it follows, and nothing else happens (R169). -/
theorem followMismatch_stands {s : State} (h : s.bid.own = none ∨ s.bid.hold.mismatch = true ∨ s.peers.anyMismatch = false) :
    followMismatch s = s.matched := by
  rcases h with none | stands | clear
  · exact followMismatch_of_no_own none
  · rw [followMismatch_eq, if_neg (fun both => by rw [stands] at both; cases both.2)]
  · rw [followMismatch_eq, if_neg (fun both => by rw [clear] at both; cases both.1)]

/-- What the hearing of a HAIL with figures `f` leaves of the own bid, of its lists, and of the events. -/
structure HailHeard (n : Nat) (f : Hailed) (s u : State) : Prop where
  stands : s.bid.own = none ∨ s.bid.hold.mismatch = true ∨ u.peers.anyMismatch = false →
    u.bid.own = s.bid.own ∧ u.track.records = s.track.records
      ∧ u.fifo = s.withEvents (s.hailEvents n f ++ s.lineUpEvents n)
  joins : ∀ o, s.bid.own = some o → s.bid.hold.mismatch = false → u.peers.anyMismatch = true → HeldBack s u o
    ∧ ((s.feed.positions.get o.serves).unloading = false → s.recallFits o →
        u.fifo = s.withEvents (s.hailEvents n f ++ o.heldEvents 4 ++ s.lineUpEvents n))

theorem hearing_hail (n : Nat) (f : Hailed) (s : State) : HailHeard n f s (hearing n (some f) s) := by
  obtain ⟨w, table, told, -, -, events⟩ := peerHeard_eq n (some f) s
  have events := events f rfl
  let v := followMismatch w
  have u : hearing n (some f) s = lineHeard n (recordSender n (restartGrid v)) := by
    unfold hearing
    rw [table]
  have followed := followMismatch_frame w
  have bid : w.bid = s.bid := told .bid (by decide)
  have store : v.store = s.store := (followed .store (by decide)).trans (told .store (by decide))
  have lineDown : v.bid.hold.lineDown = s.bid.hold.lineDown := by
    rw [(followMismatch_steady w).hold]
    show w.bid.hold.lineDown = _
    rw [bid]
  have taken : LineTaken n s v (hearing n (some f) s) := u ▸ lineHeard_taken store lineDown
  have peers : (hearing n (some f) s).peers = w.peers := by
    rw [u, (lineHeard_spec n _).2.2.2 .peers (by decide)]
    exact followed .peers (by decide)
  have records : w.track.records = s.track.records := congrArg TrackList.records (told .track (by decide))
  refine ⟨fun stands => ?_, fun o own clear any => ?_⟩
  · have follow : v = w.matched := followMismatch_stands (by rw [bid, ← peers]; exact stands)
    refine ⟨?_, ?_, taken.events _ ?_⟩
    · rw [taken.own, follow]
      show w.bid.own = _
      rw [bid]
    · rw [taken.records, follow]
      exact records
    · rw [follow]
      exact events
  · have joined : v = holdJoin .mismatch w := holdJoin_mismatch (peers ▸ any)
    have own' : w.bid.own = some o := by rw [bid, own]
    have clear' : w.bid.hold.has .mismatch = false := by
      rw [bid]
      exact clear
    have positions : w.feed.positions = s.feed.positions := congrArg FeedSequencer.positions (told .feed (by decide))
    have link : w.link = s.link := told .link (by decide)
    have back : HeldBack s v o := joined ▸ (holdJoin_held .mismatch w o own' clear').of_lists records positions
      (congrArg LinkController.outbox link) (congrArg LinkController.waitingBid link)
    refine ⟨back.to_lists taken.own taken.records taken.positions taken.outbox taken.waiting, fun unmarked fits => ?_⟩
    refine taken.events _ ?_
    rw [joined, holdJoin_fifo .mismatch w o own' clear' (by rwa [positions])
      ((recallFits_of_lists (congrArg LinkController.outbox link) (congrArg LinkController.waitingBid link)).mpr fits),
      withEvents_append, ← events]
    unfold State.withEvents
    rw [told .store (by decide)]
    rfl

/-! ## HAIL -/

/-- Where a HAIL leaves its sender MISMATCH, some entry is. -/
theorem anyMismatch_of_peer {s : State} {n : Nat} {p : Peer} (entry : s.peer n = some p) (state : p.state = .mismatch) :
    s.peers.anyMismatch = true := by
  unfold PeerTable.anyMismatch
  rw [List.any_eq_true]
  exact ⟨p, List.mem_of_find?_eq_some entry, by rw [state]; rfl⟩

/-- Settles O33: the entry, the events in their order, and what the own bid makes of the MISMATCH cause. -/
theorem hailUpdatesPeer : Obligations.HailUpdatesPeer := by
  refine ⟨?peer, ?own, ?role, ?settings⟩
  case peer =>
    rintro s h p f hears length rfl
    let f := readHail (hailAt p)
    let n := h.sender.toNat
    let v := advanceTo h.time s
    let u := hearing n (some f) v
    let t := finish u
    have moved := advanceTo_frame h.time s
    have heard := hearing_heard n (some f) v
    have taken := hearing_hail n f v
    obtain ⟨hailed, differs, state⟩ := heardPeer_hail v n f
    have accepted : exec (.hail h p) s = .next t := congrArg Host.Outcome.next (accept_hears hears length _ _ id)
    have bid : v.bid = s.bid := moved .bid (by decide)
    have records : v.track.records = s.track.records := congrArg TrackList.records (moved .track (by decide))
    have feed : v.feed = s.feed := moved .feed (by decide)
    have link : v.link = s.link := moved .link (by decide)
    have hailEvents : v.hailEvents n f = s.hailEvents n f := by
      unfold State.hailEvents State.peer
      rw [advanceTo_peers, advanceTo_run]
    have told : ∀ l, v.withEvents l = s.withEvents l := fun l =>
      withEvents_congr (moved .fifo (by decide)) (moved .store (by decide)) l
    have upEvents : v.lineUpEvents n = s.lineUpEvents n := by
      unfold State.lineUpEvents
      rw [bid]
    have peers : t.peers = u.peers := finish_peers u
    have entry : t.peer n = some (v.heardPeer n (some f)) := by
      unfold State.peer
      rw [peers]
      exact heard.peer
    have hold : t.bid.hold.mismatch = u.peers.anyMismatch := by
      rw [finish_bid_hold, heard.hold]
    have mism : (v.heardPeer n (some f)).differs = true → u.peers.anyMismatch = true := fun yes => by
      refine anyMismatch_of_peer heard.peer ?_
      rw [state, ← differs, yes]
      rfl
    obtain ⟨stands, joins⟩ := taken
    rw [bid, records, hailEvents, upEvents, told] at stands
    refine ⟨t, v.heardPeer n (some f), accepted, entry, hailed, ?_, ?_, fun yes => ?_, fun none => ?_,
      fun o own yes clear => ?_, fun o own same => ?_, ?_⟩
    · rw [differs, advanceTo_run]
      exact firstDifference_isSome _ _
    · rw [state, differs]
    · rw [hold, mism yes]
    · obtain ⟨-, kept, fifo⟩ := stands (.inl none)
      exact ⟨(finish_track_records u).trans kept, (finish_fifo u).trans fifo⟩
    · obtain ⟨back, events⟩ := joins o (by rw [bid, own]) (by rw [bid, clear]) (mism yes)
      refine ⟨?_, fun unmarked fits => ?_⟩
      · refine (back.of_lists records (by rw [feed]) (by rw [link]) (by rw [link])).finish (.inl ?_)
        refine hold_any_of_has (c := .mismatch) ?_
        show u.bid.hold.mismatch = true
        rw [heard.hold, mism yes]
      · refine (finish_fifo u).trans ?_
        rw [events (by rwa [feed]) ((recallFits_of_lists (by rw [link]) (by rw [link])).mpr fits), told, hailEvents, upEvents]
        rfl
    · obtain ⟨kept, list, fifo⟩ := stands (.inr (same.imp id (fun clear => peers ▸ clear)))
      exact ⟨finish_own (kept.trans own), (finish_track_records u).trans list, (finish_fifo u).trans fifo⟩
    · exact ((moved.widen (by decide)).trans (heard.frame.widen (by decide))).trans ((finish_frame u).widen (by decide))
  case own =>
    intro s h p hearsOwn
    obtain ⟨u, accepted, frame, -, -, -, link⟩ := accept_hearsOwn (m := .hail) hearsOwn (some (readHail (hailAt p))) id
    have settled := finish_keeps u
    obtain ⟨l, more, fresh⟩ := settled.outbox
    have outbox : u.link.outbox = s.link.outbox.filter (fun e => !e.sending) := by rw [link]
    have still : outboxStill u.link.outbox := fun x mem => by
      rw [outbox] at mem
      simpa using (List.mem_filter.mp mem).2
    refine ⟨finish u, l, congrArg Host.Outcome.next accepted, fresh, ?_, ?_, ?_, ?_, ?_, ?_, fun o own => ?_, ?_⟩
    · rw [more, outbox]
    · exact (sending_none_iff _).mpr ((finish_steady u).still still)
    · rw [finish_link_lastSender, link]
    · rw [finish_link_quiet, link, finish_now]
    · rw [finish_link_health, link]
    · rw [finish_track_records, frame .track (by decide)]
    · exact finish_own ((congrArg BidEngine.own (frame .bid (by decide))).trans own)
    · exact (frame.widen (by decide)).trans ((finish_frame u).widen (by decide))
  case role =>
    intro n f code
    obtain ⟨role, lanes, eye, cpm, lineLanes, lotBreak, strayGap, settle⟩ := f
    cases role with
    | none => rfl
    | some r => cases r <;> rfl
  case settings =>
    rintro x f pairs rfl
    exact ⟨firstDifference_none x f, firstDifference_some x f⟩

end Sys2Proof.Machine
end

section
/-! The obligation of JAM and JAM RELEASE, and the state at which a message acts (R39, R80, R81, R95, R130, R150). -/
namespace Sys2Proof.Machine

/-! ## The state at which a message acts -/

/-- From `s` to `u` the hearing of a known peer's frame, or of the station's own, of the acceptance time `time`: nothing is
written but the time, the figures of the link, the peer table, and the MISMATCH cause. -/
structure Reached (s u : State) (time : Nat) : Prop where
  frame : SameBut [.now, .line, .bid, .link, .peers] s u
  now : u.now = max s.now time
  count : u.line.count = s.line.count
  highWater : u.line.highWater = s.line.highWater
  bid : u.bid = { s.bid with hold := { s.bid.hold with mismatch := u.bid.hold.mismatch } }
  waiting : u.link.waitingBid = s.link.waitingBid

theorem knows_later {s : State} {n : Nat} (knows : s.knows n) (time : Nat) : (advanceTo time s).knows n := by
  unfold State.knows State.peer at knows ⊢
  rw [advanceTo_peers, advanceTo_bid]
  exact knows

/-- The frame of a known peer acts on a state that has its lists (R150, R165). -/
theorem accept_known {s : State} {h : Heard} {k : MsgKind} (hears : s.hears h k) (knows : s.knows h.sender.toNat)
    {payload : List Byte} (length : payload.length = payloadLength k) (tag : Option Tag) (effect : State → State) :
    ∃ u, accept h k payload tag none effect s = finish (effect u) ∧ Reached s u h.time
      ∧ u.link.outbox = s.link.outbox := by
  obtain ⟨u, accepted, frame, bid, link⟩ := acceptPeer_known (knows_later knows h.time) effect
  have moved := advanceTo_frame h.time s
  have line : u.line = (advanceTo h.time s).line := frame .line (by decide)
  refine ⟨u, (accept_hears hears length tag none effect).trans accepted,
    ⟨(moved.widen (by decide)).trans (frame.widen (by decide)), ?_, ?_, ?_, ?_, ?_⟩, ?_⟩
  · rw [frame .now (by decide), advanceTo_now]
  · rw [line, advanceTo_count]
  · rw [line, advanceTo_highWater]
  · rw [bid, advanceTo_bid]
  · rw [link, advanceTo_link]
  · rw [link, advanceTo_link]

/-- The station's own frame acts on a state that has its lists, but for the entry that leaves the outbox (R150, R152). -/
theorem accept_own {s : State} {h : Heard} {m : Msg} {payload : List Byte} (hears : s.hearsOwn h m payload)
    (effect : State → State) :
    ∃ u, accept h m.kind payload m.tag? none effect s = finish (ownEffect m u) ∧ Reached s u h.time
      ∧ u.link.outbox = s.link.outbox.filter (fun e => !e.sending) ∧ u.link.lastSender = some s.number
      ∧ u.link.health = s.link.health ∧ SameBut [.now, .line, .link] s u := by
  obtain ⟨u, accepted, frame, now, count, highWater, link⟩ := accept_hearsOwn hears none effect
  have bid : u.bid = s.bid := frame .bid (by decide)
  exact ⟨u, accepted, ⟨frame.widen (by decide), now, count, highWater, by rw [bid], by rw [link]⟩, by rw [link], by rw [link],
    by rw [link], frame⟩

theorem Reached.own {s u : State} {time : Nat} (h : Reached s u time) : u.bid.own = s.bid.own := by rw [h.bid]

theorem Reached.record {s u : State} {time : Nat} (h : Reached s u time) (tag : Tag) : u.record tag = s.record tag :=
  record_congr (congrArg TrackList.records (h.frame .track (by decide))) tag

theorem Reached.number {s u : State} {time : Nat} (h : Reached s u time) : u.number = s.number :=
  congrArg (fun f => f.station.number) (h.frame .run (by decide))

theorem Reached.withEvent {s u : State} {time : Nat} (h : Reached s u time) (e : Event) : u.withEvent e = s.withEvent e :=
  withEvent_congr (h.frame .fifo (by decide)) (h.frame .store (by decide)) e

theorem Reached.withEvents {s u : State} {time : Nat} (h : Reached s u time) (l : List Event) :
    u.withEvents l = s.withEvents l :=
  withEvents_congr (h.frame .fifo (by decide)) (h.frame .store (by decide)) l

theorem Reached.ownFixed {s u : State} {time : Nat} (h : Reached s u time) (fixed : s.ownFixed) : u.ownFixed := fun o own =>
  fixed o (h.own ▸ own)

/-- After the station's own message nothing is SENDING, and its sender is recorded (R150, R154). -/
theorem ownEffect_ends {s u : State} {m : Msg} (outbox : u.link.outbox = s.link.outbox.filter (fun e => !e.sending))
    (sender : u.link.lastSender = some s.number)
    (kept : HeardKept u (ownEffect m u)) :
    (finish (ownEffect m u)).sending = none ∧ (finish (ownEffect m u)).link.lastSender = some s.number := by
  have still : outboxStill u.link.outbox := fun x mem => by
    rw [outbox] at mem
    simpa using (List.mem_filter.mp mem).2
  refine ⟨(sending_none_iff _).mpr ((finish_steady _).still (ownEffect_sendsNothing m u still)), ?_⟩
  rw [finish_link_lastSender, kept.link, sender]

/-! ## The jamming set (R80, R130) -/

theorem member_or {w : Stations} {n : Nat} (low : 1 ≤ n) (high : n ≤ 15) (member : hasStation w n = true) :
    w ||| stationBit n = w := by
  have bit : stationBit n = BitVec.twoPow 16 (n - 1) := by
    unfold stationBit
    rw [if_neg (by omega)]
    exact (BitVec.twoPow_eq 16 (n - 1)).symm
  have set : w.getLsbD (n - 1) = true := by
    by_contra clear
    refine absurd member ?_
    unfold hasStation
    rw [bit, BitVec.and_twoPow, if_neg clear]
    decide
  rw [bit]
  apply BitVec.eq_of_getLsbD_eq
  intro i lt
  rw [BitVec.getLsbD_or, BitVec.getLsbD_twoPow]
  by_cases here : n - 1 = i
  · rw [← here, set]
    rfl
  · simp [here]

theorem nonmember_and {w : Stations} {n : Nat} (apart : hasStation w n = false) : w &&& ~~~(stationBit n) = w := by
  have zero : w &&& stationBit n = 0 := by
    unfold hasStation at apart
    simpa using apart
  calc w &&& ~~~(stationBit n) = (w &&& stationBit n) ||| (w &&& ~~~(stationBit n)) := by
        rw [zero]
        simp
    _ = w := by
        rw [← BitVec.and_or_distrib_left, BitVec.or_not_self, BitVec.and_allOnes]

/-- The jamming set has taken a member, with JAM_HELD (R130). -/
def jamJoined (n : Nat) (s : State) : State :=
  raise { kind := .jamHeld, a := some n } (s.setBid { s.bid with jamming := s.bid.jamming ||| stationBit n })

theorem jamEffect_member {n : Nat} {s : State} (member : hasStation s.bid.jamming n = true) : jamEffect n s = s :=
  if_pos member

theorem jamEffect_joins {n : Nat} {s : State} (apart : hasStation s.bid.jamming n = false) :
    jamEffect n s = holdJoin .jam (jamJoined n s) := if_neg (by simp [apart])

theorem jamJoined_frame (n : Nat) (s : State) : SameBut [.bid, .fifo] s (jamJoined n s) :=
  (setBid_frame s _).then (raise_frame _ _) (by decide) (by decide)

/-- The cause stands once a member has joined, and the set is what the member made of it (R80). -/
theorem holdJoin_jam (n : Nat) (s : State) : (holdJoin .jam (jamJoined n s)).bid.hold.jam = true
    ∧ (holdJoin .jam (jamJoined n s)).bid.jamming = s.bid.jamming ||| stationBit n := by
  cases stood : s.bid.hold.jam with
  | true =>
    have stays : holdJoin .jam (jamJoined n s) = jamJoined n s := holdJoin_stands (c := .jam) stood
    rw [stays]
    exact ⟨stood, rfl⟩
  | false =>
    have joins : holdJoin .jam (jamJoined n s) = _ := holdJoin_joins (c := .jam) (s := jamJoined n s) stood
    have steady := recallOwn_steady HoldCause.jam.code none (putHold .jam true (jamJoined n s))
    rw [joins]
    refine ⟨?_, steady.jamming⟩
    rw [steady.hold]
    rfl

/-- A member that joins is told by JAM_HELD alone, where no own bid reacts. -/
theorem holdJoin_jam_quiet {n : Nat} {s : State} (stands : s.ownFixed ∨ s.bid.hold.jam = true) :
    (holdJoin .jam (jamJoined n s)).fifo = s.withEvent { kind := .jamHeld, a := some n }
      ∧ (holdJoin .jam (jamJoined n s)).track = s.track ∧ (holdJoin .jam (jamJoined n s)).bid.own = s.bid.own := by
  have quiet : holdJoin .jam (jamJoined n s) = jamJoined n s ∨ holdJoin .jam (jamJoined n s) = putHold .jam true (jamJoined n s) := by
    rcases stands with fixed | stood
    · rw [holdJoin_fixed (s := jamJoined n s) fixed]
      split
      · exact .inl rfl
      · exact .inr rfl
    · exact .inl (holdJoin_stands (c := .jam) stood)
  rcases quiet with same | same <;> rw [same] <;> exact ⟨rfl, rfl, rfl⟩

/-- The jamming set has lost a member, with JAM_RELEASED (R130). -/
def jamLeft (n : Nat) (s : State) : State :=
  raise { kind := .jamReleased, a := some n } (s.setBid { s.bid with jamming := s.bid.jamming &&& ~~~(stationBit n) })

/-- JAM RELEASE of a member: the member leaves, with JAM_RELEASED, and the last one takes the cause with it (R80, R130). -/
theorem jamReleaseEffect_member {n : Nat} {s : State} (member : hasStation s.bid.jamming n = true) :
    (jamReleaseEffect n s).bid.jamming = s.bid.jamming &&& ~~~(stationBit n)
      ∧ (jamReleaseEffect n s).bid.hold.jam = (if s.bid.jamming &&& ~~~(stationBit n) = 0 then false else s.bid.hold.jam)
      ∧ (jamReleaseEffect n s).fifo = s.withEvent { kind := .jamReleased, a := some n }
      ∧ (jamReleaseEffect n s).track = s.track := by
  have leaves : jamReleaseEffect n s = relieveJam (jamLeft n s) := if_pos member
  rw [leaves]
  by_cases last : s.bid.jamming &&& ~~~(stationBit n) = 0
  · have relieved : relieveJam (jamLeft n s) = holdLeave .jam (jamLeft n s) := if_pos last
    rw [relieved, if_pos last]
    exact ⟨rfl, rfl, rfl, rfl⟩
  · have kept : relieveJam (jamLeft n s) = jamLeft n s := if_neg last
    rw [kept, if_neg last]
    exact ⟨rfl, rfl, rfl, rfl⟩

theorem jamReleaseEffect_apart {n : Nat} {s : State} (apart : hasStation s.bid.jamming n = false) :
    jamReleaseEffect n s = s := if_neg (by simp [apart])

/-! ## JAM and JAM RELEASE -/

/-- Settles O41: the set and its cause at a peer's frame, at the own, and what the own bid makes of the cause. -/
theorem jamMembersHold : Obligations.JamMembersHold := by
  refine ⟨?joins, ?leaves, ?same, ?own, ?ownRelease, ?reacts⟩
  case joins =>
    intro s h hears apart
    let n := h.sender.toNat
    let v := advanceTo h.time s
    let u := hearing n none v
    have heard := hearing_heard n none v
    have accepted : exec (.jam h) s = .next (finish (jamEffect n u)) :=
      congrArg Host.Outcome.next (accept_hears hears rfl none none (jamEffect n))
    have moved := advanceTo_frame h.time s
    have set : u.bid.jamming = s.bid.jamming := heard.counts.1.trans (by rw [advanceTo_bid])
    have joins : jamEffect n u = holdJoin .jam (jamJoined n u) := jamEffect_joins (by rw [set]; exact apart)
    obtain ⟨jam, jamming⟩ := holdJoin_jam n u
    refine ⟨_, accepted, ?_, ?_, fun knows none => ?_, ?_⟩
    · rw [finish_bid_jamming, joins, jamming, set]
    · rw [finish_bid_hold, joins, jam]
    · obtain ⟨x, known, reached, -⟩ := accept_known hears knows (payload := []) rfl Option.none (jamEffect n)
      have same : finish (jamEffect n u) = finish (jamEffect n x) := by
        rw [← known]
        exact (accept_hears hears rfl Option.none Option.none (jamEffect n)).symm
      have setX : x.bid.jamming = s.bid.jamming := by rw [reached.bid]
      obtain ⟨fifo, track, -⟩ := holdJoin_jam_quiet (n := n) (.inl (reached.ownFixed (ownFixed_none none)))
      rw [same, jamEffect_joins (by rw [setX]; exact apart), finish_fifo, finish_track_records, fifo, track]
      exact ⟨reached.withEvent _, congrArg TrackList.records (reached.frame .track (by decide))⟩
    · exact ((moved.widen (by decide)).trans (heard.frame.widen (by decide))).trans
        (((jamEffect_frame n u).widen (by decide)).trans ((finish_frame _).widen (by decide)))
  case leaves =>
    intro s h hears member
    let n := h.sender.toNat
    let v := advanceTo h.time s
    let u := hearing n none v
    have heard := hearing_heard n none v
    have accepted : exec (.jamReleaseAccepted h) s = .next (finish (jamReleaseEffect n u)) :=
      congrArg Host.Outcome.next (accept_hears hears rfl none none (jamReleaseEffect n))
    have moved := advanceTo_frame h.time s
    have set : u.bid.jamming = s.bid.jamming := heard.counts.1.trans (by rw [advanceTo_bid])
    have held : u.bid.hold.jam = s.bid.hold.jam := by
      rw [heard.hold, advanceTo_bid]
    obtain ⟨jamming, jam, -, -⟩ := jamReleaseEffect_member (n := n) (s := u) (by rw [set]; exact member)
    rw [set] at jamming jam
    refine ⟨_, accepted, ?_, ?_, ?_, fun knows => ?_, ?_⟩
    · rw [finish_bid_jamming, jamming]
    · rw [finish_bid_jamming, finish_bid_hold, jamming, jam]
      exact fun last => if_pos last
    · rw [finish_bid_jamming, finish_bid_hold, jamming, jam, held]
      exact fun more => if_neg more
    · obtain ⟨x, known, reached, -⟩ := accept_known hears knows (payload := []) rfl Option.none (jamReleaseEffect n)
      have same : finish (jamReleaseEffect n u) = finish (jamReleaseEffect n x) := by
        rw [← known]
        exact (accept_hears hears rfl Option.none Option.none (jamReleaseEffect n)).symm
      have setX : x.bid.jamming = s.bid.jamming := by rw [reached.bid]
      obtain ⟨-, -, fifo, track⟩ := jamReleaseEffect_member (n := n) (s := x) (by rw [setX]; exact member)
      rw [same, finish_fifo, finish_track_records, fifo, track]
      exact ⟨reached.withEvent _, congrArg TrackList.records (reached.frame .track (by decide))⟩
    · exact ((moved.widen (by decide)).trans (heard.frame.widen (by decide))).trans
        (((jamReleaseEffect_frame n u).widen (by decide)).trans ((finish_frame _).widen (by decide)))
  case same =>
    intro s h c knows row
    have reachedSame : ∀ u, Reached s u h.time → u.bid.jamming = s.bid.jamming ∧ u.bid.hold.jam = s.bid.hold.jam :=
      fun u reached => by
        rw [reached.bid]
        exact ⟨rfl, rfl⟩
    have still : ∀ u, Reached s u h.time → (finish u).bid.jamming = s.bid.jamming
        ∧ (finish u).bid.hold.jam = s.bid.hold.jam ∧ (finish u).fifo = s.fifo := fun u reached => by
      obtain ⟨jamming, jam⟩ := reachedSame u reached
      rw [finish_bid_jamming, finish_bid_hold, finish_fifo]
      exact ⟨jamming, jam, reached.frame .fifo (by decide)⟩
    rcases row with ⟨rfl, hears, member⟩ | ⟨rfl, hears, apart⟩
    · obtain ⟨u, known, reached, -⟩ := accept_known hears knows (payload := []) rfl none (jamEffect h.sender.toNat)
      rw [jamEffect_member (by rw [(reachedSame u reached).1]; exact member)] at known
      exact ⟨finish u, congrArg Host.Outcome.next known, still u reached⟩
    · obtain ⟨u, known, reached, -⟩ := accept_known hears knows (payload := []) rfl none (jamReleaseEffect h.sender.toNat)
      rw [jamReleaseEffect_apart (by rw [(reachedSame u reached).1]; exact apart)] at known
      exact ⟨finish u, congrArg Host.Outcome.next known, still u reached⟩
  case own =>
    intro s h joined hears joins low high
    obtain ⟨u, accepted, reached, outbox, sender, -, frame⟩ := accept_own (m := .jam) hears (jamEffect h.sender.toNat)
    have effect : ownEffect .jam u = jamEffect s.number u := congrArg (fun n => jamEffect n u) reached.number
    have set : u.bid.jamming = s.bid.jamming := by rw [reached.bid]
    have held : u.bid.hold.jam = s.bid.hold.jam := by rw [reached.bid]
    obtain ⟨ended, last⟩ := ownEffect_ends outbox sender (effect ▸ jamEffect_heardKept s.number u)
    rw [effect] at ended last accepted
    have blocks : SameBut ([.now, .line] ++ listBlocks) s (finish (jamEffect s.number u)) :=
      (frame.widen (by decide)).trans (((jamEffect_frame _ u).widen (by decide)).trans ((finish_frame _).widen (by decide)))
    cases member : hasStation s.bid.jamming s.number with
    | true =>
      rw [member] at joins
      subst joins
      have same := jamEffect_member (n := s.number) (s := u) (by rw [set]; exact member)
      refine ⟨_, congrArg Host.Outcome.next accepted, ?_, ?_, fun _ => ?_, ended, last, blocks⟩ <;> rw [same]
      · rw [finish_bid_jamming, set, member_or low high member]
      · rw [finish_bid_hold, held]
        simp
      · rw [finish_track_records, finish_fifo]
        exact ⟨congrArg TrackList.records (reached.frame .track (by decide)), reached.frame .fifo (by decide)⟩
    | false =>
      rw [member] at joins
      subst joins
      have same := jamEffect_joins (n := s.number) (s := u) (by rw [set]; exact member)
      obtain ⟨jam, jamming⟩ := holdJoin_jam s.number u
      refine ⟨_, congrArg Host.Outcome.next accepted, ?_, ?_, fun none => ?_, ended, last, blocks⟩ <;> rw [same]
      · rw [finish_bid_jamming, jamming, set]
      · rw [finish_bid_hold, jam]
        simp
      · obtain ⟨fifo, track, -⟩ := holdJoin_jam_quiet (n := s.number) (.inl (reached.ownFixed (ownFixed_none none)))
        rw [finish_track_records, finish_fifo, fifo, track]
        exact ⟨congrArg TrackList.records (reached.frame .track (by decide)), reached.withEvent _⟩
  case ownRelease =>
    intro s h member hears is
    subst is
    obtain ⟨u, accepted, reached, outbox, sender, -, frame⟩ := accept_own (m := .jamRelease) hears
      (jamReleaseEffect h.sender.toNat)
    have effect : ownEffect .jamRelease u = jamReleaseEffect s.number u :=
      congrArg (fun n => jamReleaseEffect n u) reached.number
    have set : u.bid.jamming = s.bid.jamming := by rw [reached.bid]
    have held : u.bid.hold.jam = s.bid.hold.jam := by rw [reached.bid]
    have records : u.track.records = s.track.records := congrArg TrackList.records (reached.frame .track (by decide))
    obtain ⟨ended, last⟩ := ownEffect_ends outbox sender (effect ▸ jamReleaseEffect_heardKept s.number u)
    rw [effect] at ended last accepted
    have blocks : SameBut ([.now, .line, .fifo] ++ settlingBlocks) s (finish (jamReleaseEffect s.number u)) :=
      (frame.widen (by decide)).trans
        (((jamReleaseEffect_frame _ u).widen (by decide)).trans ((finish_frame _).widen (by decide)))
    cases member : hasStation s.bid.jamming s.number with
    | true =>
      obtain ⟨jamming, jam, fifo, track⟩ := jamReleaseEffect_member (n := s.number) (s := u) (by rw [set]; exact member)
      rw [set] at jamming jam
      refine ⟨_, congrArg Host.Outcome.next accepted, ?_, ?_, ?_, ?_, ended, last, blocks⟩
      · rw [finish_bid_jamming, jamming]
      · rw [finish_bid_hold, finish_bid_jamming, jam, jamming, held]
        simp
      · rw [finish_fifo, fifo]
        exact reached.withEvent _
      · rw [finish_track_records, track, records]
    | false =>
      have same := jamReleaseEffect_apart (n := s.number) (s := u) (by rw [set]; exact member)
      refine ⟨_, congrArg Host.Outcome.next accepted, ?_, ?_, ?_, ?_, ended, last, blocks⟩ <;> rw [same]
      · rw [finish_bid_jamming, set, nonmember_and member]
      · rw [finish_bid_hold, held]
        simp
      · rw [finish_fifo]
        exact reached.frame .fifo (by decide)
      · rw [finish_track_records, records]
  case reacts =>
    intro s u h o row apart own
    have row : ∃ x, exec (.jam h) s = .next (finish (jamEffect h.sender.toNat x)) ∧ Reached s x h.time
        ∧ x.link.outbox = u.link.outbox ∧ SameBut [.link] s u ∧ u.link.waitingBid = s.link.waitingBid := by
      rcases row with ⟨hears, knows, rfl⟩ | ⟨hears, rfl⟩
      · obtain ⟨x, accepted, reached, outbox⟩ := accept_known hears knows (payload := []) rfl none (jamEffect h.sender.toNat)
        exact ⟨x, congrArg Host.Outcome.next accepted, reached, outbox, .refl _ _, rfl⟩
      · obtain ⟨x, accepted, reached, outbox, -⟩ := accept_own (m := .jam) hears (jamEffect h.sender.toNat)
        have number : h.sender.toNat = x.number := by
          obtain ⟨-, -, number, -⟩ := hears
          exact number.trans reached.number.symm
        rw [number]
        exact ⟨x, congrArg Host.Outcome.next accepted, reached, outbox, setOutbox_frame _ s, rfl⟩
    obtain ⟨x, accepted, reached, outbox, lists, waiting⟩ := row
    let n := h.sender.toNat
    have set : x.bid.jamming = s.bid.jamming := by rw [reached.bid]
    have held : x.bid.hold.jam = s.bid.hold.jam := by rw [reached.bid]
    have own' : x.bid.own = some o := reached.own.trans own
    have joins : jamEffect n x = holdJoin .jam (jamJoined n x) := jamEffect_joins (by rw [set]; exact apart)
    obtain ⟨jam, -⟩ := holdJoin_jam n x
    have positions : x.feed.positions = s.feed.positions := congrArg FeedSequencer.positions (reached.frame .feed (by decide))
    have records : x.track.records = s.track.records := congrArg TrackList.records (reached.frame .track (by decide))
    have waiting' : x.link.waitingBid = u.link.waitingBid := reached.waiting.trans waiting.symm
    refine ⟨_, accepted, ?_, fun clear => ⟨?_, fun unmarked fits => ?_⟩, fun stood => ?_⟩
    · show (finish (jamEffect n x)).bid.hold.jam = true
      rw [finish_bid_hold, joins, jam]
    · have back := (holdJoin_held .jam (jamJoined n x) o own' (held.trans clear)).finish
        (.inl (hold_any_of_has (c := .jam) jam))
      rw [show jamEffect h.sender.toNat x = _ from joins]
      refine back.of_lists ?_ ?_ outbox waiting'
      · rw [lists .track (by decide)]
        exact records
      · rw [lists .feed (by decide)]
        exact positions
    · show (finish (jamEffect n x)).fifo = _
      have told : (jamJoined n x).fifo = s.withEvents [{ kind := .jamHeld, a := some n }] := reached.withEvent _
      rw [finish_fifo, joins, holdJoin_fifo .jam (jamJoined n x) o own' (held.trans clear)
        (by rw [show (jamJoined n x).feed.positions = _ from positions]; exact unmarked)
        ((recallFits_of_lists (u := jamJoined n x) outbox waiting').mpr fits)]
      show (jamJoined n x).withEvents (o.heldEvents 2) = _
      unfold State.withEvents at told ⊢
      rw [told, show (jamJoined n x).store = s.store from reached.frame .store (by decide)]
      rfl
    · obtain ⟨fifo, track, kept⟩ := holdJoin_jam_quiet (n := n) (s := x) (.inr (held.trans stood))
      rw [show jamEffect h.sender.toNat x = _ from joins]
      refine ⟨finish_own (kept.trans own'), ?_, ?_⟩
      · rw [finish_track_records, track, records]
      · rw [finish_fifo, fifo]
        exact reached.withEvent _

end Sys2Proof.Machine
end

section
/-! The obligation of SIGHTING MISSED (R43, R47, R98). -/
namespace Sys2Proof.Machine

/-! ## The records at the hearing of a frame -/

/-- A recall of a bid that has no record in the list leaves the list (R95). -/
theorem recallOwn_track {s : State} (h : ∀ o, s.bid.own = some o → ¬ (o.state = .settling ∨ o.state = .granted)) (code : Nat)
    (a : Option Int) : (recallOwn code a s).track = s.track := by
  unfold recallOwn
  split
  · rfl
  · rename_i o own
    split
    · split
      · rfl
      · split
        · rfl
        · exact endOwn_frame _ .track (by decide)
    · rename_i settling
      exact absurd (.inl settling) (h o own)
    · rename_i granted
      exact absurd (.inr granted) (h o own)
    · rfl

theorem hearing_track {s : State} (h : ∀ o, s.bid.own = some o → ¬ (o.state = .settling ∨ o.state = .granted)) (n : Nat)
    (hail : Option Hailed) : (hearing n hail s).track = s.track := by
  obtain ⟨w, table, told, -⟩ := peerHeard_eq n hail s
  have followed : (followMismatch w).track = w.track := by
    rw [followMismatch_eq]
    split
    · refine (recallOwn_track (s := w.matched) (fun o own => h o ?_) 4 none).trans rfl
      rw [← show w.bid = s.bid from told .bid (by decide)]
      exact own
    · rfl
  unfold hearing
  rw [table, (lineHeard_spec n _).2.2.2 .track (by decide)]
  exact followed.trans (told .track (by decide))

/-- A state at which the message of a peer's frame, or of the own, acts: of the hearing's work no more than the recall of the
own bid may show in the lists (R150, R165). -/
structure ActedOn (s u : State) (time : Nat) : Prop where
  frame : SameBut (.now :: .line :: .peers :: listBlocks) s u
  gone : OwnGone s u
  now : u.now = max s.now time
  count : u.line.count = s.line.count
  highWater : u.line.highWater = s.line.highWater
  landing : (∀ o, s.bid.own = some o → ¬ (o.state = .settling ∨ o.state = .granted)) → u.track = s.track
  passedOver : u.bid.passedOver = s.bid.passedOver
  deferral : u.bid.deferral = s.bid.deferral

theorem Reached.actedOn {s u : State} {time : Nat} (h : Reached s u time) : ActedOn s u time :=
  { frame := h.frame.widen (by decide)
    gone := .of_eye (.of_same (h.frame .track (by decide)) h.own) (h.frame .eye (by decide))
    now := h.now
    count := h.count
    highWater := h.highWater
    landing := fun _ => h.frame .track (by decide)
    passedOver := by rw [h.bid]
    deferral := by rw [h.bid] }

theorem hearing_actedOn (n : Nat) (hail : Option Hailed) (time : Nat) (s : State) :
    ActedOn s (hearing n hail (advanceTo time s)) time := by
  have moved := advanceTo_frame time s
  have heard := hearing_heard n hail (advanceTo time s)
  have line : (hearing n hail (advanceTo time s)).line = (advanceTo time s).line := heard.frame .line (by decide)
  obtain ⟨-, deferral, passedOver⟩ := heard.counts
  have before : OwnGone s (advanceTo time s) := .of_eye (.of_frame moved (by decide) (by decide)) (moved .eye (by decide))
  refine ⟨(moved.widen (by decide)).trans (heard.frame.widen (by decide)), before.trans heard.gone, ?_, ?_, ?_, fun idle => ?_, ?_, ?_⟩
  · rw [heard.frame .now (by decide), advanceTo_now]
  · rw [line, advanceTo_count]
  · rw [line, advanceTo_highWater]
  · rw [hearing_track (fun o own => idle o (by rwa [advanceTo_bid] at own)), advanceTo_track]
  · rw [passedOver, advanceTo_bid]
  · rw [deferral, advanceTo_bid]

theorem ActedOn.run {s u : State} {time : Nat} (h : ActedOn s u time) : u.run = s.run := h.frame .run (by decide)

theorem ActedOn.number {s u : State} {time : Nat} (h : ActedOn s u time) : u.number = s.number :=
  congrArg (fun f => f.station.number) h.run

/-- The record under a tag stands at the hearing, but for that of a landing bid. -/
theorem ActedOn.record {s u : State} {time : Nat} (h : ActedOn s u time) {tag : Tag}
    (apart : ∀ o, s.bid.own = some o → o.desc.tag = tag → ¬ (o.state = .settling ∨ o.state = .granted)) :
    u.record tag = s.record tag := by
  by_cases elsewhere : s.ownElsewhere tag
  · exact h.gone.record tag elsewhere
  · have idle : ∀ o, s.bid.own = some o → ¬ (o.state = .settling ∨ o.state = .granted) := fun o own => by
      refine apart o own ?_
      by_contra other
      refine elsewhere (fun x held => ?_)
      cases own.symm.trans held
      exact other
    exact record_congr (congrArg TrackList.records (h.landing idle)) tag

/-! ## Changes of single records -/

/-- The record under a tag after a change of records that keeps their tags. -/
theorem record_map (s : State) (f : Record → Record) (tags : ∀ x, (f x).desc.tag = x.desc.tag) (tag : Tag) :
    (s.setRecords (s.track.records.map f)).record tag = (s.record tag).map f := by
  show (s.track.records.map f).find? _ = _
  rw [List.find?_map]
  have same : (fun r : Record => r.desc.tag == tag) ∘ f = fun r => r.desc.tag == tag := funext fun x => by
    show ((f x).desc.tag == tag) = _
    rw [tags]
  rw [same]
  rfl

/-- No stream's request names the piece: its removal withdraws nothing (R140). -/
theorem endPieceGone_idle {s : State} {tag : Tag} (h : ∀ i, (s.outfeed.streams.get i).spacer ≠ .requested (some tag)) :
    endPieceGone tag s = s := by
  have fold : ∀ l : List (Fin 4), l.foldl (fun t i =>
      if (t.outfeed.streams.get i).spacer = .requested (some tag) then withdrawSpacer i t else t) s = s := by
    intro l
    induction l with
    | nil => rfl
    | cons i l ih =>
      rw [List.foldl_cons, if_neg (h i)]
      exact ih
  exact fold four

/-- A PLACED spacer of the tag leaves its stream, and no other spacer moves (R141). -/
theorem losePlaced_spacer (tag : Tag) (s : State) (j : Fin 4) : ((losePlaced tag s).outfeed.streams.get j).spacer =
    if (s.outfeed.streams.get j).spacer = .placed tag then .none else (s.outfeed.streams.get j).spacer := by
  have fold : ∀ (l : List (Fin 4)) (t : State), ((l.foldl (fun t i =>
      let x := t.outfeed.streams.get i
      if x.spacer = .placed tag then planAgain i (t.setStream i { x with spacer := .none }) else t) t).outfeed.streams.get j).spacer
      = if j ∈ l ∧ (t.outfeed.streams.get j).spacer = .placed tag then .none else (t.outfeed.streams.get j).spacer := by
    intro l
    induction l with
    | nil => simp
    | cons i l ih =>
      intro t
      rw [List.foldl_cons, ih]
      dsimp only
      by_cases here : j = i
      · subst here
        by_cases placed : (t.outfeed.streams.get j).spacer = .placed tag
        · rw [if_pos placed]
          have cleared : ((planAgain j (t.setStream j { t.outfeed.streams.get j with spacer := .none })).outfeed.streams.get j).spacer
              = .none := congrArg Stream.spacer (Quad.get_set_self _ _ _)
          rw [cleared]
          simp [placed]
        · rw [if_neg placed]
          simp [placed]
      · have other : ∀ x, ((planAgain i (t.setStream i x)).outfeed.streams.get j) = t.outfeed.streams.get j :=
          fun x => Quad.get_set_of_ne _ here x
        have same : (if (t.outfeed.streams.get i).spacer = .placed tag then
            planAgain i (t.setStream i { t.outfeed.streams.get i with spacer := .none }) else t).outfeed.streams.get j
            = t.outfeed.streams.get j := by
          split
          · exact other _
          · rfl
        rw [same]
        simp [here]
  have all : ∀ j : Fin 4, j ∈ four := by decide
  refine (fold four s).trans ?_
  simp only [all j, true_and]

theorem noteChange_streams (lanes : Lanes) (s : State) : (noteChange lanes s).outfeed.streams = s.outfeed.streams := by
  unfold noteChange
  dsimp only
  split <;> rfl

/-- The spacers after a removal: a PLACED one of its tag is gone, and no other moves (R141). -/
theorem dropRecord_spacer {s : State} {tag : Tag} (held : (s.record tag).isSome = true) (j : Fin 4) :
    ((dropRecord tag s).outfeed.streams.get j).spacer =
      if (s.outfeed.streams.get j).spacer = .placed tag then .none else (s.outfeed.streams.get j).spacer := by
  obtain ⟨r, held⟩ := Option.isSome_iff_exists.mp held
  have before : (forgetTag tag (relieveTrack (s.setRecords (eraseTag tag s.track.records)))).outfeed.streams
      = s.outfeed.streams := by
    show (relieveTrack (s.setRecords (eraseTag tag s.track.records))).outfeed.streams = _
    rw [relieveTrack_frame _ .outfeed (by decide)]
    rfl
  unfold dropRecord
  rw [held]
  dsimp only
  rw [noteChange_streams, losePlaced_spacer, before]

/-- A removal that no request names leaves an own bid as it is (R140). -/
theorem removeRecord_unnamed {s : State} {tag : Tag} (held : (s.record tag).isSome = true)
    (unnamed : ∀ i, (s.outfeed.streams.get i).spacer ≠ .requested (some tag)) : removeRecord tag s = dropRecord tag s :=
  endPieceGone_idle (fun i => by
    rw [dropRecord_spacer held]
    split
    · nofun
    · exact unnamed i)

/-! ## SIGHTING MISSED -/

theorem missedEffect_first {s : State} {tag : Tag} {r : Record} (held : s.record tag = some r) (moves : r.state ≠ .spacer)
    (once : r.missed = false) (n : Nat) : missedEffect tag n s = s.setRecords (s.track.records.map (fun x =>
      if x.desc.tag = tag then { x with missed := true, reporter := n } else x)) := by
  unfold missedEffect
  rw [held]
  dsimp only
  rw [if_neg moves]
  unfold countMiss
  rw [if_neg (by simp [once]), (record_tag held).1]

theorem missedEffect_second {s : State} {tag : Tag} {r : Record} (held : s.record tag = some r) (moves : r.state ≠ .spacer)
    (again : r.missed = true) (n : Nat) :
    missedEffect tag n s = unconfirm tag 2 (removeRecord tag (raise (r.lost n) s)) := by
  unfold missedEffect
  rw [held]
  dsimp only
  rw [if_neg moves]
  unfold countMiss
  rw [if_pos again, (record_tag held).1]
  rfl

theorem missedEffect_spacer {s : State} {tag : Tag} {r : Record} (held : s.record tag = some r) (spacer : r.state = .spacer)
    (n : Nat) : missedEffect tag n s = s := by
  unfold missedEffect
  rw [held]
  exact if_pos spacer

theorem missedEffect_unknown {s : State} {tag : Tag} (unknown : s.record tag = none) (n : Nat) :
    missedEffect tag n s = s := by
  unfold missedEffect
  rw [unknown]

/-- What a miss counted makes of the list (R43). -/
theorem missedEffect_list (s : State) (tag : Tag) (n : Nat) :
    (∀ r, s.record tag = some r → r.state ≠ .spacer → r.missed = false →
        (missedEffect tag n s).record tag = some { r with missed := true, reporter := n })
      ∧ (∀ r, s.record tag = some r → r.state ≠ .spacer → r.missed = true → (missedEffect tag n s).record tag = none)
      ∧ (∀ r, s.record tag = some r → r.state = .spacer → (missedEffect tag n s).record tag = some r)
      ∧ (s.record tag = none → (missedEffect tag n s).record tag = none)
      ∧ (∀ x ∈ s.track.records, x.desc.tag ≠ tag → s.ownElsewhere x.desc.tag → x ∈ (missedEffect tag n s).track.records) := by
  refine ⟨fun r held moves once => ?_, fun r held moves again => ?_, fun r held spacer => ?_, fun unknown => ?_,
    fun x mem other elsewhere => ?_⟩
  · rw [missedEffect_first held moves once, record_map s _ (fun x => by split <;> rfl), held]
    simp [(record_tag held).1]
  · rw [missedEffect_second held moves again, record_congr (congrArg TrackList.records (unconfirm_frame _ _ _ .track (by decide)))]
    exact removeRecord_self _ _
  · rw [missedEffect_spacer held spacer, held]
  · rw [missedEffect_unknown unknown, unknown]
  · cases held : s.record tag with
    | none => rwa [missedEffect_unknown held]
    | some r =>
      by_cases spacer : r.state = .spacer
      · rwa [missedEffect_spacer held spacer]
      · cases missed : r.missed with
        | false =>
          rw [missedEffect_first held spacer missed]
          exact List.mem_map.mpr ⟨x, mem, if_neg other⟩
        | true =>
          rw [missedEffect_second held spacer missed, unconfirm_frame _ _ _ .track (by decide)]
          exact (removeRecord_spec tag (raise (r.lost n) s)).2.2 x mem other elsewhere

/-- The row of a peer's SIGHTING MISSED, and of the own. -/
theorem missed_row {s : State} {h : Heard} {p : List Byte} {d : Desc}
    (row : (s.hears h .sightingMissed ∧ p.length = 16 ∧ readDesc s.run.lineLanes (placedAt p).desc = some d) ∨
      (∃ tl, s.hearsOwn h (.missed d tl) p)) :
    ∃ u, exec (.sightingMissed h p) s = .next (finish (missedEffect d.tag h.sender.toNat u)) ∧ ActedOn s u h.time
      ∧ (s.knows h.sender.toNat ∨ h.sender.toNat = s.number → Reached s u h.time)
      ∧ (h.sender.toNat = s.number → u.link.outbox = s.link.outbox.filter (fun e => !e.sending)
          ∧ u.link.lastSender = some s.number ∧ u.link.health = s.link.health ∧ u.peers = s.peers) := by
  rcases row with ⟨hears, length, read⟩ | ⟨tl, hears⟩
  · have apart : h.sender.toNat ≠ s.number := by
      obtain ⟨-, -, apart, -⟩ := hears
      exact apart
    let effect : State → State := fun t =>
      match readDesc t.run.lineLanes (placedAt p).desc with
      | some d => missedEffect d.tag h.sender.toNat t
      | none => t
    have acts : ∀ u, u.run = s.run → effect u = missedEffect d.tag h.sender.toNat u := fun u run => by
      show (match readDesc u.run.lineLanes (placedAt p).desc with
        | some d => missedEffect d.tag h.sender.toNat u
        | none => u) = _
      rw [run, read]
    by_cases knows : s.knows h.sender.toNat
    · obtain ⟨u, accepted, reached, -⟩ := accept_known hears knows length (some (placedAt p).desc.tag) effect
      rw [acts u (reached.frame .run (by decide))] at accepted
      exact ⟨u, congrArg Host.Outcome.next accepted, reached.actedOn, fun _ => reached, fun own => absurd own apart⟩
    · have acted := hearing_actedOn h.sender.toNat none h.time s
      have accepted := accept_hears hears length (some (placedAt p).desc.tag) none effect
      rw [acceptPeer_eq, acts _ acted.run] at accepted
      exact ⟨_, congrArg Host.Outcome.next accepted, acted, fun either => absurd either (not_or.mpr ⟨knows, apart⟩),
        fun own => absurd own apart⟩
  · have own : h.sender.toNat = s.number := by
      obtain ⟨-, -, own, -⟩ := hears
      exact own
    have tag : some (placedAt p).desc.tag = Msg.tag? (.missed d tl) := by
      obtain ⟨-, -, -, -, -, tag, -⟩ := hears
      exact (tag (by simp [Msg.tag?, Msg.desc?])).symm
    obtain ⟨u, accepted, reached, outbox, sender, health, frame⟩ := accept_own hears (fun t =>
      match readDesc t.run.lineLanes (placedAt p).desc with
      | some d => missedEffect d.tag h.sender.toNat t
      | none => t)
    rw [← tag] at accepted
    have effect : ownEffect (.missed d tl) u = missedEffect d.tag h.sender.toNat u := by
      show missedEffect d.tag u.number u = _
      rw [reached.number, own]
    rw [effect] at accepted
    exact ⟨u, congrArg Host.Outcome.next accepted, reached.actedOn, fun _ => reached,
      fun _ => ⟨outbox, sender, health, frame .peers (by decide)⟩⟩

/-- Settles O39: the first miss counted, the second a removal, and UNCONFIRMED where the record is the fired one. -/
theorem missedReportCounted : Obligations.MissedReportCounted := by
  refine ⟨?list, ?events⟩
  case list =>
    intro s h p d row known
    obtain ⟨u, accepted, acted, reached, ownFrame⟩ := missed_row row
    have record : u.record d.tag = s.record d.tag := by
      by_cases landing : ∃ o, s.bid.own = some o ∧ o.desc.tag = d.tag ∧ (o.state = .settling ∨ o.state = .granted)
      · obtain ⟨o, own, same, landing⟩ := landing
        exact (reached (known o own same landing)).record d.tag
      · exact acted.record (fun o own same landing' => landing ⟨o, own, same, landing'⟩)
    obtain ⟨first, second, spacer, unknown, others⟩ := missedEffect_list u d.tag h.sender.toNat
    rw [record] at first second spacer unknown
    have kept := missedEffect_heardKept d.tag h.sender.toNat u
    refine ⟨_, accepted, ?_, ?_, ?_, ?_, fun x mem other elsewhere => ?_, ?_, fun own => ?_⟩
    · simpa only [finish_record] using first
    · simpa only [finish_record] using second
    · simpa only [finish_record] using spacer
    · simpa only [finish_record] using unknown
    · rw [finish_track_records]
      exact others x (acted.gone.kept x mem elsewhere) other (acted.gone.tags _ elsewhere)
    · exact ((acted.frame.widen (by decide)).trans ((missedEffect_frame _ _ u).widen (by decide))).trans
        ((finish_frame _).widen (by decide))
    · obtain ⟨outbox, sender, health, peers⟩ := ownFrame own
      have still : outboxStill u.link.outbox := fun x mem => by
        rw [outbox] at mem
        simpa using (List.mem_filter.mp mem).2
      refine ⟨(sending_none_iff _).mpr ((finish_steady _).still ((missedEffect_steady _ _ u).still still)), ?_, ?_, ?_⟩
      · rw [finish_link_lastSender, kept.link, sender]
      · rw [finish_link_health, kept.link, health]
      · rw [finish_peers, kept.frame .peers (by decide), peers]
  case events =>
    intro s h p d row
    obtain ⟨u, accepted, -, reached, -⟩ := missed_row (row.imp (fun ⟨hears, _, rest⟩ => ⟨hears, rest⟩) id)
    have reached : Reached s u h.time := reached (row.imp (fun ⟨_, knows, _⟩ => knows) (fun ⟨_, hears⟩ => by
      obtain ⟨-, -, own, -⟩ := hears
      exact own))
    have record := reached.record d.tag
    refine ⟨_, accepted, fun quiet => ?_, fun r held moves again => ?_⟩
    · have same : (missedEffect d.tag h.sender.toNat u).fifo = u.fifo
          ∧ (missedEffect d.tag h.sender.toNat u).bid = u.bid := by
        cases held : u.record d.tag with
        | none =>
          rw [missedEffect_unknown held]
          exact ⟨rfl, rfl⟩
        | some r =>
          by_cases spacer : r.state = .spacer
          · rw [missedEffect_spacer held spacer]
            exact ⟨rfl, rfl⟩
          · rw [missedEffect_first held spacer ((quiet r (record ▸ held)).resolve_left spacer)]
            exact ⟨rfl, rfl⟩
      refine ⟨?_, fun o own => finish_own ?_⟩
      · rw [finish_fifo, same.1]
        exact reached.frame .fifo (by decide)
      · rw [same.2, reached.own, own]
    · have held' : u.record d.tag = some r := record.trans held
      let v := raise (r.lost h.sender.toNat) u
      have told : v.fifo = s.withEvent (r.lost h.sender.toNat) := reached.withEvent _
      have effect := missedEffect_second held' moves again h.sender.toNat
      rw [finish_fifo, effect]
      refine ⟨fun none => ?_, fun o own fired same released => ?_, fun o own elsewhere unnamed => ?_⟩
      · have left := removeRecord_left (s := v) (reached.ownFixed (ownFixed_none none)) d.tag
        have none' : (removeRecord d.tag v).bid.own = Option.none := left.own.trans (reached.own.trans none)
        rw [unconfirm_elsewhere (ownIs_none none' _ _), left.frame .fifo (by decide), told]
      · have own' : v.bid.own = some o := reached.own.trans own
        have left := removeRecord_left (ownFixed_fired own' fired) d.tag
        rw [← same] at left ⊢
        obtain ⟨ended, events⟩ := unconfirm_fired (left.own.trans own') fired (by
          rw [left.frame .feed (by decide)]
          show (u.feed.positions.get o.serves).state ≠ _
          rwa [reached.frame .feed (by decide)]) 2
        refine ⟨finish_own_ne ended (by simp [fired]), events.trans ?_⟩
        have fifo : (removeRecord o.desc.tag v).fifo = v.fifo := left.frame .fifo (by decide)
        have store : (removeRecord o.desc.tag v).store = s.store :=
          (left.frame .store (by decide)).trans (reached.frame .store (by decide))
        unfold State.withEvent State.withEvents
        rw [fifo, store, told]
        rfl
      · have own' : v.bid.own = some o := reached.own.trans own
        have streams : v.outfeed = s.outfeed := reached.frame .outfeed (by decide)
        have dropped : removeRecord d.tag v = dropRecord d.tag v := removeRecord_unnamed (by
          rw [show v.record d.tag = some r from held']
          rfl) (by rw [streams]; exact unnamed)
        have kept : (dropRecord d.tag v).bid.own = some o := (dropRecord_own _ _).trans own'
        have apart : (dropRecord d.tag v).ownIs .fired d.tag = false := by
          unfold State.ownIs
          rw [kept, Bool.eq_false_iff]
          intro both
          simp only [Bool.and_eq_true, beq_iff_eq] at both
          exact elsewhere both.1 both.2
        rw [dropped, unconfirm_elsewhere apart]
        refine ⟨finish_own kept, ?_⟩
        rw [dropRecord_frame _ _ .fifo (by decide), told]

end Sys2Proof.Machine
end

section
/-! The obligation of RECALL and VOID, and what a removal leaves at the neighbours of the track list (R44, R72, R120, R140, R141). -/
namespace Sys2Proof.Machine

/-! ## The removal at the sampler and at the table under the eye -/

/-- The blocks that neither the plans nor the own bid reach stand as the tag's neighbours leave them (R53). -/
theorem dropRecord_forgets {s : State} {tag : Tag} (held : (s.record tag).isSome = true) :
    (dropRecord tag s).width = (widthForget tag s).width
      ∧ (dropRecord tag s).outfeed.underEye = s.outfeed.underEye.filter (fun e => e.tag != tag)
      ∧ (dropRecord tag s).bid.request = s.bid.request := by
  obtain ⟨r, held⟩ := Option.isSome_iff_exists.mp held
  let v := relieveTrack (s.setRecords (eraseTag tag s.track.records))
  have relieved : SameBut [.bid] (s.setRecords (eraseTag tag s.track.records)) v := relieveTrack_frame _
  have request : v.bid.request = s.bid.request := by
    show (relieveTrack _).bid.request = _
    unfold relieveTrack
    split <;> rfl
  have lost : ∀ t, (losePlaced tag t).outfeed.underEye = t.outfeed.underEye := fun t => by
    unfold losePlaced
    refine List.foldlRecOn (motive := fun w : State => w.outfeed.underEye = t.outfeed.underEye) four _ rfl (fun w same i _ => ?_)
    dsimp only
    split
    · exact same
    · exact same
  have noted : ∀ t, (noteChange r.desc.lanes t).outfeed.underEye = t.outfeed.underEye
      ∧ (noteChange r.desc.lanes t).bid.request = t.bid.request := fun t => by
    unfold noteChange
    dsimp only
    split <;> exact ⟨rfl, rfl⟩
  have width : v.width = s.width := relieved .width (by decide)
  have now : v.now = s.now := relieved .now (by decide)
  have outfeed : v.outfeed = s.outfeed := relieved .outfeed (by decide)
  unfold dropRecord
  rw [held]
  dsimp only
  refine ⟨?_, ?_, ?_⟩
  · rw [noteChange_frame _ _ .width (by decide), losePlaced_frame _ _ .width (by decide)]
    show (widthForget tag (discardSighting tag v)).width = _
    unfold widthForget
    simp only [State.setWidth_width]
    rw [show (discardSighting tag v).width = s.width from width, show (discardSighting tag v).now = s.now from now]
  · rw [(noted _).1, lost, ← outfeed]
    rfl
  · rw [(noted _).2, losePlaced_bid]
    exact request

/-- The pieces the sampler keeps at a removal, and those that leave it (R120; log 37). -/
theorem widthForget_width (tag : Tag) (s : State) :
    (widthForget tag s).width.last = s.width.last
      ∧ (widthForget tag s).width.pending = (if s.width.pending.any (fun p => p.tag == tag) = true then none else s.width.pending)
      ∧ ((∀ p, s.width.piece = some p → p.tag ≠ tag) → (widthForget tag s).width.piece = s.width.piece
          ∧ (widthForget tag s).width.phase = s.width.phase ∧ (widthForget tag s).width.sum = s.width.sum
          ∧ (widthForget tag s).width.due = s.width.due)
      ∧ (∀ p, s.width.piece = some p → p.tag = tag → s.width.phase = .armed →
          (widthForget tag s).width.piece = none ∧ (widthForget tag s).width.phase = .idle)
      ∧ (∀ p, s.width.piece = some p → p.tag = tag → s.width.phase = .converting →
          (widthForget tag s).width.piece = none ∧ (widthForget tag s).width.phase = .resting
            ∧ (widthForget tag s).width.sum = 0 ∧ (widthForget tag s).width.due = s.now + 2000) := by
  let w := if s.width.pending.any (fun p => p.tag == tag) then { s.width with pending := none } else s.width
  have forgotten : (widthForget tag s).width = if s.width.piece.any (fun p => p.tag == tag) then w.abandon s.now else w := rfl
  have pending : w.pending = if s.width.pending.any (fun p => p.tag == tag) = true then none else s.width.pending := by
    show (if _ then _ else _ : WidthSampler).pending = _
    split <;> rfl
  have others : w.last = s.width.last ∧ w.piece = s.width.piece ∧ w.phase = s.width.phase ∧ w.sum = s.width.sum
      ∧ w.due = s.width.due := by
    show (if _ then _ else _ : WidthSampler).last = _ ∧ (if _ then _ else _ : WidthSampler).piece = _
      ∧ (if _ then _ else _ : WidthSampler).phase = _ ∧ (if _ then _ else _ : WidthSampler).sum = _
      ∧ (if _ then _ else _ : WidthSampler).due = _
    split <;> exact ⟨rfl, rfl, rfl, rfl, rfl⟩
  obtain ⟨last, piece, phase, rest⟩ := others
  have abandoned : (w.abandon s.now).last = w.last ∧ (w.abandon s.now).pending = w.pending := by
    unfold WidthSampler.abandon
    split <;> exact ⟨rfl, rfl⟩
  have inHand : ∀ p, s.width.piece = some p → p.tag = tag → (widthForget tag s).width = w.abandon s.now :=
    fun p held same => by
      rw [forgotten, held]
      exact if_pos (by simpa using same)
  refine ⟨?_, ?_, fun other => ?_, fun p held same armed => ?_, fun p held same converting => ?_⟩
  · rw [forgotten]
    split
    · exact abandoned.1.trans last
    · exact last
  · rw [forgotten, ← pending]
    split
    · exact abandoned.2
    · rfl
  · have kept : (widthForget tag s).width = w := by
      rw [forgotten]
      refine if_neg (fun any => ?_)
      obtain ⟨p, held⟩ : ∃ p, s.width.piece = some p := by
        cases held : s.width.piece with
        | none => rw [held] at any; cases any
        | some p => exact ⟨p, rfl⟩
      rw [held] at any
      exact other p held (by simpa using any)
    rw [kept]
    exact ⟨piece, phase, rest⟩
  · rw [inHand p held same]
    unfold WidthSampler.abandon
    rw [phase, armed]
    exact ⟨rfl, rfl⟩
  · rw [inHand p held same]
    unfold WidthSampler.abandon
    rw [phase, converting]
    exact ⟨rfl, rfl, rfl, rfl⟩

/-! ## The requests withdrawn beside a bid that is not SETTLING -/

/-- The own bid, where there is one, is not SETTLING. -/
def State.unsettled (s : State) : Prop := ∀ o, s.bid.own = some o → o.state ≠ .settling

/-- The end of a held request withdraws a QUEUED bid through the outbox, and leaves the eye and the sampler (R96). -/
theorem endRequest_unsettled {s : State} (h : s.unsettled) (i : Fin 4) :
    SameBut [.bid, .feed, .link, .fifo] s (endRequest i s) ∧ (endRequest i s).unsettled := by
  unfold endRequest
  dsimp only
  let t := s.setBid { s.bid with request := none, retry := none }
  have before : SameBut [.bid, .feed, .link, .fifo] s t := (setBid_frame s _).widen (by decide)
  split
  · rename_i serves
    obtain ⟨o, own⟩ : ∃ o, t.bid.own = some o := by
      cases own : t.bid.own with
      | none =>
        rw [own] at serves
        cases serves
      | some o => exact ⟨o, rfl⟩
    have queued : o.state = .queued := by
      rw [own] at serves
      simp only [Option.any_some, Bool.and_eq_true, Bool.or_eq_true, beq_iff_eq] at serves
      exact serves.2.resolve_right (h o own)
    show SameBut _ s (recallOwn 11 none t) ∧ (recallOwn 11 none t).unsettled
    unfold recallOwn
    rw [own]
    dsimp only
    rw [queued]
    dsimp only
    split
    · exact ⟨before, h⟩
    · split
      · refine ⟨before.trans (((raise_frame _ t).widen (by decide)).trans ((markCancelling_frame o _).widen (by decide))), ?_⟩
        rintro _ ⟨rfl⟩
        rw [queued]
        nofun
      · refine ⟨before.trans (((raise_frame _ t).widen (by decide)).trans (((cancelBid_frame _).widen (by decide)).trans
          ((endOwn_frame _).widen (by decide)))), fun x held => ?_⟩
        rw [endOwn_own] at held
        cases held
  · exact ⟨before, h⟩

/-- A withdrawal moves the spacer of its own stream alone (R140). -/
theorem withdrawSpacer_unsettled {s : State} (h : s.unsettled) (i : Fin 4) :
    SameBut [.bid, .feed, .outfeed, .link, .fifo] s (withdrawSpacer i s) ∧ (withdrawSpacer i s).unsettled
      ∧ (withdrawSpacer i s).outfeed = (dropRequest i s).outfeed := by
  have dropped : SameBut [.outfeed] s (dropRequest i s) := dropRequest_frame i s
  have kept : (dropRequest i s).unsettled := h
  unfold withdrawSpacer
  dsimp only
  split
  · obtain ⟨frame, still⟩ := endRequest_unsettled kept i
    exact ⟨(dropped.widen (by decide)).trans (frame.widen (by decide)), still, frame .outfeed (by decide)⟩
  · exact ⟨dropped.widen (by decide), kept, rfl⟩

theorem dropRequest_spacer (i j : Fin 4) (s : State) : ((dropRequest i s).outfeed.streams.get j).spacer =
    if j = i then .none else (s.outfeed.streams.get j).spacer := by
  have streams : (dropRequest i s).outfeed.streams
      = s.outfeed.streams.set i { s.outfeed.streams.get i with spacer := .none } := rfl
  rw [streams]
  by_cases same : j = i
  · subst same
    rw [Quad.get_set_self, if_pos rfl]
  · rw [Quad.get_set_of_ne _ same, if_neg same]

/-- The end piece of a request is gone: the spacers that name it are withdrawn, and no other moves (R140). -/
theorem endPieceGone_unsettled (tag : Tag) {s : State} (h : s.unsettled) :
    SameBut [.bid, .feed, .outfeed, .link, .fifo] s (endPieceGone tag s)
      ∧ (endPieceGone tag s).outfeed.underEye = s.outfeed.underEye
      ∧ ∀ j, ((endPieceGone tag s).outfeed.streams.get j).spacer =
          if (s.outfeed.streams.get j).spacer = .requested (some tag) then .none else (s.outfeed.streams.get j).spacer := by
  have fold : ∀ (l : List (Fin 4)) (t : State), t.unsettled → ∀ w, l.foldl (fun t i =>
      if (t.outfeed.streams.get i).spacer = .requested (some tag) then withdrawSpacer i t else t) t = w →
      SameBut [.bid, .feed, .outfeed, .link, .fifo] t w ∧ w.outfeed.underEye = t.outfeed.underEye
        ∧ ∀ j, (w.outfeed.streams.get j).spacer =
          if j ∈ l ∧ (t.outfeed.streams.get j).spacer = .requested (some tag) then .none
          else (t.outfeed.streams.get j).spacer := by
    intro l
    induction l with
    | nil =>
      rintro t - w rfl
      exact ⟨.refl _ t, rfl, by simp⟩
    | cons i l ih =>
      intro t still w run
      rw [List.foldl_cons] at run
      by_cases named : (t.outfeed.streams.get i).spacer = .requested (some tag)
      · obtain ⟨frame, still', outfeed⟩ := withdrawSpacer_unsettled still i
        rw [if_pos named] at run
        obtain ⟨later, underEye, spacers⟩ := ih _ still' w run
        refine ⟨frame.trans later, underEye.trans (by rw [outfeed]; rfl), fun j => ?_⟩
        rw [spacers, outfeed, dropRequest_spacer]
        by_cases same : j = i
        · subst same
          simp [named]
        · simp [same]
      · rw [if_neg named] at run
        obtain ⟨later, underEye, spacers⟩ := ih _ still w run
        refine ⟨later, underEye, fun j => ?_⟩
        rw [spacers]
        by_cases same : j = i
        · subst same
          simp [named]
        · simp [same]
  obtain ⟨frame, underEye, spacers⟩ := fold four s h _ rfl
  have all : ∀ j : Fin 4, j ∈ four := by decide
  exact ⟨frame, underEye, fun j => (spacers j).trans (by simp only [all, true_and])⟩

/-! ## The plan names a record of the list -/

theorem planWalk_mem {c : Nat × Nat} {size : Nat} {tag : Tag} : ∀ {l : List Record} {sum : Nat},
    planWalk c size sum l = some tag → ∃ r ∈ l, r.desc.tag = tag
  | [], _, found => nomatch found
  | r :: l, sum, found => by
    have later : ∀ {n}, planWalk c size n l = some tag → ∃ x ∈ r :: l, x.desc.tag = tag := fun found => by
      obtain ⟨x, mem, same⟩ := planWalk_mem found
      exact ⟨x, List.mem_cons_of_mem _ mem, same⟩
    unfold planWalk at found
    split at found
    · cases found
    · split at found
      · split at found
        · split at found
          · exact ⟨r, List.mem_cons_self, Option.some.inj found⟩
          · exact later found
        · cases found
      · exact later found

theorem finish_setup_streams {s : State} (setup : s.station = .setup) : (finish s).outfeed.streams = s.outfeed.streams := by
  have handed : (handRequest (planStreams s)).outfeed.streams = (planStreams s).outfeed.streams := by
    unfold handRequest
    split <;> rfl
  refine (congrArg OutfeedDirector.streams (reconsider_frame _ .outfeed (by decide))).trans (handed.trans ?_)
  unfold planStreams
  rw [if_pos setup]

/-- A stream without a spacer has none at the end of the step, or a requested one about no tag but that of a record (R139). -/
theorem finish_spacer_of_none {s : State} {i : Fin 4} (h : (s.outfeed.streams.get i).spacer = .none) {tag : Tag}
    (gone : s.record tag = none) : ((finish s).outfeed.streams.get i).spacer ≠ .requested (some tag)
      ∧ ((finish s).outfeed.streams.get i).spacer ≠ .placed tag := by
  have unplanned : (s.outfeed.streams.get i).spacer ≠ .requested (some tag) ∧ (s.outfeed.streams.get i).spacer ≠ .placed tag := by
    rw [h]
    exact ⟨nofun, nofun⟩
  by_cases setup : s.station = .setup
  · have settled : (finish s).outfeed.streams = s.outfeed.streams := finish_setup_streams setup
    rwa [settled]
  · rw [finish_stream s i setup]
    split
    · unfold State.plannedStream
      split
      · rename_i e planned
        refine ⟨fun named => ?_, nofun⟩
        obtain rfl : e = some tag := SpacerState.requested.inj named
        unfold State.plan at planned
        dsimp only at planned
        split at planned
        · cases planned
        · split at planned
          · cases planned
          · split at planned
            · cases planned
            · obtain ⟨t, walked, same⟩ := Option.map_eq_some_iff.mp planned
              obtain ⟨r, mem, carries⟩ := planWalk_mem (walked.trans same)
              have here := List.find?_eq_none.mp gone r (List.mem_filter.mp mem).1
              exact here (by simpa using carries)
      · exact unplanned
    · exact unplanned

/-! ## The withdrawal of the request that the bid engine holds -/

theorem endOwn_request (s : State) : (endOwn s).bid.request = s.bid.request := by
  unfold endOwn
  split
  · rfl
  · unfold releasePosition
    dsimp only
    split
    · split <;> rfl
    · rfl

theorem recallOwn_request {s : State} {o : OwnBid} (own : s.bid.own = some o) (code : Nat) (a : Option Int) :
    (recallOwn code a s).bid.request = s.bid.request := by
  by_cases landing : o.state = .settling ∨ o.state = .granted
  · have sent : SameBut [.link, .fifo] s (enqueue (.recall o.desc.tag) s) :=
      enqueueFirst_unfired _ s (fun x held => by
        rw [own] at held
        cases held
        exact landing_unfired landing)
    rw [recallOwn_landing own landing]
    show (endOwn _).bid.request = _
    rw [endOwn_request]
    unfold dropOwnRecord
    split
    · rename_i mine
      rw [(dropRecord_forgets (by
        cases held : (enqueue (.recall o.desc.tag) s).record o.desc.tag with
        | none =>
          rw [held] at mine
          cases mine
        | some r => rfl)).2.2, sent .bid (by decide)]
    · rw [sent .bid (by decide)]
  · unfold recallOwn
    rw [own]
    dsimp only
    split
    · split
      · rfl
      · split
        · rfl
        · exact endOwn_request _
    · rename_i settling
      exact absurd (.inl settling) landing
    · rename_i granted
      exact absurd (.inr granted) landing
    · rfl

/-- The streams of a list that the bid engine holds no request for: no more than the outfeed is written (R140). -/
theorem withdrawList_others (tag : Tag) : ∀ (l : List (Fin 4)) (s : State),
    (∀ i ∈ l, s.bid.request.any (fun r => r.stream == i) = false) →
    SameBut [.outfeed] s (l.foldl (fun t i =>
        if (t.outfeed.streams.get i).spacer = .requested (some tag) then withdrawSpacer i t else t) s)
      ∧ ∀ j, j ∉ l → ((l.foldl (fun t i =>
        if (t.outfeed.streams.get i).spacer = .requested (some tag) then withdrawSpacer i t else t) s).outfeed.streams.get j).spacer
          = (s.outfeed.streams.get j).spacer
  | [], s, _ => ⟨.refl _ s, fun _ _ => rfl⟩
  | i :: l, s, others => by
    let t := if (s.outfeed.streams.get i).spacer = .requested (some tag) then withdrawSpacer i s else s
    have withdrawn : withdrawSpacer i s = dropRequest i s := if_neg (by
      show ¬ (s.bid.request.any (fun r => r.stream == i)) = true
      rw [others i List.mem_cons_self]
      decide)
    have step : SameBut [.outfeed] s t ∧ ∀ j, j ≠ i → (t.outfeed.streams.get j).spacer = (s.outfeed.streams.get j).spacer := by
      by_cases named : (s.outfeed.streams.get i).spacer = .requested (some tag)
      · rw [show t = dropRequest i s from (if_pos named).trans withdrawn]
        exact ⟨dropRequest_frame i s, fun j other => by rw [dropRequest_spacer, if_neg other]⟩
      · rw [show t = s from if_neg named]
        exact ⟨.refl _ s, fun _ _ => rfl⟩
    obtain ⟨frame, rest⟩ := withdrawList_others tag l t (fun k mem => by
      rw [step.1 .bid (by decide)]
      exact others k (List.mem_cons_of_mem _ mem))
    rw [List.foldl_cons]
    exact ⟨step.1.trans frame, fun j apart =>
      (rest j (fun mem => apart (List.mem_cons_of_mem _ mem))).trans (step.2 j (fun same => apart (same ▸ List.mem_cons_self)))⟩

/-- The held request names the piece that is gone, and its bid is QUEUED or SETTLING: the bid is recalled, and no other (R96,
R140). -/
theorem endPieceGone_recalls {s : State} {tag : Tag} {q : SpacerRequest} {o : OwnBid} (request : s.bid.request = some q)
    (named : (s.outfeed.streams.get q.stream).spacer = .requested (some tag)) (own : s.bid.own = some o)
    (serves : o.serves = q.stream) (bidding : o.state = .queued ∨ o.state = .settling) :
    ∃ v, SameBut [.bid, .outfeed] s v ∧ v.bid.own = some o
      ∧ SameBut [.outfeed] (recallOwn 11 none v) (endPieceGone tag s) := by
  have mem : q.stream ∈ four := by
    generalize q.stream = i
    revert i
    decide
  obtain ⟨before, behind, split, first⟩ := List.eq_append_cons_of_mem mem
  let step : State → Fin 4 → State := fun t i =>
    if (t.outfeed.streams.get i).spacer = .requested (some tag) then withdrawSpacer i t else t
  let w := before.foldl step s
  obtain ⟨earlier, spacers⟩ := withdrawList_others tag before s (fun i there => by
    rw [request]
    refine beq_eq_false_iff_ne.mpr (fun same => first ?_)
    rwa [same])
  have bid : w.bid = s.bid := earlier .bid (by decide)
  have dropped : SameBut [.outfeed] w (dropRequest q.stream w) := dropRequest_frame _ _
  let v := (dropRequest q.stream w).setBid { w.bid with request := none, retry := none }
  have live : v.bid.own = some o := (congrArg BidEngine.own bid).trans own
  have here : step w q.stream = recallOwn 11 none v := by
    have held : (dropRequest q.stream w).bid = w.bid := dropped .bid (by decide)
    show (if (w.outfeed.streams.get q.stream).spacer = _ then withdrawSpacer q.stream w else w) = _
    rw [if_pos ((spacers _ first).trans named)]
    unfold withdrawSpacer
    dsimp only
    rw [held, bid, request, if_pos (by simp)]
    unfold endRequest
    dsimp only
    rw [held, show ((dropRequest q.stream w).setBid { w.bid with request := none, retry := none }).bid.own = some o from live]
    refine if_pos ?_
    show (o.serves == q.stream && (o.state == .queued || o.state == .settling)) = true
    rcases bidding with state | state <;> simp [serves, state]
  have emptied : (recallOwn 11 none v).bid.request = none := (recallOwn_request live 11 none).trans rfl
  have later := (withdrawList_others tag behind (recallOwn 11 none v) (fun i _ => by rw [emptied]; rfl)).1
  refine ⟨v, (earlier.widen (by decide)).trans ((dropped.widen (by decide)).trans ((setBid_frame _ _).widen (by decide))), live, ?_⟩
  have run : endPieceGone tag s = behind.foldl step (step w q.stream) := by
    show four.foldl step s = _
    rw [split, List.foldl_append, List.foldl_cons]
  rw [run, here]
  exact later

/-! ## RECALL and VOID -/

/-- The row of a peer's RECALL or VOID. -/
theorem withdraw_heard {s : State} {h : Heard} {tag : Tag} {c : Instr}
    (row : (c = .recall h [tag.owner, tag.seq] ∧ s.hears h .recall) ∨ (c = .void h [tag.owner, tag.seq] ∧ s.hears h .void)) :
    ∃ u, exec c s = .next (finish (withdrawEffect tag h.sender.toNat u)) ∧ ActedOn s u h.time
      ∧ (s.knows h.sender.toNat → Reached s u h.time ∧ u.link.outbox = s.link.outbox) := by
  obtain ⟨k, hears, length, taken⟩ : ∃ k, s.hears h k ∧ 2 = payloadLength k ∧ exec c s = .next (accept h k [tag.owner, tag.seq]
      (some tag) none (withdrawEffect tag h.sender.toNat) s) := by
    rcases row with ⟨rfl, hears⟩ | ⟨rfl, hears⟩
    · exact ⟨_, hears, rfl, rfl⟩
    · exact ⟨_, hears, rfl, rfl⟩
  rw [taken]
  by_cases knows : s.knows h.sender.toNat
  · obtain ⟨u, accepted, reached, outbox⟩ := accept_known hears knows (payload := [tag.owner, tag.seq]) length (some tag)
      (withdrawEffect tag h.sender.toNat)
    exact ⟨u, congrArg Host.Outcome.next accepted, reached.actedOn, fun _ => ⟨reached, outbox⟩⟩
  · exact ⟨_, congrArg Host.Outcome.next (accept_hears hears (payload := [tag.owner, tag.seq]) length (some tag)
      none _), hearing_actedOn h.sender.toNat none h.time s,
      fun known => absurd known knows⟩

/-- The row of the station's own RECALL or VOID, accepted. -/
theorem withdraw_own {s : State} {h : Heard} {tag : Tag} {c : Instr}
    (row : (c = .recall h [tag.owner, tag.seq] ∧ s.hearsOwn h (.recall tag) [tag.owner, tag.seq]) ∨
      (c = .void h [tag.owner, tag.seq] ∧ s.hearsOwn h (.void tag) [tag.owner, tag.seq])) :
    ∃ u, exec c s = .next (finish (withdrawEffect tag s.number u)) ∧ Reached s u h.time
      ∧ u.link.outbox = s.link.outbox.filter (fun e => !e.sending) ∧ u.link.lastSender = some s.number
      ∧ SameBut [.now, .line, .link] s u := by
  rcases row with ⟨rfl, hears⟩ | ⟨rfl, hears⟩
  all_goals
    obtain ⟨u, accepted, reached, outbox, sender, -, frame⟩ := accept_own hears (withdrawEffect tag h.sender.toNat)
    exact ⟨u, congrArg Host.Outcome.next (accepted.trans (congrArg (fun n => finish (withdrawEffect tag n u)) reached.number)),
      reached, outbox, sender, frame⟩

theorem withdrawEffect_owner {tag : Tag} {n : Nat} (owner : tag.owner.toNat = n) (s : State) :
    withdrawEffect tag n s = removeRecord tag s := if_pos owner

theorem withdrawEffect_stranger {tag : Tag} {n : Nat} (stranger : tag.owner.toNat ≠ n) (s : State) :
    withdrawEffect tag n s = s := if_neg stranger

/-- What a withdrawal takes from the list: no more than the tag's record and that of an own bid (R44). -/
theorem withdrawEffect_list (tag : Tag) (n : Nat) (s : State) :
    (∀ x ∈ (withdrawEffect tag n s).track.records, x ∈ s.track.records)
      ∧ (∀ x ∈ s.track.records, x.desc.tag ≠ tag → s.ownElsewhere x.desc.tag →
        x ∈ (withdrawEffect tag n s).track.records) := by
  by_cases owner : tag.owner.toNat = n
  · rw [withdrawEffect_owner owner]
    obtain ⟨sub, -, kept⟩ := removeRecord_spec tag s
    exact ⟨fun x mem => (sub x mem).1, kept⟩
  · rw [withdrawEffect_stranger owner]
    exact ⟨fun _ mem => mem, fun _ mem _ _ => mem⟩

/-- A withdrawal of the held request's end piece recalls the bid for its spacer (R96, R140). -/
theorem removeRecord_recalls {s u : State} {time : Nat} {tag : Tag} {q : SpacerRequest} {o : OwnBid} (reached : Reached s u time)
    (outbox : u.link.outbox = s.link.outbox) (held : (s.record tag).isSome = true) (request : s.bid.request = some q)
    (named : (s.outfeed.streams.get q.stream).spacer = .requested (some tag)) (own : s.bid.own = some o)
    (serves : o.serves = q.stream) (apart : o.desc.tag ≠ tag) (unmarked : (s.feed.positions.get o.serves).unloading = false)
    (bidding : o.state = .queued ∨ o.state = .settling) :
    ∃ v, v.bid.own = some o ∧ SameBut [.outfeed] (recallOwn 11 none v) (removeRecord tag u)
      ∧ v.withoutOwn o.desc.tag = s.withoutOwn o.desc.tag ∧ (v.roomFirst ↔ s.roomFirst) ∧ (v.bidWaits ↔ s.bidWaits)
      ∧ (∀ e, v.withEvent e = s.withEvent e) ∧ (v.feed.positions.get o.serves).unloading = false := by
  have held' : (u.record tag).isSome = true := by rwa [reached.record]
  have requested : (dropRecord tag u).bid.request = some q := by
    rw [(dropRecord_forgets held').2.2, reached.bid]
    exact request
  have outfeed : u.outfeed = s.outfeed := reached.frame .outfeed (by decide)
  obtain ⟨v, frame, live, rest⟩ := endPieceGone_recalls requested (by
    rw [dropRecord_spacer held', outfeed, named, if_neg nofun]) ((dropRecord_own _ _).trans (reached.own.trans own)) serves bidding
  have dropped : SameBut [.track, .eye, .bid, .width, .outfeed] u (dropRecord tag u) := dropRecord_frame tag u
  have link : v.link = u.link := (frame .link (by decide)).trans (dropped .link (by decide))
  have record : v.record o.desc.tag = s.record o.desc.tag :=
    ((record_congr (congrArg TrackList.records (frame .track (by decide))) _).trans (dropRecord_other tag _ apart u)).trans
      (reached.record _)
  have feed : v.feed = s.feed :=
    ((frame .feed (by decide)).trans (dropped .feed (by decide))).trans (reached.frame .feed (by decide))
  refine ⟨v, live, rest, ?_, ?_, ?_, fun e => ?_, ?_⟩
  · unfold State.withoutOwn
    rw [record]
  · exact roomFirst_of_lists (by rw [link, outbox]) (by rw [link, reached.waiting])
  · exact bidWaits_of_lists (by rw [link, outbox]) (by rw [link, reached.waiting])
  · refine withEvent_congr ?_ ?_ e
    · exact ((frame .fifo (by decide)).trans (dropped .fifo (by decide))).trans (reached.frame .fifo (by decide))
    · exact ((frame .store (by decide)).trans (dropped .store (by decide))).trans (reached.frame .store (by decide))
  · rwa [feed]

/-- Settles O40: the owner's RECALL and VOID remove a record, and the neighbours of the list forget it. -/
theorem ownerWithdrawsRecord : Obligations.OwnerWithdrawsRecord := by
  refine ⟨?peer, ?own, ?neighbours, ?request⟩
  case peer =>
    intro s h tag c row
    obtain ⟨u, taken, acted, -⟩ := withdraw_heard row
    obtain ⟨sub, kept⟩ := withdrawEffect_list tag h.sender.toNat u
    refine ⟨_, taken, fun owner => ?_, fun stranger elsewhere => ?_, fun x mem => ?_, fun x mem other elsewhere => ?_, ?_⟩
    · rw [finish_record, withdrawEffect_owner owner]
      exact removeRecord_self tag u
    · rw [finish_record, withdrawEffect_stranger stranger]
      exact acted.gone.record tag elsewhere
    · rw [finish_track_records] at mem
      exact acted.gone.sub.subset (sub x mem)
    · rw [finish_track_records]
      exact kept x (acted.gone.kept x mem elsewhere) other (acted.gone.tags _ elsewhere)
    · exact ((acted.frame.widen (by decide)).trans ((withdrawEffect_frame _ _ u).widen (by decide))).trans
        ((finish_frame _).widen (by decide))
  case own =>
    intro s h tag c row
    obtain ⟨u, taken, reached, outbox, sender, frame⟩ := withdraw_own row
    obtain ⟨sub, kept⟩ := withdrawEffect_list tag s.number u
    have track : u.track = s.track := reached.frame .track (by decide)
    obtain ⟨l, more, fresh⟩ := (finish_keeps (withdrawEffect tag s.number u)).outbox
    have steady := withdrawEffect_steady tag s.number u
    have still : outboxStill u.link.outbox := fun x mem => by
      rw [outbox] at mem
      simpa using (List.mem_filter.mp mem).2
    refine ⟨_, l, taken, fresh, fun owner => ?_, fun stranger => ?_, fun x mem => ?_, fun x mem other elsewhere => ?_,
      fun none => ?_, ?_, ?_, ?_⟩
    · rw [finish_record, withdrawEffect_owner owner]
      exact removeRecord_self tag u
    · rw [finish_track_records, withdrawEffect_stranger stranger, track]
    · rw [finish_track_records] at mem
      rw [← track]
      exact sub x mem
    · rw [finish_track_records]
      refine kept x (by rwa [track]) other (fun o own => elsewhere o ?_)
      rwa [← reached.own]
    · have left : SameBut [.track, .eye, .bid, .width, .outfeed] u (withdrawEffect tag s.number u) := by
        unfold withdrawEffect
        split
        · exact (removeRecord_left (ownFixed_none (reached.own.trans none)) tag).frame
        · exact .refl _ u
      rw [more, finish_fifo, left .link (by decide), left .fifo (by decide), outbox]
      exact ⟨rfl, frame .fifo (by decide)⟩
    · exact (sending_none_iff _).mpr ((finish_steady _).still (steady.still still))
    · rw [finish_link_lastSender, (withdrawEffect_heardKept tag s.number u).link, sender]
    · exact ((frame.widen (by decide)).trans ((withdrawEffect_frame _ _ u).widen (by decide))).trans
        ((finish_frame _).widen (by decide))
  case neighbours =>
    intro s h tag c row owner held knows unsettled
    obtain ⟨u, taken, -, known⟩ := withdraw_heard row
    obtain ⟨reached, -⟩ := known knows
    have held' : (u.record tag).isSome = true := by rwa [reached.record]
    let w := dropRecord tag u
    have calm : w.unsettled := fun o own => unsettled o (by rw [← reached.own, ← dropRecord_own]; exact own)
    obtain ⟨frame, underEye, spacers⟩ := endPieceGone_unsettled tag calm
    obtain ⟨width, table, -⟩ := dropRecord_forgets held'
    have eye : (finish (removeRecord tag u)).eye = (dropRecord tag u).eye := by
      rw [finish_eye]
      exact frame .eye (by decide)
    have sampler : (finish (removeRecord tag u)).width = (widthForget tag u).width := by
      rw [finish_width, ← width]
      exact frame .width (by decide)
    have unchanged : u.eye = s.eye ∧ u.width = s.width ∧ u.outfeed = s.outfeed :=
      ⟨reached.frame .eye (by decide), reached.frame .width (by decide), reached.frame .outfeed (by decide)⟩
    obtain ⟨eyes, sampler', outfeed⟩ := unchanged
    obtain ⟨last, pending, stands, armed, converting⟩ := widthForget_width tag u
    rw [sampler', ← sampler] at last pending stands armed converting
    have dropped := dropRecord_eye tag u
    rw [if_pos held', ← eye, eyes] at dropped
    have spacer : ∀ i, ((removeRecord tag u).outfeed.streams.get i).spacer =
        if (s.outfeed.streams.get i).spacer = .placed tag ∨ (s.outfeed.streams.get i).spacer = .requested (some tag) then .none
        else (s.outfeed.streams.get i).spacer := fun i => by
      refine (spacers i).trans ?_
      rw [dropRecord_spacer held', outfeed]
      by_cases placed : (s.outfeed.streams.get i).spacer = .placed tag
      · simp [placed]
      · simp [placed]
    have gone : (removeRecord tag u).record tag = none := removeRecord_self tag u
    rw [withdrawEffect_owner owner] at taken
    refine ⟨_, taken, by rw [dropped], by rw [dropped], ?_, last, pending, stands, armed, fun p inHand same phase => ?_,
      fun i placed => ?_, fun i named => ?_, fun i notPlaced notNamed some => ?_⟩
    · rw [finish_outfeed_underEye]
      exact underEye.trans (by rw [table, outfeed])
    · have rests := converting p inHand same phase
      rwa [reached.now] at rests
    · exact (finish_spacer_of_none (by rw [spacer, if_pos (.inl placed)]) gone).2
    · exact (finish_spacer_of_none (by rw [spacer, if_pos (.inr named)]) gone).1
    · have stood := spacer i
      rw [if_neg (not_or.mpr ⟨notPlaced, notNamed⟩)] at stood
      rw [finish_stream_of_spacer (by rwa [stood]), stood]
  case request =>
    intro s h tag c o q row owner held knows request named own serves apart unmarked
    obtain ⟨u, taken, -, known⟩ := withdraw_heard row
    obtain ⟨reached, outbox⟩ := known knows
    rw [withdrawEffect_owner owner] at taken
    refine ⟨fun settling => ?_, fun queued live => ?_⟩
    · obtain ⟨v, live, rest, without, room, -, event, still⟩ := removeRecord_recalls reached outbox held request named own serves
        apart unmarked (.inr settling)
      have recalled := recallOwn_recalled live (.inl settling) 11 none
      have bid : (removeRecord tag u).bid.own = none := by
        rw [rest .bid (by decide)]
        exact recalled.own
      refine ⟨_, taken, finish_own_ne bid (by simp [settling]), ?_, fun free => ⟨?_, ?_⟩⟩
      · rw [finish_record, record_congr (congrArg TrackList.records (rest .track (by decide))), recalled.record, without]
      · refine mem_finish_outbox ?_
        rw [rest .link (by decide)]
        exact recalled.outbox (room.mpr free)
      · rw [finish_fifo, rest .fifo (by decide), recalled.fifo (room.mpr free) still, event]
        rfl
    · obtain ⟨v, held, rest, -, -, waits, event, still⟩ := removeRecord_recalls reached outbox held request named own serves
        apart unmarked (.inl queued)
      refine ⟨_, taken, ?_, fun sending => finish_own ?_⟩
      · rw [finish_fifo, rest .fifo (by decide), recallOwn_queued_fifo held queued live (.inl still), event]
      · rw [rest .bid (by decide), recallOwn_sending held queued live (waits.not.mpr sending)]
        rfl

end Sys2Proof.Machine
end

section
/-! The obligation of a peer's BID beside the own bid, and what a beaten bid leaves (R89 to R91, R99). -/
namespace Sys2Proof.Machine

/-! ## The beaten bid (R91, R99) -/

/-- From `s` to `t` the SETTLING own bid `o` has been beaten by a bid of station `owner`, with a code (R91, R99). -/
structure Beaten (s t : State) (o : OwnBid) (owner code : Nat) : Prop where
  own : t.bid.own = none
  passedOver : t.bid.passedOver = if s.run.line.limit ≤ s.bid.passedOver then s.bid.passedOver else s.bid.passedOver + 1
  record : t.record o.desc.tag = s.withoutOwn o.desc.tag
  outbox : s.roomFirst → Entry.fresh (.recall o.desc.tag) ∈ t.link.outbox
  fifo : s.roomFirst → (s.feed.positions.get o.serves).unloading = false →
    t.fifo = s.withEvent { kind := .beaten, tag := some o.desc.tag, article := some o.desc.article, lot := some o.desc.lot
                           a := some owner, b := some t.bid.passedOver, code := some code }

theorem beaten_spec {s : State} {o : OwnBid} (own : s.bid.own = some o) (settling : o.state = .settling) (owner code : Nat) :
    Beaten s (beaten o owner code s) o owner code := by
  let n := if s.run.line.limit ≤ s.bid.passedOver then s.bid.passedOver else s.bid.passedOver + 1
  let v := s.setBid { s.bid with passedOver := n }
  let x := dropOwnRecord o.desc.tag (enqueue (.recall o.desc.tag) v)
  have recalled : Recalled v (recallOwn 7 none v) o 7 none := recallOwn_recalled (s := v) own (.inl settling) 7 none
  rw [recallOwn_landing (s := v) own (.inl settling)] at recalled
  obtain ⟨still, feed, store, -, room⟩ := recallLanding_spec v o own (by rw [settling]; nofun)
  refine ⟨recalled.own, recalled.passedOver, recalled.record, recalled.outbox, fun free unmarked => ?_⟩
  have quiet : (endOwn x).fifo = s.fifo := (endOwn_fifo x (fun held live => by
    rw [still] at live
    cases live
    rw [feed]
    exact unmarked)).trans (room free).2
  have passed : (beaten o owner code s).bid.passedOver = n := recalled.passedOver
  rw [passed]
  exact withEvent_congr quiet ((endOwn_frame x .store (by decide)).trans store) _

/-! ## A record that bumps none -/

/-- A record that is neither SEEN nor STRAY bumps no bid (R88, R94). -/
theorem recheck_unseen {s : State} {tag : Tag} (h : ∀ r, s.record tag = some r → r.state ≠ .seen ∧ r.state ≠ .stray) :
    recheck tag s = s := by
  unfold recheck
  split
  · rename_i r _ held
    obtain ⟨seen, stray⟩ := h r held
    exact if_neg (fun both => by
      have conflicts := both.2
      unfold bumps at conflicts
      simp [seen, stray] at conflicts)
  · rfl

theorem noteChange_bid (lanes : Lanes) (s : State) : (noteChange lanes s).bid = { s.bid with changed := true } := by
  unfold noteChange
  dsimp only
  split <;> rfl

theorem bidRecord_unseen (d : Desc) (tl : Count) (n : Nat) (own passed : Bool) :
    (bidRecord d tl n own passed).state ≠ .seen ∧ (bidRecord d tl n own passed).state ≠ .stray := by
  show (if _ then _ else _) ≠ _ ∧ (if _ then _ else _) ≠ _
  split
  · exact ⟨nofun, nofun⟩
  · exact ⟨nofun, nofun⟩

/-- The state with a new record in its place, handed on as a change (R33, R53). -/
def State.joined (s : State) (r : Record) : State :=
  noteChange r.desc.lanes (s.setRecords (insertRecord r s.track.records))

theorem joined_frame (r : Record) (s : State) : SameBut [.track, .bid, .outfeed] s (s.joined r) :=
  (setRecords_frame s _).then (noteChange_frame _ _) (by decide) (by decide)

theorem joined_record {s : State} {r : Record} (fresh : s.record r.desc.tag = none) (u : Tag) :
    (s.joined r).record u = if r.desc.tag = u then some r else s.record u :=
  (record_congr (congrArg TrackList.records (noteChange_frame _ _ .track (by decide))) u).trans (inserted_record fresh u)

theorem joined_bid (r : Record) (s : State) : (s.joined r).bid = { s.bid with changed := true } := noteChange_bid _ _

theorem joined_same {s : State} {r : Record} (fresh : s.record r.desc.tag = none) {o : OwnBid} (other : r.desc.tag ≠ o.desc.tag) :
    RecallSame o s (s.joined r) := by
  have kept := joined_record fresh o.desc.tag
  rw [if_neg other] at kept
  have frame := joined_frame r s
  exact ⟨kept, by rw [joined_bid], frame .link (by decide), frame .fifo (by decide), frame .store (by decide),
    congrArg FeedSequencer.positions (frame .feed (by decide))⟩

theorem insertNew_unseen {s : State} {r : Record} (fresh : s.record r.desc.tag = none) (unseen : r.state ≠ .seen ∧ r.state ≠ .stray) :
    insertNew r s = s.joined r :=
  recheck_unseen (fun x held => by
    have here := joined_record fresh r.desc.tag
    rw [if_pos rfl] at here
    obtain rfl : r = x := Option.some.inj (here.symm.trans held)
    exact unseen)

/-! ## A peer's BID (R40, R89, R90) -/

/-- The rival that a peer's BID is, accepted at a time (R89). -/
def Desc.rival (d : Desc) (time : Nat) : Rival := { tag := d.tag, rank := d.rank, accepted := time }

theorem bidEffect_new {s : State} {d : Desc} (fresh : s.record d.tag = none) (room : s.track.records.length < 64) (tl : Count)
    (n : Nat) : bidEffect d tl n s = judgePeerBid (d.rival s.now) (enterRival (d.rival s.now)
      (s.joined (bidRecord d tl n false (s.passedAtFiling n tl)))) := by
  let r := bidRecord d tl n false (s.passedAtFiling n tl)
  have filed : fileRecord r 1 s = s.joined r := by
    unfold fileRecord
    rw [show s.record r.desc.tag = none from fresh]
    dsimp only
    rw [if_pos (show s.track.records.length < Config.trackCapacity from room), insertNew_unseen fresh (bidRecord_unseen ..)]
  unfold bidEffect
  dsimp only
  rw [filed, joined_frame r s .now (by decide)]
  rfl

/-- A bid that is not SETTLING is not judged (R90). -/
theorem judgePeerBid_unsettled {s : State} (h : ∀ o, s.bid.own = some o → o.state ≠ .settling) (y : Rival) :
    judgePeerBid y s = s := by
  unfold judgePeerBid
  split
  · rename_i o own
    exact if_neg (h o own)
  · rfl

theorem judgePeerBid_settling {s : State} {o : OwnBid} (own : s.bid.own = some o) (settling : o.state = .settling) (y : Rival) :
    judgePeerBid y s = match s.beatCode o y with | some c => beaten o y.tag.owner.toNat c s | none => s := by
  unfold judgePeerBid
  rw [own]
  exact if_pos settling

theorem enterRival_queued {s : State} {o : OwnBid} (own : s.bid.own = some o) (queued : o.state = .queued) (y : Rival) :
    enterRival y s = s.setBid { s.bid with rivals := s.bid.rivals.filter (fun r => r.tag.owner != y.tag.owner) ++ [y] } := by
  unfold enterRival
  rw [own]
  exact if_pos queued

theorem enterRival_unqueued {s : State} (h : ∀ o, s.bid.own = some o → o.state ≠ .queued) (y : Rival) : enterRival y s = s := by
  unfold enterRival
  split
  · rename_i o own
    exact if_neg (h o own)
  · rfl

/-- The row of a peer's BID of a known peer. -/
theorem bid_known {s : State} {h : Heard} {p : List Byte} {d : Desc} (hears : s.hears h .bid) (length : p.length = 16)
    (read : readBid s.run.lineLanes h.sender.toNat (placedAt p).desc = some d) (knows : s.knows h.sender.toNat) :
    ∃ u, exec (.bid h p) s = .next (finish (bidEffect d (plus s.line.count (placedAt p).distance.toInt) h.sender.toNat u))
      ∧ Reached s u h.time ∧ u.link.outbox = s.link.outbox := by
  obtain ⟨u, accepted, reached, outbox⟩ := accept_known hears knows length (some (placedAt p).desc.tag) (fun t =>
    match readBid t.run.lineLanes h.sender.toNat (placedAt p).desc with
    | some d => bidEffect d (t.carriedTl (placedAt p)) h.sender.toNat t
    | none => t)
  refine ⟨u, congrArg Host.Outcome.next (accepted.trans ?_), reached, outbox⟩
  rw [reached.frame .run (by decide), read]
  dsimp only
  unfold State.carriedTl
  rw [reached.count]

/-- Two states that a peer's BID is judged alike in, with its record in the list. -/
theorem beatCode_joined {s u : State} {d : Desc} {time : Nat} (reached : Reached s u time) (fresh : s.record d.tag = none)
    {r : Record} (desc : r.desc = d) (o : OwnBid) (y : Rival) (tag : y.tag = d.tag) :
    (u.joined r).beatCode o y = if conflict s.run (r.span s.line.highWater) o.span = true then
      (if s.firstBeat o y then some 1 else if s.secondBeat o y then some 2 else none) else none := by
  have run : (u.joined r).run = s.run := (joined_frame r u .run (by decide)).trans (reached.frame .run (by decide))
  have line : (u.joined r).line = u.line := joined_frame r u .line (by decide)
  have held : (u.joined r).record y.tag = some r := by
    rw [joined_record (by rw [desc, reached.record]; exact fresh), if_pos (by rw [desc, tag])]
  unfold State.beatCode State.firstBeat State.secondBeat State.settleTime
  rw [held, run, line, reached.highWater]

/-- Settles O37: a rival of a QUEUED bid, a beat of a SETTLING one, and no judgement of a GRANTED or FIRED one. -/
theorem peerBidJudgesOwn : Obligations.PeerBidJudgesOwn := by
  intro s h p d o tl hears length read fresh room own other knows place
  obtain ⟨u, taken, reached, outbox⟩ := bid_known hears length read knows
  rw [← place] at taken
  let r := bidRecord d tl h.sender.toNat false (u.passedAtFiling h.sender.toNat tl)
  let y := d.rival (max s.now h.time)
  have fresh' : u.record d.tag = none := (reached.record _).trans fresh
  have effect : bidEffect d tl h.sender.toNat u = judgePeerBid y (enterRival y (u.joined r)) := by
    rw [bidEffect_new fresh' (by rwa [reached.frame .track (by decide)]), reached.now]
  rw [effect] at taken
  have live : (u.joined r).bid.own = some o := by
    rw [joined_bid]
    exact reached.own.trans own
  have fifo : (u.joined r).fifo = s.fifo := (joined_frame r u .fifo (by decide)).trans (reached.frame .fifo (by decide))
  have only : ∀ x, (u.joined r).bid.own = some x → x = o := fun x held => Option.some.inj (held.symm.trans live)
  have stands : judgePeerBid y (enterRival y (u.joined r)) = u.joined r →
      ∃ t, exec (.bid h p) s = .next t ∧ t.bid.own = some o ∧ t.fifo = s.fifo := fun same => by
    rw [same] at taken
    exact ⟨_, taken, finish_own live, by rw [finish_fifo, fifo]⟩
  have code := beatCode_joined reached fresh (r := r) rfl o y rfl
  have settles : o.state = .settling → judgePeerBid y (enterRival y (u.joined r)) =
      match (u.joined r).beatCode o y with | some c => beaten o d.tag.owner.toNat c (u.joined r) | none => u.joined r :=
    fun settling => by
      rw [enterRival_unqueued (fun x held => by rw [only x held, settling]; nofun), judgePeerBid_settling live settling]
      rfl
  refine ⟨fun queued => ?_, fun settling conflicts early higher unmarked free => ?_, fun settling clear => ?_,
    fun settling late lower => ?_, fun state => ?_⟩
  · rw [enterRival_queued live queued] at taken
    let v := (u.joined r).setBid { (u.joined r).bid with
      rivals := (u.joined r).bid.rivals.filter (fun r => r.tag.owner != y.tag.owner) ++ [y] }
    have held : v.bid.own = some o := live
    rw [judgePeerBid_unsettled (s := v) (fun x here => by
      obtain rfl : o = x := Option.some.inj (held.symm.trans here)
      rw [queued]
      nofun)] at taken
    obtain ⟨-, rivals, -⟩ := finish_idle v (fun idle => by
      have none := idle.2.2
      rw [held] at none
      cases none)
    refine ⟨_, taken, finish_own held, rivals.trans ?_⟩
    show (u.joined r).bid.rivals.filter _ ++ _ = _
    rw [joined_bid, reached.bid]
    rfl
  · have beat : (u.joined r).beatCode o y = some 1 := by
      rw [code, if_pos (show conflict s.run (r.span s.line.highWater) o.span = true from conflicts), if_pos ?_]
      unfold State.firstBeat
      rw [Bool.and_eq_true]
      exact ⟨decide_eq_true early, higher⟩
    have effect := settles settling
    rw [beat] at effect
    have lost := beaten_spec live settling d.tag.owner.toNat 1
    have same := joined_same (r := r) fresh' (o := o) (fun tag => other tag.symm)
    have free' : (u.joined r).roomFirst :=
      (roomFirst_congr same.link).mpr ((roomFirst_of_lists outbox reached.waiting).mpr free)
    have unmarked' : ((u.joined r).feed.positions.get o.serves).unloading = false := by
      rw [same.positions, reached.frame .feed (by decide)]
      exact unmarked
    rw [effect] at taken
    refine ⟨_, taken, finish_own_ne lost.own (by rw [settling]; nofun), ?_, ?_, mem_finish_outbox (lost.outbox free'), ?_⟩
    · rw [finish_record, lost.record]
      unfold State.withoutOwn
      rw [same.record, reached.record]
    · rw [finish_bid_passedOver, lost.passedOver, same.passedOver, joined_frame r u .run (by decide),
        reached.frame .run (by decide), reached.bid]
    · rw [finish_fifo, finish_bid_passedOver, lost.fifo free' unmarked']
      exact withEvent_congr fifo (same.store.trans (reached.frame .store (by decide))) _
  · refine stands ?_
    rw [settles settling, code, if_neg (show ¬ conflict s.run (r.span s.line.highWater) o.span = true from by
      rw [show conflict s.run (r.span s.line.highWater) o.span = false from clear]
      nofun)]
  · refine stands ?_
    have first : s.firstBeat o y = false := by
      rw [Bool.eq_false_iff]
      intro beats
      unfold State.firstBeat at beats
      rw [Bool.and_eq_true, decide_eq_true_iff] at beats
      exact lower beats
    have second : s.secondBeat o y = false := by
      unfold State.secondBeat
      rw [Bool.and_eq_false_iff]
      exact .inl (decide_eq_false (Nat.not_lt.mpr late))
    rw [settles settling, code, first, second]
    simp
  · refine stands ?_
    have idle : o.state ≠ .queued ∧ o.state ≠ .settling := by
      rcases state with state | state <;> rw [state] <;> exact ⟨nofun, nofun⟩
    rw [enterRival_unqueued (fun x held => by rw [only x held]; exact idle.1),
      judgePeerBid_unsettled (fun x held => by rw [only x held]; exact idle.2)]

end Sys2Proof.Machine
end

section
/-! The obligation of BID: the record a peer's BID files, the full list, and the ends of the own BID (R37, R39, R40, R51,
R88). -/
namespace Sys2Proof.Machine

/-! ## What the hearing leaves of the sender's figures (R37, R170) -/

/-- A frame that is no HAIL leaves the figures of its sender as the peer table had them. -/
theorem hearing_hailed (n : Nat) (s : State) : ((hearing n none s).peer n).bind Peer.hailed = (s.peer n).bind Peer.hailed := by
  rw [(hearing_heard n none s).peer]
  show Peer.hailed (Peer.heard s.run s.now none _) = _
  cases s.peer n with
  | none => rfl
  | some p => rfl

theorem accept_heard {s : State} {h : Heard} {k : MsgKind} (hears : s.hears h k) {payload : List Byte}
    (length : payload.length = payloadLength k) (tag : Option Tag) (effect : State → State) :
    accept h k payload tag none effect s = finish (effect (hearing h.sender.toNat none (advanceTo h.time s))) :=
  accept_hears hears length tag none effect

/-- The passed-own-eye flag that a filing gives is told from the sender's figures and the line count (R37, R170). -/
theorem passedAtFiling_iff {s u : State} {n : Nat} (run : u.run = s.run) (count : u.line.count = s.line.count)
    (hailed : (u.peer n).bind Peer.hailed = (s.peer n).bind Peer.hailed) (tl : Count) : u.passedAtFiling n tl = true ↔
    (∃ q f, s.peer n = some q ∧ q.hailed = some f ∧ f.eye < (if s.role = .throat then 0 else s.run.station.eye))
      ∨ 0 < signedDiff s.line.count (plus tl (s.run.tolerance - s.run.eye)) := by
  unfold State.passedAtFiling later
  rw [run, count, hailed, Bool.or_eq_true, decide_eq_true_iff]
  refine or_congr ?_ Iff.rfl
  have eye : s.run.eyeMm = if s.role = .throat then 0 else s.run.station.eye := rfl
  cases entry : s.peer n with
  | none => simp
  | some q =>
    rw [Option.bind_some, ← eye]
    cases figures : q.hailed with
    | none => simp [figures]
    | some f => simp [figures]

theorem passedAtFiling_eq {s u : State} {n : Nat} {tl : Count} {passed : Bool} (run : u.run = s.run)
    (count : u.line.count = s.line.count) (hailed : (u.peer n).bind Peer.hailed = (s.peer n).bind Peer.hailed)
    (flag : passed = true ↔
      (∃ q f, s.peer n = some q ∧ q.hailed = some f ∧ f.eye < (if s.role = .throat then 0 else s.run.station.eye))
        ∨ 0 < signedDiff s.line.count (plus tl (s.run.tolerance - s.run.eye))) : u.passedAtFiling n tl = passed :=
  Bool.eq_iff_iff.mpr ((passedAtFiling_iff run count hailed tl).trans flag.symm)

/-- What the acting of a peer's frame reads of the state before it. -/
theorem heard_filing {s : State} (h : Heard) (tl : Count) {passed : Bool} (flag : passed = true ↔
      (∃ q f, s.peer h.sender.toNat = some q ∧ q.hailed = some f
        ∧ f.eye < (if s.role = .throat then 0 else s.run.station.eye))
        ∨ 0 < signedDiff s.line.count (plus tl (s.run.tolerance - s.run.eye))) :
    (hearing h.sender.toNat none (advanceTo h.time s)).passedAtFiling h.sender.toNat tl = passed := by
  have acted := hearing_actedOn h.sender.toNat none h.time s
  refine passedAtFiling_eq acted.run acted.count ((hearing_hailed _ _).trans ?_) flag
  unfold State.peer
  rw [advanceTo_peers]

/-! ## The own bid's tag at a filing -/

theorem holdJoin_tags (c : HoldCause) (s : State) (u : Tag) (h : s.ownElsewhere u) : (holdJoin c s).ownElsewhere u :=
  (holdJoin_withdrawn c s).tags u h

/-- A filing leaves no own bid but the one there was (R40, R51). -/
theorem fileRecord_tags (r : Record) (k : Nat) {s : State} {u : Tag} (h : s.ownElsewhere u) : (fileRecord r k s).ownElsewhere u := by
  unfold fileRecord
  split
  · rename_i old held
    unfold replaceWhole putRecord
    exact ((noteChange_withdrawn _ _).trans (recheck_withdrawn _ _)).tags u
      ((((noteChange_withdrawn old.desc.lanes s).trans (forgetTag_withdrawn old.desc.tag _)).trans
        (endPieceGone_withdrawn old.desc.tag _)).tags u h)
  · split
    · exact ((noteChange_withdrawn _ _).trans (recheck_withdrawn _ _)).tags u h
    · unfold overflow
      split
      · exact h
      · exact holdJoin_tags _ _ u h

theorem beaten_withdrawn {s : State} {o : OwnBid} (own : s.bid.own = some o) (settling : o.state = .settling) (owner code : Nat) :
    OwnWithdrawn s (beaten o owner code s) := by
  let v := s.setBid { s.bid with passedOver := if s.run.line.limit ≤ s.bid.passedOver then s.bid.passedOver else s.bid.passedOver + 1 }
  have counted : OwnWithdrawn s v := .of_same rfl rfl
  have live : (enqueue (.recall o.desc.tag) v).bid.own = some o := enqueue_own _ v o own (by rw [settling]; nofun)
  exact (((counted.trans (enqueue_withdrawn _ v)).trans (dropOwnRecord_withdrawn o _ live)).trans (endOwn_withdrawn _)).trans
    (raise_withdrawn _ _)

theorem judgePeerBid_withdrawn (y : Rival) (s : State) : OwnWithdrawn s (judgePeerBid y s) := by
  unfold judgePeerBid
  split
  · rename_i o own
    split
    · rename_i settling
      split
      · exact beaten_withdrawn own settling _ _
      · exact .refl s
    · exact .refl s
  · exact .refl s

theorem enterRival_withdrawn (y : Rival) (s : State) : OwnWithdrawn s (enterRival y s) := by
  unfold enterRival
  split
  · rename_i o own
    exact .ite (.of_same rfl rfl) (.refl s)
  · exact .refl s

/-- A peer's BID stands in the list, where the own bid is about another tag (R40). -/
theorem bidEffect_record {s : State} {d : Desc} (elsewhere : s.ownElsewhere d.tag)
    (room : (s.record d.tag).isSome = true ∨ s.track.records.length < 64) (tl : Count) (n : Nat) :
    (bidEffect d tl n s).record d.tag = some (bidRecord d tl n false (s.passedAtFiling n tl)) := by
  let r := bidRecord d tl n false (s.passedAtFiling n tl)
  have left := fileRecord_tags r 1 elsewhere
  have entered := enterRival_withdrawn (d.rival (fileRecord r 1 s).now) (fileRecord r 1 s)
  exact ((judgePeerBid_withdrawn _ _).record d.tag (entered.tags _ left)).trans ((entered.record _ left).trans
    (fileRecord_spec r 1 s elsewhere room).1)

/-! ## The full list (R51) -/

/-- A description dropped at the full list, where no own bid reacts to TRACK_FULL (R51). -/
theorem overflow_none {s : State} (none : s.bid.own = none) (d : Desc) (code : Nat) : overflow d code s =
    if s.bid.hold.trackFull then s else putHold .trackFull true (raise (trackFullEvent d code) s) := by
  unfold overflow
  rw [holdJoin_fixed (s := raise (trackFullEvent d code) s) (ownFixed_none none)]
  split
  · rfl
  · rename_i clear
    exact if_neg clear

/-- A frame of a known peer leaves the bid engine as it is, where the hold set follows its reasons (R169). -/
theorem accept_settled {s : State} {h : Heard} {k : MsgKind} (follows : s.holdFollows) (hears : s.hears h k)
    (knows : s.knows h.sender.toNat) {payload : List Byte} (length : payload.length = payloadLength k) (tag : Option Tag)
    (effect : State → State) :
    ∃ u, accept h k payload tag none effect s = finish (effect u) ∧ Reached s u h.time ∧ u.link.outbox = s.link.outbox
      ∧ u.bid = s.bid := by
  obtain ⟨u, accepted, frame, bid, link⟩ := acceptPeer_known (knows_later knows h.time) effect
  have moved := advanceTo_frame h.time s
  have line : u.line = (advanceTo h.time s).line := frame .line (by decide)
  have bid : u.bid = s.bid := by
    obtain ⟨-, follows⟩ := follows
    obtain ⟨-, calm, -⟩ := knows
    rw [bid, advanceTo_bid, show false = s.bid.hold.mismatch from (follows.trans calm).symm]
  refine ⟨u, (accept_hears hears length tag none effect).trans accepted,
    ⟨(moved.widen (by decide)).trans (frame.widen (by decide)), ?_, ?_, ?_, by rw [bid], ?_⟩, ?_, bid⟩
  · rw [frame .now (by decide), advanceTo_now]
  · rw [line, advanceTo_count]
  · rw [line, advanceTo_highWater]
  · rw [link, advanceTo_link]
  · rw [link, advanceTo_link]

/-- A description dropped at the full list of a station without an own bid: what the message leaves (R51, R81). -/
theorem overflow_told {s : State} (none : s.bid.own = none) (d : Desc) (code : Nat) :
    (overflow d code s).bid = { s.bid with hold := { s.bid.hold with trackFull := true } }
      ∧ (overflow d code s).fifo = (if s.bid.hold.trackFull = true then s.fifo else s.withEvent (trackFullEvent d code))
      ∧ SameBut [.bid, .fifo] s (overflow d code s) := by
  rw [overflow_none none]
  cases stood : s.bid.hold.trackFull with
  | true => exact ⟨by rw [if_pos rfl, ← stood], rfl, .refl _ s⟩
  | false => exact ⟨rfl, rfl, (raise_frame _ s).then (putHold_frame _ _ _) (by decide) (by decide)⟩

theorem fileRecord_overflows {s : State} {r : Record} (unknown : s.record r.desc.tag = none) (full : 64 ≤ s.track.records.length)
    (k : Nat) : fileRecord r k s = overflow r.desc k s := by
  unfold fileRecord
  rw [unknown]
  exact if_neg (Nat.not_lt.mpr full)

/-! ## The own BID accepted (R88) -/

/-- From `v` to `w` the own bid has ended with a RECALL, and its record is gone (R91, R95). -/
structure LandingEnded (v w : State) (o : OwnBid) : Prop where
  own : w.bid.own = none
  record : w.record o.desc.tag = v.withoutOwn o.desc.tag
  outbox : v.roomFirst → Entry.fresh (.recall o.desc.tag) ∈ w.link.outbox

theorem Recalled.ended {s t : State} {o : OwnBid} {code : Nat} {a : Option Int} (h : Recalled s t o code a) : LandingEnded s t o :=
  ⟨h.own, h.record, h.outbox⟩

theorem Beaten.ended {s t : State} {o : OwnBid} {owner code : Nat} (h : Beaten s t o owner code) : LandingEnded s t o :=
  ⟨h.own, h.record, h.outbox⟩

/-- A record that does not bump leaves the first that does where it is (R33). -/
theorem find_insertRecord_of_not {p : Record → Bool} {r : Record} (h : p r = false) : ∀ l : List Record,
    (insertRecord r l).find? p = l.find? p
  | [] => by
    unfold insertRecord
    rw [List.find?_cons, h]
  | x :: xs => by
    unfold insertRecord
    split
    · rw [List.find?_cons, h]
    · rw [List.find?_cons, List.find?_cons, find_insertRecord_of_not h xs]

/-- The first rival that beats a bid is the same in two states that have the rivals' records and the figures (R90). -/
theorem firstBeater_congr {s v : State} {o : OwnBid} (run : v.run = s.run) (highWater : v.line.highWater = s.line.highWater) :
    ∀ {l : List Rival}, (∀ y ∈ l, v.record y.tag = s.record y.tag) → v.firstBeater o l = s.firstBeater o l
  | [], _ => rfl
  | y :: ys, same => by
    have code : v.beatCode o y = s.beatCode o y := by
      unfold State.beatCode State.firstBeat State.secondBeat State.settleTime
      rw [same y List.mem_cons_self, run, highWater]
    unfold State.firstBeater
    rw [code, firstBeater_congr run highWater (fun z mem => same z (List.mem_cons_of_mem _ mem))]

theorem settleEnds_beaten {v : State} {o : OwnBid} {l : List Rival} {y : Rival} {c : Nat} (beats : v.firstBeater o l = some (y, c)) :
    settleEnds o l v = beaten o y.tag.owner.toNat c v := by
  unfold settleEnds
  rw [beats]

theorem settleEnds_bumped {v : State} {o : OwnBid} {l : List Rival} {r : Record} (unbeaten : v.firstBeater o l = none)
    (bumped : v.track.records.find? (bumps v o) = some r) : settleEnds o l v = recallOwn 7 (some r.desc.tag.owner.toNat) v := by
  unfold settleEnds
  rw [unbeaten, bumped]

theorem settleEnds_unfiled {v : State} {o : OwnBid} {l : List Rival} (unbeaten : v.firstBeater o l = none)
    (clear : v.track.records.find? (bumps v o) = none) (unfiled : v.record o.desc.tag = none) :
    settleEnds o l v = recallOwn 5 none v := by
  unfold settleEnds
  rw [unbeaten, clear]
  exact if_pos (by rw [unfiled]; rfl)

theorem settleEnds_filed {v : State} {o : OwnBid} {l : List Rival} (unbeaten : v.firstBeater o l = none)
    (clear : v.track.records.find? (bumps v o) = none) {r : Record} (filed : v.record o.desc.tag = some r) :
    settleEnds o l v = if v.role = .feed ∧ v.feed.ready = false then recallOwn 8 none v
      else v.setBid { v.bid with rivals := [] } := by
  unfold settleEnds
  rw [unbeaten, clear]
  exact if_neg (by rw [filed]; nofun)

theorem settleEnds_heardKept (o : OwnBid) (l : List Rival) (s : State) : HeardKept s (settleEnds o l s) := by
  unfold settleEnds
  split
  · exact beaten_heardKept _ _ _ s
  · split
    · exact recallOwn_heardKept _ _ s
    · exact .ite (recallOwn_heardKept _ _ s) (.ite (recallOwn_heardKept _ _ s) (setBid_heardKept s _ rfl rfl))

/-- A recall of a bid without a record leaves the list and the hold set (R95). -/
theorem recallOwn_unfiled {s : State} {o : OwnBid} (own : s.bid.own = some o) (settling : o.state = .settling)
    (unfiled : s.record o.desc.tag = none) (code : Nat) (a : Option Int) :
    (recallOwn code a s).track = s.track ∧ (recallOwn code a s).bid.hold = s.bid.hold := by
  have sent : SameBut [.link, .fifo] s (enqueue (.recall o.desc.tag) s) := enqueueFirst_unfired _ s (fun x held => by
    rw [own] at held
    cases held
    rw [settling]
    nofun)
  have kept : dropOwnRecord o.desc.tag (enqueue (.recall o.desc.tag) s) = enqueue (.recall o.desc.tag) s := by
    refine if_neg ?_
    rw [record_congr (congrArg TrackList.records (sent .track (by decide))), unfiled]
    nofun
  have live : (enqueue (.recall o.desc.tag) s).bid.own = some o := by
    rw [sent .bid (by decide)]
    exact own
  rw [recallOwn_landing own (.inl settling), kept]
  refine ⟨(endOwn_frame _ .track (by decide)).trans (sent .track (by decide)), ?_⟩
  show (endOwn _).bid.hold = _
  rw [endOwn_bid _ o live, sent .bid (by decide)]

/-- The state at which the four ends of the own BID are tried: the bid is SETTLING, and its record filed, or dropped at the
full list (R51, R88). -/
structure OwnFiled (s u v : State) (o : OwnBid) (r : Record) : Prop where
  bid : v.bid.own = some o ∧ v.bid.rivals = s.bid.rivals ∧ v.bid.passedOver = s.bid.passedOver
  frame : SameBut [.track, .bid, .outfeed, .fifo] u v
  filed : s.track.records.length < 64 → SameBut [.track, .bid, .outfeed] u v ∧ v.record o.desc.tag = some r
  full : 64 ≤ s.track.records.length → v.record o.desc.tag = none ∧ v.track = s.track ∧ v.bid.hold.trackFull = true
    ∧ v.fifo = s.withEvents (if s.bid.hold.trackFull = true then [] else [trackFullEvent o.desc 1])
  others : ∀ g, g ≠ o.desc.tag → v.record g = s.record g
  bumps : v.track.records.find? (bumps v o) = s.track.records.find? (bumps s o)

theorem fileOwn_filed {s u : State} {time : Nat} (reached : Reached s u time) (bid : u.bid = s.bid) {o : OwnBid}
    (fresh : s.record o.desc.tag = none) {r : Record} (desc : r.desc = o.desc) (unseen : r.state ≠ .seen ∧ r.state ≠ .stray) :
    OwnFiled s u (fileOwn r (u.setBid { u.bid with own := some o })) o r := by
  let t := u.setBid { u.bid with own := some o }
  have track : t.track = s.track := reached.frame .track (by decide)
  have counts : u.bid.rivals = s.bid.rivals ∧ u.bid.passedOver = s.bid.passedOver ∧ u.bid.hold = s.bid.hold := by
    rw [bid]
    exact ⟨rfl, rfl, rfl⟩
  obtain ⟨rivals, passedOver, hold⟩ := counts
  have hold : t.bid.hold = s.bid.hold := hold
  have fresh' : t.record r.desc.tag = none := by
    rw [desc, record_congr (congrArg TrackList.records track)]
    exact fresh
  have same : ∀ {v : State}, v.run = u.run → v.line = u.line → Machine.bumps v o = Machine.bumps s o := fun run line => by
    funext x
    unfold Machine.bumps
    rw [run, line, reached.frame .run (by decide), reached.highWater]
  have unbumped : Machine.bumps s o r = false := by
    unfold Machine.bumps
    simp [unseen]
  by_cases room : s.track.records.length < 64
  · have filed : fileOwn r t = t.joined r := by
      unfold fileOwn
      rw [fresh']
      dsimp only
      rw [if_pos (show t.track.records.length < Config.trackCapacity by rwa [track]), insertNew_unseen fresh' unseen]
    have frame : SameBut [.track, .bid, .outfeed] u (t.joined r) := ((setBid_frame u _).widen (by decide)).trans (joined_frame r t)
    have records : (t.joined r).track.records = insertRecord r s.track.records := by
      show (noteChange _ _).track.records = _
      rw [noteChange_frame _ _ .track (by decide), ← track]
      rfl
    show OwnFiled s u (fileOwn r t) o r
    rw [filed]
    refine ⟨?_, frame.widen (by decide), fun _ => ⟨frame, ?_⟩, fun full => absurd room (Nat.not_lt.mpr full), fun g other => ?_, ?_⟩
    · rw [joined_bid]
      exact ⟨rfl, rivals, passedOver⟩
    · rw [joined_record fresh', if_pos (by rw [desc])]
    · rw [joined_record fresh', if_neg (by rw [desc]; exact other.symm), record_congr (congrArg TrackList.records track)]
    · rw [records, same (frame .run (by decide)) (frame .line (by decide)), find_insertRecord_of_not unbumped]
  · have dropped : fileOwn r t = if t.bid.hold.trackFull then t else putHold .trackFull true (raise (trackFullEvent r.desc 1) t) := by
      unfold fileOwn
      rw [fresh']
      exact if_neg (show ¬ t.track.records.length < Config.trackCapacity by rwa [track])
    have still : ∀ {v : State}, v.track = t.track → ∀ g, v.record g = s.record g := fun same g =>
      record_congr (congrArg TrackList.records (same.trans track)) g
    have fifo : t.fifo = s.fifo := reached.frame .fifo (by decide)
    show OwnFiled s u (fileOwn r t) o r
    rw [dropped, hold]
    cases stood : s.bid.hold.trackFull with
    | true =>
      rw [if_pos rfl]
      refine ⟨⟨rfl, rivals, passedOver⟩, (setBid_frame u _).widen (by decide), fun few => absurd few room,
        fun _ => ⟨(still rfl _).trans fresh, track, by rw [hold, stood], by rw [stood]; exact fifo⟩, fun g _ => still rfl g, ?_⟩
      rw [track, same (v := t) rfl rfl]
    | false =>
      rw [if_neg nofun]
      refine ⟨⟨rfl, rivals, passedOver⟩, ?_,
        fun few => absurd few room, fun _ => ⟨(still rfl _).trans fresh, track, rfl, ?_⟩, fun g _ => still rfl g, ?_⟩
      · exact ((setBid_frame u _).widen (by decide)).trans (((raise_frame _ t).widen (by decide)).trans
          ((putHold_frame _ _ _).widen (by decide)))
      · show (raise (trackFullEvent r.desc 1) t).fifo = _
        rw [desc, stood]
        exact withEvent_congr fifo (reached.frame .store (by decide)) _
      · rw [← same (v := t) rfl rfl]
        exact congrArg (fun l : List Record => l.find? (Machine.bumps t o)) (congrArg TrackList.records track)

end Sys2Proof.Machine
end

section
/-! The obligation of BID, settled (R40, R51, R88). -/
namespace Sys2Proof.Machine

/-! ## The ends of the own BID, and the stand (R88) -/

/-- The own BID is SETTLING after the four ends have been tried, or one of them has ended it (R88). -/
theorem OwnFiled.settles {s u v : State} {o : OwnBid} {r : Record} (h : OwnFiled s u v o r)
    (run : v.run = s.run) (ready : v.feed.ready = s.feed.ready) (unbeaten : v.firstBeater o s.bid.rivals = none)
    (clear : s.track.records.find? (Machine.bumps s o) = none) (room : s.track.records.length < 64) :
    settleEnds o s.bid.rivals v = if s.role = .feed ∧ s.feed.ready = false then recallOwn 8 none v
      else v.setBid { v.bid with rivals := [] } := by
  have role : v.role = s.role := congrArg (fun f => f.station.role) run
  rw [settleEnds_filed unbeaten (h.bumps.trans clear) (h.filed room).2, role, ready]

theorem OwnFiled.ends {s u v : State} {o : OwnBid} {r : Record} (h : OwnFiled s u v o r) (settling : o.state = .settling)
    (run : v.run = s.run) (ready : v.feed.ready = s.feed.ready)
    (beater : v.firstBeater o s.bid.rivals = s.firstBeater o s.bid.rivals)
    (ending : s.firstBeater o s.bid.rivals ≠ none ∨ (∃ x ∈ s.track.records, Machine.bumps s o x = true)
      ∨ 64 ≤ s.track.records.length ∨ (s.role = .feed ∧ s.feed.ready = false)) :
    LandingEnded v (settleEnds o s.bid.rivals v) o := by
  obtain ⟨live, -, -⟩ := h.bid
  cases beats : s.firstBeater o s.bid.rivals with
  | some pair =>
    rw [settleEnds_beaten (beater.trans beats)]
    exact (beaten_spec live settling _ _).ended
  | none =>
    have unbeaten := beater.trans beats
    cases bumped : s.track.records.find? (Machine.bumps s o) with
    | some x =>
      rw [settleEnds_bumped unbeaten (h.bumps.trans bumped)]
      exact (recallOwn_recalled live (.inl settling) 7 _).ended
    | none =>
      rcases Nat.lt_or_ge s.track.records.length 64 with room | full
      · have low : s.role = .feed ∧ s.feed.ready = false := by
          rcases ending with beats' | ⟨x, mem, bumps⟩ | full | low
          · exact absurd beats beats'
          · exact absurd bumps (List.find?_eq_none.mp bumped x mem)
          · exact absurd room (Nat.not_lt.mpr full)
          · exact low
        rw [h.settles run ready unbeaten bumped room, if_pos low]
        exact (recallOwn_recalled live (.inl settling) 8 none).ended
      · rw [settleEnds_unfiled unbeaten (h.bumps.trans bumped) (h.full full).1]
        exact (recallOwn_recalled live (.inl settling) 5 none).ended

theorem bidEffect_frame (d : Desc) (tl : Count) (n : Nat) (s : State) : SameBut listBlocks s (bidEffect d tl n s) := by
  have entered : ∀ y t, SameBut listBlocks t (enterRival y t) := fun y t => by
    unfold enterRival
    split
    · exact .ite ((setBid_frame t _).widen (by decide)) (.refl _ t)
    · exact .refl _ t
  exact ((fileRecord_frame _ 1 s).trans (entered _ _)).trans (judgePeerBid_frame _ _)

/-- The row of the station's own BID, accepted while its own bid is QUEUED and no withdrawal runs (R88). -/
theorem bid_own {s : State} {h : Heard} {p : List Byte} {o : OwnBid} (hears : s.hearsOwn h (.bid o.desc o.window) p)
    (own : s.bid.own = some o) (queued : o.state = .queued) (uncancelled : o.cancelling = false) :
    ∃ u, exec (.bid h p) s = .next (finish (acceptLive o u)) ∧ Reached s u h.time ∧ SameBut [.now, .line, .link] s u
      ∧ u.link = { s.link with outbox := s.link.outbox.filter (fun e => !e.sending), frame := []
                               quiet := some (u.now + 20), listenFrom := u.now, lastSender := some s.number } := by
  have tag : some (placedAt p).desc.tag = Msg.tag? (.bid o.desc o.window) := by
    obtain ⟨-, -, -, -, -, tag, -⟩ := hears
    exact (tag (by simp [Msg.tag?, Msg.desc?])).symm
  obtain ⟨u, accepted, frame, now, count, highWater, link⟩ := accept_hearsOwn hears none (fun t =>
    match readBid t.run.lineLanes h.sender.toNat (placedAt p).desc with
    | some d => bidEffect d (t.carriedTl (placedAt p)) h.sender.toNat t
    | none => t)
  have bid : u.bid = s.bid := frame .bid (by decide)
  have effect : ownEffect (.bid o.desc o.window) u = acceptLive o u := by
    show acceptOwnBid o.desc o.window u = _
    unfold acceptOwnBid
    rw [bid, own]
    exact if_pos ⟨queued, uncancelled, rfl⟩
  rw [← tag, effect] at accepted
  exact ⟨u, congrArg Host.Outcome.next accepted, ⟨frame.widen (by decide), now, count, highWater, by rw [bid], by rw [link]⟩,
    frame, link⟩

/-- Settles O36: the record of a peer's BID, the description dropped at the full list, and the four ends of the own BID. -/
theorem bidFilesRecord : Obligations.BidFilesRecord := by
  refine ⟨?peer, ?full, ?own⟩
  case peer =>
    intro s h p d tl passed hears length read place flag room elsewhere
    let u := hearing h.sender.toNat none (advanceTo h.time s)
    have acted : ActedOn s u h.time := hearing_actedOn h.sender.toNat none h.time s
    have row : exec (.bid h p) s = .next (finish (bidEffect d tl h.sender.toNat u)) := by
      refine congrArg Host.Outcome.next ((accept_heard hears length (some (placedAt p).desc.tag) _).trans ?_)
      show finish (match readBid u.run.lineLanes h.sender.toNat (placedAt p).desc with
        | some d => bidEffect d (u.carriedTl (placedAt p)) h.sender.toNat u
        | none => u) = _
      rw [acted.run, read]
      dsimp only
      unfold State.carriedTl
      rw [acted.count, ← place]
    have room' : (u.record d.tag).isSome = true ∨ u.track.records.length < 64 := room.imp
      (fun held => by rwa [acted.gone.record _ elsewhere]) (fun few => lt_of_le_of_lt acted.gone.sub.length_le few)
    have filed := bidEffect_record (acted.gone.tags _ elsewhere) room' tl h.sender.toNat
    have sender : d.tag.owner.toNat = h.sender.toNat ∧ d.kind ≠ .stray := by
      unfold readBid at read
      split at read
      · split at read
        · cases read
          assumption
        · cases read
      · cases read
    refine ⟨_, row, ?_, sender.1, sender.2, ?_⟩
    · rw [finish_record, filed, show u.passedAtFiling h.sender.toNat tl = passed from heard_filing h tl flag]
      rfl
    · have effect := bidEffect_frame d tl h.sender.toNat u
      exact ((acted.frame.widen (by decide)).trans (effect.widen (by decide))).trans ((finish_frame _).widen (by decide))
  case full =>
    intro s h p d follows hears length knows read unknown full idle
    obtain ⟨u, accepted, reached, outbox, bid⟩ := accept_settled follows hears knows length (some (placedAt p).desc.tag) (fun t =>
      match readBid t.run.lineLanes h.sender.toNat (placedAt p).desc with
      | some d => bidEffect d (t.carriedTl (placedAt p)) h.sender.toNat t
      | none => t)
    have none' : u.bid.own = none := reached.own.trans idle
    have track : u.track = s.track := reached.frame .track (by decide)
    obtain ⟨dropped, fifo, frame⟩ := overflow_told none' d 1
    have ended : (overflow d 1 u).bid.own = none := by
      rw [dropped]
      exact none'
    have effect : ∀ tl, bidEffect d tl h.sender.toNat u = overflow d 1 u := fun tl => by
      have filed : fileRecord (bidRecord d tl h.sender.toNat false (u.passedAtFiling h.sender.toNat tl)) 1 u = overflow d 1 u :=
        fileRecord_overflows (by rw [reached.record]; exact unknown) (by rwa [track]) 1
      have nobody : ∀ o, (overflow d 1 u).bid.own = some o → False := fun o held => by
        rw [ended] at held
        cases held
      unfold bidEffect
      dsimp only
      rw [filed, enterRival_unqueued (fun o held => (nobody o held).elim),
        judgePeerBid_unsettled (fun o held => (nobody o held).elim)]
    rw [reached.frame .run (by decide), read] at accepted
    dsimp only at accepted
    rw [effect] at accepted
    refine ⟨_, congrArg Host.Outcome.next accepted, ?_, ?_, ?_, ?_⟩
    · rw [finish_track_records, frame .track (by decide), track]
    · rw [finish_bid_hold, dropped, bid]
      obtain ⟨-, -, up⟩ := knows
      rw [← up]
    · rw [finish_fifo, fifo, bid, reached.frame .fifo (by decide), reached.withEvent]
      rfl
    · exact ((reached.frame.widen (by decide)).trans (frame.widen (by decide))).trans ((finish_frame _).widen (by decide))
  case own =>
    intro s h p o o1 hears own queued uncancelled fresh apart waiting few unmarked settles
    obtain ⟨u, taken, reached, uframe, link⟩ := bid_own hears own queued uncancelled
    have bid : u.bid = s.bid := uframe .bid (by decide)
    let r := bidRecord o.desc o.window u.number true false
    let v := fileOwn r (u.setBid { u.bid with own := some o1 })
    have desc : o1.desc = o.desc := by rw [settles]
    have settling : o1.state = .settling := by rw [settles]
    have serves : o1.serves = o.serves := by rw [settles]
    have filed : OwnFiled s u v o1 r := fileOwn_filed reached bid (by rw [desc]; exact fresh) desc.symm (bidRecord_unseen ..)
    obtain ⟨live, rivals, passedOver⟩ := filed.bid
    have effect : acceptLive o u = settleEnds o1 s.bid.rivals v := by
      unfold acceptLive
      dsimp only
      rw [reached.now, ← settles]
      exact congrArg (fun l => settleEnds o1 l v) (congrArg BidEngine.rivals bid)
    rw [effect] at taken
    let w := settleEnds o1 s.bid.rivals v
    have kept : HeardKept v w := settleEnds_heardKept o1 s.bid.rivals v
    have vlink : v.link = u.link := filed.frame .link (by decide)
    have run : v.run = s.run := (filed.frame .run (by decide)).trans (uframe .run (by decide))
    have feed : v.feed = s.feed := (filed.frame .feed (by decide)).trans (uframe .feed (by decide))
    have highWater : v.line.highWater = s.line.highWater :=
      (congrArg LineCounter.highWater (filed.frame .line (by decide))).trans reached.highWater
    have store : v.store = s.store := (filed.frame .store (by decide)).trans (uframe .store (by decide))
    have beater : v.firstBeater o1 s.bid.rivals = s.firstBeater o1 s.bid.rivals :=
      firstBeater_congr run highWater (fun y mem => filed.others _ (by rw [desc]; exact apart y mem))
    have free : v.roomFirst := by
      unfold State.roomFirst LinkController.reserved
      rw [vlink, link]
      dsimp only
      rw [waiting]
      exact few
    have unmarked' : (v.feed.positions.get o1.serves).unloading = false := by rwa [feed, serves]
    have still : (finish w).sending = none := (sending_none_iff _).mpr ((finish_steady w).still
      (settleEnds_sendsNothing o1 s.bid.rivals v (fun x mem => by
        rw [vlink, link] at mem
        simpa using (List.mem_filter.mp mem).2)))
    have moment : v.now = max s.now h.time := (filed.frame .now (by decide)).trans reached.now
    have moment' : w.now = max s.now h.time := (kept.frame .now (by decide)).trans moment
    have told : s.track.records.length < 64 → ∀ e, v.withEvent e = s.withEvent e := fun room e =>
      withEvent_congr (((filed.filed room).1 .fifo (by decide)).trans (uframe .fifo (by decide))) store e
    refine ⟨_, taken, ?_, still, ?_, ?_, fun unbeaten clear room ready => ?_, fun ending => ?_, fun room y c beats => ?_,
      fun room unbeaten x bumped => ?_, fun full unbeaten clear => ?_, fun room unbeaten clear role low => ?_⟩
    · rw [finish_now]
      exact moment'
    · rw [finish_link_lastSender, kept.link, vlink, link]
    · rw [finish_link_quiet, finish_now, kept.link, moment', vlink, link, reached.now]
    · have unbumped : s.track.records.find? (bumps s o1) = none := List.find?_eq_none.mpr (fun x mem => by rw [clear x mem]; nofun)
      have stands : w = v.setBid { v.bid with rivals := [] } := (filed.settles run (by rw [feed]) (beater.trans unbeaten)
        unbumped room).trans (if_neg (fun low => by
          have high := ready low.1
          rw [low.2] at high
          cases high))
      have held : (v.setBid { v.bid with rivals := [] }).bid.own = some o1 := live
      obtain ⟨frame, record⟩ := filed.filed room
      show (finish w).bid.own = _ ∧ (finish w).bid.rivals = _ ∧ (finish w).record _ = _ ∧ (finish w).link.outbox = _
        ∧ (finish w).fifo = _ ∧ SameBut _ s (finish w)
      rw [stands]
      obtain ⟨own', rivals', -, settled⟩ := finish_idle (v.setBid { v.bid with rivals := [] }) (fun idle => by
        have ended := idle.2.2
        rw [held] at ended
        cases ended)
      refine ⟨own'.trans held, rivals', ?_, ?_, ?_, ?_⟩
      · rw [finish_record, ← desc]
        refine (show v.record o1.desc.tag = some r from record).trans ?_
        rw [desc, show s.number = u.number from reached.number.symm]
        rfl
      · rw [settled .link (by decide)]
        show v.link.outbox = _
        rw [vlink, link]
      · rw [finish_fifo]
        exact (frame .fifo (by decide)).trans (uframe .fifo (by decide))
      · exact (((uframe.widen (by decide)).trans (frame.widen (by decide))).trans ((setBid_frame v _).widen (by decide))).trans
          (settled.widen (by decide))
    · have ended := filed.ends settling run (by rw [feed]) beater ending
      refine ⟨fun o' held => ?_, ?_, ?_⟩
      · rcases finish_fresh ended.own with idle | ⟨n, fresh, queued, -⟩
        · rw [idle] at held
          cases held
        · rw [fresh] at held
          cases held
          exact queued
      · rw [finish_record, ← desc, ended.record]
        unfold State.withoutOwn
        rcases Nat.lt_or_ge s.track.records.length 64 with room | full
        · rw [(filed.filed room).2]
          rfl
        · rw [(filed.full full).1]
          rfl
      · rw [← desc]
        exact mem_finish_outbox (ended.outbox free)
    · have lost := beaten_spec live settling y.tag.owner.toNat c
      rw [← settleEnds_beaten (beater.trans beats)] at lost
      have passed := lost.passedOver
      rw [run, passedOver] at passed
      refine ⟨by rw [finish_bid_passedOver]; exact passed, ?_⟩
      rw [finish_fifo, finish_bid_passedOver, lost.fifo free unmarked', told room, desc]
    · have recalled := recallOwn_recalled live (.inl settling) 7 (some (x.desc.tag.owner.toNat : Int))
      rw [← settleEnds_bumped (beater.trans unbeaten) (filed.bumps.trans bumped)] at recalled
      refine ⟨?_, ?_⟩
      · rw [finish_fifo, recalled.fifo free unmarked', told room]
        unfold OwnBid.recalled
        rw [desc]
      · rw [finish_bid_passedOver, recalled.passedOver, passedOver]
    · have unbumped : s.track.records.find? (bumps s o1) = none := List.find?_eq_none.mpr (fun x mem => by rw [clear x mem]; nofun)
      obtain ⟨unfiled, track, held, fifo⟩ := filed.full full
      have ends : w = recallOwn 5 none v := settleEnds_unfiled (beater.trans unbeaten) (filed.bumps.trans unbumped) unfiled
      have recalled := recallOwn_recalled live (.inl settling) 5 none
      obtain ⟨list, hold⟩ := recallOwn_unfiled live settling unfiled 5 none
      rw [← ends] at recalled list hold
      refine ⟨?_, ?_, ?_⟩
      · rw [finish_fifo, recalled.fifo free unmarked']
        refine (raise_withEvents fifo store _).trans ?_
        unfold OwnBid.recalled
        rw [desc]
        rfl
      · rw [finish_bid_hold, hold, held]
      · rw [finish_track_records, list, track]
    · have unbumped : s.track.records.find? (bumps s o1) = none := List.find?_eq_none.mpr (fun x mem => by rw [clear x mem]; nofun)
      have ends : w = recallOwn 8 none v := (filed.settles run (by rw [feed]) (beater.trans unbeaten)
        unbumped room).trans (if_pos ⟨role, low⟩)
      have recalled := recallOwn_recalled live (.inl settling) 8 none
      rw [← ends] at recalled
      rw [finish_fifo, recalled.fifo free unmarked', told room]
      unfold OwnBid.recalled
      rw [desc]

end Sys2Proof.Machine
end

section
/-! What SIGHTING SEEN and SIGHTING STRAY leave in the list and at the own bid (R25, R41, R42, R94, R98, R100). -/
namespace Sys2Proof.Machine

/-! ## The record that is re-checked stands (R94) -/

/-- A bump takes no record but that of the own bid, so the record that bumps it stays (R94). -/
theorem recheck_self (tag : Tag) (s : State) : (recheck tag s).record tag = s.record tag := by
  unfold recheck
  split
  · rename_i o r own held
    split
    · rename_i both
      refine (recallOwn_gone 7 _ s).record tag (fun x live => ?_)
      obtain rfl : o = x := Option.some.inj (own.symm.trans live)
      have conflicts := both.2
      unfold bumps at conflicts
      simp only [Bool.and_eq_true, bne_iff_ne] at conflicts
      rw [← (record_tag held).1]
      exact conflicts.1.2.symm
    · rfl
  · rfl

theorem changeRecord_self (old r : Record) (s : State) : (changeRecord old r s).record r.desc.tag = some r := by
  have set : (s.setRecords (replaceRecord r s.track.records)).record r.desc.tag = some r := by
    rw [setRecords_replace, if_pos rfl]
  have noted : ∀ p : Prop, ∀ _ : Decidable p, (if p then noteChange r.desc.lanes (s.setRecords (replaceRecord r s.track.records))
      else s.setRecords (replaceRecord r s.track.records)).record r.desc.tag = some r := fun p _ => by
    split
    · rw [record_congr (congrArg TrackList.records (noteChange_frame _ _ .track (by decide))), set]
    · exact set
  unfold changeRecord
  dsimp only
  split
  · rw [recheck_self, noted]
  · exact noted _ _

theorem insertNew_self {s : State} {r : Record} (fresh : s.record r.desc.tag = none) :
    (insertNew r s).record r.desc.tag = some r := by
  unfold insertNew
  rw [recheck_self, record_congr (congrArg TrackList.records (noteChange_frame _ _ .track (by decide))),
    inserted_record fresh, if_pos rfl]

/-! ## SIGHTING SEEN at the list and at the bid engine (R41, R98, R100) -/

theorem takeFree_record (used : Bool) (s : State) (tag : Tag) : (takeFree used s).record tag = s.record tag := by
  unfold takeFree
  split <;> rfl

theorem fileSeen_spacer {s : State} {d : Desc} {r : Record} (held : s.record d.tag = some r) (spacer : r.state = .spacer)
    (tl : Count) (m n : Nat) : fileSeen d tl m n s = s := by
  unfold fileSeen
  rw [held]
  exact if_pos spacer

/-- A held record as a SIGHTING SEEN leaves it, its reject combined (R25, R41). -/
def State.seenAs (s : State) (r : Record) (d : Desc) (tl : Count) (m n : Nat) : Record :=
  seenChange r (combine (Config.freeReject s.track.free) r.desc.reject d.reject) tl m n

theorem fileSeen_held {s : State} {d : Desc} {r : Record} (held : s.record d.tag = some r) (moves : r.state ≠ .spacer)
    (tl : Count) (m n : Nat) : fileSeen d tl m n s =
      changeRecord r (s.seenAs r d tl m n) (takeFree (usesFree r.desc.reject d.reject) s) := by
  unfold fileSeen
  rw [held]
  exact if_neg moves

theorem fileSeen_unknown {s : State} {d : Desc} (unknown : s.record d.tag = none) (kind : d.kind ≠ .spacer) (tl : Count)
    (m n : Nat) : fileSeen d tl m n s = fileRecord (seenRecord d (s.createdReject d) tl m n (s.passedAtFiling n tl)) 2
      (takeFree (d.kind != .stray && usesFree .none d.reject) s) := by
  unfold fileSeen
  rw [unknown]
  exact if_neg kind

theorem fileRecord_new {s : State} {r : Record} (fresh : s.record r.desc.tag = none) (room : s.track.records.length < 64) (k : Nat) :
    fileRecord r k s = insertNew r s := by
  unfold fileRecord
  rw [fresh]
  exact if_pos room

/-- The record under its tag as a SIGHTING SEEN leaves it (R41). -/
theorem fileSeen_record (s : State) (d : Desc) (tl : Count) (m n : Nat) :
    (∀ r, s.record d.tag = some r → r.state = .spacer → (fileSeen d tl m n s).record d.tag = some r)
      ∧ (∀ r, s.record d.tag = some r → r.state ≠ .spacer →
          (fileSeen d tl m n s).record d.tag = some (s.seenAs r d tl m n))
      ∧ (s.record d.tag = none → d.kind ≠ .spacer → s.track.records.length < 64 → (fileSeen d tl m n s).record d.tag
          = some (seenRecord d (s.createdReject d) tl m n (s.passedAtFiling n tl))) := by
  refine ⟨fun r held spacer => ?_, fun r held moves => ?_, fun unknown kind room => ?_⟩
  · rw [fileSeen_spacer held spacer, held]
  · rw [fileSeen_held held moves]
    have self := changeRecord_self r (s.seenAs r d tl m n) (takeFree (usesFree r.desc.reject d.reject) s)
    rwa [show (s.seenAs r d tl m n).desc.tag = d.tag from (record_tag held).1] at self
  · rw [fileSeen_unknown unknown kind, fileRecord_new (by rw [takeFree_record]; exact unknown) (by rwa [takeFree_records])]
    exact insertNew_self (r := seenRecord d (s.createdReject d) tl m n (s.passedAtFiling n tl))
      (by rw [takeFree_record]; exact unknown)

theorem fileSeen_deferral (d : Desc) (tl : Count) (m n : Nat) (s : State) :
    (fileSeen d tl m n s).bid.deferral = s.bid.deferral := by
  have free : ∀ used, (takeFree used s).bid = s.bid := fun used => takeFree_frame used s .bid (by decide)
  unfold fileSeen
  split
  · split
    · rfl
    · rw [(changeRecord_steady _ _ _).deferral, free]
  · split
    · rfl
    · rw [(fileRecord_steady _ _ _).deferral, free]

/-- The bid engine's part of a SIGHTING SEEN leaves the list; the deferral set loses the owner that reports its own piece, and
no other station (R98, R100). -/
theorem seenBid_deferral (d : Desc) (m n : Nat) (s : State) : (seenBid d m n s).bid.deferral =
    if n ≠ s.number ∧ d.tag.owner.toNat = n then s.bid.deferral &&& ~~~(stationBit n) else s.bid.deferral := by
  unfold seenBid
  split
  · rename_i own
    rw [if_neg (fun both => both.1 own)]
    exact (confirm_steady d m s).deferral
  · rename_i peer
    split
    · rename_i owner
      rw [if_pos ⟨peer, owner⟩]
      rfl
    · rename_i stranger
      rw [if_neg (fun both => stranger both.2)]

theorem seenEffect_record (d : Desc) (tl : Count) (m n : Nat) (s : State) (tag : Tag) :
    (finish (seenEffect d tl m n s)).record tag = (fileSeen d tl m n s).record tag := by
  rw [finish_record]
  exact record_congr (congrArg TrackList.records (seenBid_frame d m n _ .track (by decide))) tag

theorem seenEffect_deferral (d : Desc) (tl : Count) (m n : Nat) (s : State) : (finish (seenEffect d tl m n s)).bid.deferral =
    if n ≠ s.number ∧ d.tag.owner.toNat = n then s.bid.deferral &&& ~~~(stationBit n) else s.bid.deferral := by
  have number : (fileSeen d tl m n s).number = s.number :=
    congrArg (fun f => f.station.number) (fileSeen_frame d tl m n s .run (by decide))
  rw [finish_bid_deferral]
  show (seenBid d m n (fileSeen d tl m n s)).bid.deferral = _
  rw [seenBid_deferral, fileSeen_deferral, number]

/-! ## SIGHTING STRAY (R42) -/

theorem strayEffect_stray {s : State} {d : Desc} {r : Record} (held : s.record d.tag = some r) (stray : r.state = .stray)
    (tl : Count) (n : Nat) : strayEffect d tl n s = changeRecord r (strayChange r tl d.length n) s := by
  unfold strayEffect
  rw [held]
  exact if_pos stray

theorem strayEffect_other {s : State} {d : Desc} (other : ∀ r, s.record d.tag = some r → r.state ≠ .stray) (tl : Count) (n : Nat) :
    strayEffect d tl n s = fileRecord (strayRecord d tl n (s.passedAtFiling n tl)) 3 s := by
  unfold strayEffect
  split
  · rename_i r held
    exact if_neg (other r held)
  · rfl

/-- The record under its tag as a SIGHTING STRAY leaves it (R42). -/
theorem strayEffect_record {s : State} {d : Desc} (elsewhere : s.ownElsewhere d.tag)
    (room : (s.record d.tag).isSome = true ∨ s.track.records.length < 64) (tl : Count) (n : Nat) :
    (∀ r, s.record d.tag = some r → r.state = .stray →
        (strayEffect d tl n s).record d.tag = some (strayChange r tl d.length n))
      ∧ ((∀ r, s.record d.tag = some r → r.state ≠ .stray) →
        (strayEffect d tl n s).record d.tag = some (strayRecord d tl n (s.passedAtFiling n tl))) := by
  refine ⟨fun r held stray => ?_, fun other => ?_⟩
  · rw [strayEffect_stray held stray]
    have self := changeRecord_self r (strayChange r tl d.length n) s
    rwa [show (strayChange r tl d.length n).desc.tag = d.tag from (record_tag held).1] at self
  · rw [strayEffect_other other]
    exact (fileRecord_spec (strayRecord d tl n (s.passedAtFiling n tl)) 3 s elsewhere room).1

/-! ## The columns of R25 -/

/-- The reject combined, as R25 tells it (log 16). -/
theorem combine_eq (free held new : Reject) : combine free held new =
    if held = .stray then .stray
    else if held = .double then .double
    else if new = .none then held
    else if new ≠ .stray then new
    else if held ≠ .none ∧ free = .none then held
    else free := by
  cases held with
  | stray => cases new <;> rfl
  | double => cases new <;> rfl
  | none => cases new <;> cases free <;> rfl
  | narrow => cases new <;> cases free <;> rfl
  | wide => cases new <;> cases free <;> rfl

theorem createdReject_eq (s : State) (d : Desc) : s.createdReject d = if d.kind = .stray then .stray
    else if d.reject = .stray then Config.freeReject s.track.free else d.reject := by
  unfold State.createdReject
  split
  · rfl
  · rw [combine_eq]
    cases d.reject <;> simp

/-! ## The rows -/

/-- Sixteen bytes and two more: the description, the distance and the measured length stand at their places (R193). -/
theorem placedAt_measured {p : List Byte} (length : p.length = 16) (hi lo : Byte) :
    placedAt (p ++ [hi, lo]) = placedAt p ∧ measuredAt (p ++ [hi, lo]) = 256 * hi.toNat + lo.toNat := by
  obtain ⟨b0, b1, b2, b3, b4, b5, b6, b7, b8, b9, b10, b11, b12, b13, b14, b15, rfl⟩ :
      ∃ b0 b1 b2 b3 b4 b5 b6 b7 b8 b9 b10 b11 b12 b13 b14 b15 : Byte,
        p = [b0, b1, b2, b3, b4, b5, b6, b7, b8, b9, b10, b11, b12, b13, b14, b15] := by
    match p, length with
    | [b0, b1, b2, b3, b4, b5, b6, b7, b8, b9, b10, b11, b12, b13, b14, b15], _ =>
      exact ⟨b0, b1, b2, b3, b4, b5, b6, b7, b8, b9, b10, b11, b12, b13, b14, b15, rfl⟩
  refine ⟨rfl, ?_⟩
  show (hi ++ lo : BitVec 16).toNat = _
  rw [BitVec.toNat_append, Nat.shiftLeft_eq]
  have small := lo.isLt
  rw [← Nat.shiftLeft_eq, ← Nat.shiftLeft_add_eq_or_of_lt small, Nat.shiftLeft_eq]
  omega

/-- What a peer's SIGHTING SEEN does here (R41). -/
def seenOf (n : Nat) (p : List Byte) (t : State) : State :=
  match readDesc t.run.lineLanes (placedAt p).desc with
  | some d => seenEffect d (t.carriedTl (placedAt p)) (measuredAt p) n t
  | none => t

/-- What a peer's SIGHTING STRAY does here (R42). -/
def strayOf (n : Nat) (p : List Byte) (t : State) : State :=
  match readStray t.run.lineLanes (placedAt p).desc with
  | some d => strayEffect d (t.carriedTl (placedAt p)) n t
  | none => t

theorem sightingSeen_exec (h : Heard) (front back : List Byte) (s : State) : exec (.sightingSeen h front back) s =
    .next (accept h .sightingSeen (front ++ back) (some (placedAt (front ++ back)).desc.tag) none
      (seenOf h.sender.toNat (front ++ back)) s) := rfl

theorem sightingStray_exec (h : Heard) (p : List Byte) (s : State) : exec (.sightingStray h p) s =
    .next (accept h .sightingStray p (some (placedAt p).desc.tag) none (strayOf h.sender.toNat p) s) := rfl

theorem seenOf_read {s u : State} {p : List Byte} {hi lo : Byte} {d : Desc} (run : u.run = s.run)
    (count : u.line.count = s.line.count) (length : p.length = 16)
    (read : readDesc s.run.lineLanes (placedAt p).desc = some d) (n : Nat) : seenOf n (p ++ [hi, lo]) u =
      seenEffect d (plus s.line.count (placedAt p).distance.toInt) (256 * hi.toNat + lo.toNat) n u := by
  obtain ⟨placed, measured⟩ := placedAt_measured length hi lo
  unfold seenOf State.carriedTl
  rw [placed, measured, run, count, read]

theorem strayOf_read {s u : State} {p : List Byte} {d : Desc} (run : u.run = s.run)
    (count : u.line.count = s.line.count) (read : readStray s.run.lineLanes (placedAt p).desc = some d) (n : Nat) :
    strayOf n p u = strayEffect d (plus s.line.count (placedAt p).distance.toInt) n u := by
  unfold strayOf State.carriedTl
  rw [run, count, read]

/-- The row of the station's own SIGHTING SEEN, accepted. -/
theorem seen_own {s : State} {h : Heard} {front back : List Byte} {d : Desc} {tl : Count} {n : Nat}
    (hears : s.hearsOwn h (.seen d tl n) (front ++ back)) :
    ∃ u, exec (.sightingSeen h front back) s = .next (finish (seenEffect d tl n s.number u)) ∧ Reached s u h.time
      ∧ u.link.outbox = s.link.outbox.filter (fun e => !e.sending) ∧ u.link.lastSender = some s.number
      ∧ u.link.health = s.link.health ∧ SameBut [.now, .line, .link] s u := by
  have tag : some (placedAt (front ++ back)).desc.tag = Msg.tag? (.seen d tl n) := by
    obtain ⟨-, -, -, -, -, tag, -⟩ := hears
    exact (tag (by simp [Msg.tag?, Msg.desc?])).symm
  obtain ⟨u, accepted, reached, rest⟩ := accept_own hears (seenOf h.sender.toNat (front ++ back))
  rw [← tag] at accepted
  refine ⟨u, (sightingSeen_exec h front back s).trans (congrArg Host.Outcome.next (accepted.trans ?_)), reached, rest⟩
  exact congrArg (fun k => finish (seenEffect d tl n k u)) reached.number

/-- The row of the station's own SIGHTING STRAY, accepted. -/
theorem stray_own {s : State} {h : Heard} {p : List Byte} {d : Desc} {tl : Count} (hears : s.hearsOwn h (.stray d tl) p) :
    ∃ u, exec (.sightingStray h p) s = .next (finish (strayEffect d tl s.number u)) ∧ Reached s u h.time
      ∧ u.link.outbox = s.link.outbox.filter (fun e => !e.sending) ∧ u.link.lastSender = some s.number
      ∧ u.link.health = s.link.health ∧ SameBut [.now, .line, .link] s u := by
  have tag : some (placedAt p).desc.tag = Msg.tag? (.stray d tl) := by
    obtain ⟨-, -, -, -, -, tag, -⟩ := hears
    exact (tag (by simp [Msg.tag?, Msg.desc?])).symm
  obtain ⟨u, accepted, reached, rest⟩ := accept_own hears (strayOf h.sender.toNat p)
  rw [← tag] at accepted
  refine ⟨u, (sightingStray_exec h p s).trans (congrArg Host.Outcome.next (accepted.trans ?_)), reached, rest⟩
  exact congrArg (fun k => finish (strayEffect d tl k u)) reached.number

/-- The station's own frame leaves the table of peers, and so the flag of a filing (R37, R165). -/
theorem own_filing {s u : State} (frame : SameBut [.now, .line, .link] s u) (count : u.line.count = s.line.count) {tl : Count}
    {passed : Bool} (flag : passed = true ↔
      (∃ q f, s.peer s.number = some q ∧ q.hailed = some f
        ∧ f.eye < (if s.role = .throat then 0 else s.run.station.eye))
        ∨ 0 < signedDiff s.line.count (plus tl (s.run.tolerance - s.run.eye))) : u.passedAtFiling s.number tl = passed :=
  passedAtFiling_eq (frame .run (by decide)) count (by
    unfold State.peer
    rw [frame .peers (by decide)]) flag

end Sys2Proof.Machine
end

section
/-! The obligation of SIGHTING SEEN and SIGHTING STRAY (R25, R39, R41, R42, R51, R94, R98, R100). -/
namespace Sys2Proof.Machine

/-! ## The judgement of a bump by a SIGHTING (R94) -/

/-- From `s` to `w`, within a step, the own bid `o` is bumped where the record `r` bumps it, and stands where not (R94). -/
structure Judged (s w : State) (o : OwnBid) (r : Record) : Prop where
  bumps : s.bumpedBy r o → w.bid.own = none ∧ s.bumped w o r.desc.tag.owner.toNat
  stands : ¬ s.bumpedBy r o → w.bid.own = some o ∧ w.fifo = s.fifo

theorem Judged.finish {s w : State} {o : OwnBid} {r : Record} (h : Judged s w o r)
    (landing : o.state = .settling ∨ o.state = .granted) : s.judgesBump (finish w) r o := by
  refine ⟨fun bumped => ?_, fun clear => ?_⟩
  · obtain ⟨ended, bumps⟩ := h.bumps bumped
    exact bumps.finish ended landing
  · obtain ⟨live, fifo⟩ := h.stands clear
    exact ⟨finish_own live, by rw [finish_fifo, fifo]⟩

theorem Judged.leaveDeferral {s w : State} {o : OwnBid} {r : Record} (h : Judged s w o r) (n : Nat) :
    Judged s (leaveDeferral n w) o r := ⟨h.bumps, h.stands⟩

/-- A bump is judged alike where a frame was heard before it (R150). -/
theorem Judged.of_reached {s u w : State} {time : Nat} {o : OwnBid} {r : Record} (reached : Reached s u time)
    (room : s.roomFirst → u.roomFirst) (h : Judged u w o r) : Judged s w o r := by
  have same : u.bumpedBy r o ↔ s.bumpedBy r o := by
    unfold State.bumpedBy
    rw [reached.record, reached.highWater, reached.frame .run (by decide)]
  have fifo : u.fifo = s.fifo := reached.frame .fifo (by decide)
  have feed : u.feed = s.feed := reached.frame .feed (by decide)
  refine ⟨fun bumped => ?_, fun clear => ?_⟩
  · obtain ⟨ended, gone, record, passedOver, outbox, told⟩ := h.bumps (same.mpr bumped)
    refine ⟨ended, gone, ?_, ?_, outbox ∘ room, fun free unmarked => ?_⟩
    · rw [record]
      unfold State.withoutOwn
      rw [reached.record]
    · rw [passedOver, reached.bid]
    · rw [told (room free) (by rwa [feed]), reached.withEvent]
  · obtain ⟨live, quiet⟩ := h.stands (same.not.mpr clear)
    exact ⟨live, quiet.trans fifo⟩

/-- A state that a re-check reads as another, the own bid with it. -/
structure CheckSame (o : OwnBid) (s v : State) : Prop extends RecallSame o s v where
  own : v.bid.own = s.bid.own
  run : v.run = s.run
  line : v.line = s.line

theorem CheckSame.trans {o : OwnBid} {s t u : State} (h : CheckSame o s t) (k : CheckSame o t u) : CheckSame o s u :=
  { h.toRecallSame.trans k.toRecallSame with
    own := k.own.trans h.own, run := k.run.trans h.run, line := k.line.trans h.line }

theorem noteChange_check (o : OwnBid) (lanes : Lanes) (s : State) : CheckSame o s (noteChange lanes s) :=
  { noteChange_same o lanes s with
    own := by rw [noteChange_bid]
    run := noteChange_frame lanes s .run (by decide)
    line := noteChange_frame lanes s .line (by decide) }

theorem takeFree_check (o : OwnBid) (used : Bool) (s : State) : CheckSame o s (takeFree used s) := by
  have frame := takeFree_frame used s
  exact
    { record := takeFree_record used s _
      passedOver := congrArg BidEngine.passedOver (frame .bid (by decide))
      link := frame .link (by decide)
      fifo := frame .fifo (by decide)
      store := frame .store (by decide)
      positions := congrArg FeedSequencer.positions (frame .feed (by decide))
      own := congrArg BidEngine.own (frame .bid (by decide))
      run := frame .run (by decide)
      line := frame .line (by decide) }

theorem forgetTag_check {o : OwnBid} {tag : Tag} (s : State) : CheckSame o s (forgetTag tag s) := by
  have frame := forgetTag_frame tag s
  exact
    { record := record_congr (congrArg TrackList.records (frame .track (by decide))) _
      passedOver := forgetTag_passedOver tag s
      link := frame .link (by decide)
      fifo := frame .fifo (by decide)
      store := frame .store (by decide)
      positions := congrArg FeedSequencer.positions (frame .feed (by decide))
      own := rfl
      run := frame .run (by decide)
      line := frame .line (by decide) }

theorem setRecords_check {o : OwnBid} {s : State} {l : List Record}
    (kept : (s.setRecords l).record o.desc.tag = s.record o.desc.tag) : CheckSame o s (s.setRecords l) :=
  { setRecords_same kept with own := rfl, run := rfl, line := rfl }

theorem Judged.of_recheck {s v : State} {o : OwnBid} {r : Record} (own : s.bid.own = some o)
    (landing : o.state = .settling ∨ o.state = .granted) (other : r.desc.tag ≠ o.desc.tag) (same : CheckSame o s v)
    (held : v.record r.desc.tag = some r) (p : Prop) [Decidable p] (moved : p ↔ ∀ x, s.record r.desc.tag = some x →
      x.tl ≠ r.tl ∨ x.state ≠ r.state ∨ x.gapLength s.line.highWater ≠ r.gapLength s.line.highWater) :
    Judged s (if p then recheck r.desc.tag v else v) o r := by
  obtain ⟨bumped, clear⟩ := recheck_judges own landing other same.own held same.toRecallSame same.run same.line p moved
  refine ⟨fun bumps => ?_, fun stands => ?_⟩
  · obtain ⟨recalled, gone⟩ := bumped bumps
    exact ⟨recalled.own, gone⟩
  · rw [clear stands]
    exact ⟨same.own.trans own, same.fifo⟩

/-- A changed record is re-checked where it has moved (R33, R94). -/
theorem changeRecord_judged {s v : State} {o : OwnBid} {old r : Record} (own : s.bid.own = some o)
    (landing : o.state = .settling ∨ o.state = .granted) (other : r.desc.tag ≠ o.desc.tag) (same : CheckSame o s v)
    (held : s.record r.desc.tag = some old) : Judged s (changeRecord old r v) o r := by
  let t := v.setRecords (replaceRecord r v.track.records)
  let u := if old.altered v.line.highWater r = true then noteChange r.desc.lanes t else t
  have put : CheckSame o v t := setRecords_check (by rw [setRecords_replace, if_neg other])
  have here : t.record r.desc.tag = some r := by rw [setRecords_replace, if_pos rfl]
  have noted : CheckSame o v u ∧ u.record r.desc.tag = some r := by
    by_cases altered : old.altered v.line.highWater r = true
    · rw [show u = noteChange r.desc.lanes t from if_pos altered]
      exact ⟨put.trans (noteChange_check o _ t),
        (record_congr (congrArg TrackList.records (noteChange_frame _ _ .track (by decide))) _).trans here⟩
    · rw [show u = t from if_neg altered]
      exact ⟨put, here⟩
  refine Judged.of_recheck own landing other (same.trans noted.1) noted.2 (old.moved v.line.highWater r = true) ?_
  rw [same.line, moved_iff]
  refine ⟨fun moves x found => ?_, fun all => all old held⟩
  obtain rfl : old = x := Option.some.inj (held.symm.trans found)
  exact moves

/-- A new record is re-checked (R33, R94). -/
theorem insertNew_judged {s v : State} {o : OwnBid} {r : Record} (own : s.bid.own = some o)
    (landing : o.state = .settling ∨ o.state = .granted) (other : r.desc.tag ≠ o.desc.tag) (same : CheckSame o s v)
    (fresh : s.record r.desc.tag = none) (fresh' : v.record r.desc.tag = none) : Judged s (insertNew r v) o r := by
  have put : CheckSame o v (v.setRecords (insertRecord r v.track.records)) :=
    setRecords_check (by rw [inserted_record fresh', if_neg other])
  have here := joined_record fresh' r.desc.tag
  rw [if_pos rfl] at here
  have judged := Judged.of_recheck own landing other (same.trans (put.trans (noteChange_check o r.desc.lanes _))) here True
    ⟨fun _ x held => (by rw [fresh] at held; cases held), fun _ => trivial⟩
  rwa [if_pos trivial] at judged

/-- A record replaced whole by one in another state is re-checked (R40, R42, R94). -/
theorem replaceWhole_judged {s : State} {o : OwnBid} {old r : Record} (own : s.bid.own = some o)
    (landing : o.state = .settling ∨ o.state = .granted) (other : r.desc.tag ≠ o.desc.tag)
    (held : s.record r.desc.tag = some old) (changed : old.state ≠ r.state)
    (unnamed : ∀ i, (s.outfeed.streams.get i).spacer ≠ .requested (some r.desc.tag)) :
    Judged s (replaceWhole old r s) o r := by
  have tag : old.desc.tag = r.desc.tag := (record_tag held).1
  let g := forgetTag old.desc.tag (noteChange old.desc.lanes s)
  have kept : CheckSame o s g := (noteChange_check o _ s).trans (forgetTag_check _)
  have streams : g.outfeed.streams = s.outfeed.streams := noteChange_streams old.desc.lanes s
  have idle : endPieceGone old.desc.tag g = g := endPieceGone_idle (fun i => by
    rw [streams, tag]
    exact unnamed i)
  have put : CheckSame o g (g.setRecords (replaceRecord r g.track.records)) :=
    setRecords_check (by rw [setRecords_replace, if_neg other])
  have here : (noteChange r.desc.lanes (g.setRecords (replaceRecord r g.track.records))).record r.desc.tag = some r :=
    (record_congr (congrArg TrackList.records (noteChange_frame _ _ .track (by decide))) _).trans
      (by rw [setRecords_replace, if_pos rfl])
  have judged := Judged.of_recheck own landing other (kept.trans (put.trans (noteChange_check o r.desc.lanes _))) here True
    ⟨fun _ x found => by
      obtain rfl : old = x := Option.some.inj (held.symm.trans found)
      exact .inr (.inl changed), fun _ => trivial⟩
  rw [if_pos trivial] at judged
  show Judged s (putRecord r (endPieceGone old.desc.tag g)) o r
  rw [idle]
  exact judged

/-- A SIGHTING SEEN about another tag judges the own bid by the record it leaves (R41, R94). -/
theorem fileSeen_judged {s : State} {o : OwnBid} {d : Desc} (own : s.bid.own = some o)
    (landing : o.state = .settling ∨ o.state = .granted) (other : o.desc.tag ≠ d.tag)
    (room : (s.record d.tag).isSome = true ∨ (d.kind ≠ .spacer ∧ s.track.records.length < 64)) (tl : Count) (m n : Nat) :
    ∃ r, (fileSeen d tl m n s).record d.tag = some r ∧ Judged s (fileSeen d tl m n s) o r := by
  obtain ⟨still, moves, unknown⟩ := fileSeen_record s d tl m n
  cases held : s.record d.tag with
  | some r =>
    by_cases spacer : r.state = .spacer
    · refine ⟨r, still r held spacer, fun bumped => ?_, fun _ => ?_⟩
      · have seen := bumped.1
        rw [spacer] at seen
        rcases seen with seen | seen <;> cases seen
      · rw [fileSeen_spacer held spacer]
        exact ⟨own, rfl⟩
    · have tag : (s.seenAs r d tl m n).desc.tag = d.tag := (record_tag held).1
      refine ⟨_, moves r held spacer, ?_⟩
      rw [fileSeen_held held spacer]
      exact changeRecord_judged own landing (by rw [tag]; exact other.symm) (takeFree_check o _ s) (by rw [tag]; exact held)
  | none =>
    obtain ⟨kind, few⟩ := room.resolve_left (by rw [held]; nofun)
    refine ⟨_, unknown held kind few, ?_⟩
    rw [fileSeen_unknown held kind, fileRecord_new (by rw [takeFree_record]; exact held) (by rwa [takeFree_records])]
    exact insertNew_judged own landing other.symm (takeFree_check o _ s) held (by rw [takeFree_record]; exact held)

/-- A SIGHTING STRAY about another tag judges the own bid by the record it leaves (R42, R94). -/
theorem strayEffect_judged {s : State} {o : OwnBid} {d : Desc} (own : s.bid.own = some o)
    (landing : o.state = .settling ∨ o.state = .granted) (other : o.desc.tag ≠ d.tag)
    (room : (s.record d.tag).isSome = true ∨ s.track.records.length < 64)
    (unnamed : ∀ i, (s.outfeed.streams.get i).spacer ≠ .requested (some d.tag)) (tl : Count) (n : Nat) :
    ∃ r, (strayEffect d tl n s).record d.tag = some r ∧ Judged s (strayEffect d tl n s) o r := by
  have elsewhere : s.ownElsewhere d.tag := fun x live => by
    obtain rfl : o = x := Option.some.inj (own.symm.trans live)
    exact other
  obtain ⟨stays, becomes⟩ := strayEffect_record elsewhere room tl n
  cases held : s.record d.tag with
  | some r =>
    by_cases stray : r.state = .stray
    · have tag : (strayChange r tl d.length n).desc.tag = d.tag := (record_tag held).1
      refine ⟨_, stays r held stray, ?_⟩
      rw [strayEffect_stray held stray]
      exact changeRecord_judged own landing (by rw [tag]; exact other.symm)
        { RecallSame.refl o s with own := rfl, run := rfl, line := rfl } (by rw [tag]; exact held)
    · have only : ∀ x, s.record d.tag = some x → x.state ≠ .stray := fun x found => by
        obtain rfl : r = x := Option.some.inj (held.symm.trans found)
        exact stray
      refine ⟨_, becomes only, ?_⟩
      rw [strayEffect_other only]
      unfold fileRecord
      rw [show s.record (strayRecord d tl n (s.passedAtFiling n tl)).desc.tag = some r from held]
      exact replaceWhole_judged own landing other.symm held stray unnamed
  | none =>
    have only : ∀ x, s.record d.tag = some x → x.state ≠ .stray := fun x found => by
      rw [held] at found
      cases found
    refine ⟨_, becomes only, ?_⟩
    rw [strayEffect_other only, fileRecord_new (r := strayRecord d tl n (s.passedAtFiling n tl)) held
      (room.resolve_left (by rw [held]; nofun))]
    exact insertNew_judged own landing other.symm { RecallSame.refl o s with own := rfl, run := rfl, line := rfl } held held

/-- The bid engine's part of a SIGHTING SEEN leaves a landing bid's judgement (R98, R100). -/
theorem Judged.seenBid {s w : State} {o : OwnBid} {r : Record} (h : Judged s w o r)
    (landing : o.state = .settling ∨ o.state = .granted) (d : Desc) (m n : Nat) : Judged s (seenBid d m n w) o r := by
  have unfired : w.ownIs .fired d.tag = false := by
    by_cases bumped : s.bumpedBy r o
    · exact ownIs_none (h.bumps bumped).1 _ _
    · unfold State.ownIs
      rw [(h.stands bumped).1]
      rcases landing with state | state <;> simp [state]
  unfold Machine.seenBid
  split
  · rw [show confirm d m w = w from if_neg (by rw [unfired]; nofun)]
    exact h
  · split
    · exact h.leaveDeferral n
    · exact h

/-! ## A SIGHTING dropped at the full list (R51) -/

/-- From `s` to `w` a description was dropped at the full list, with no own bid to react to TRACK_FULL (R51, R81). -/
structure Dropped (s w : State) (d : Desc) (code : Nat) : Prop where
  records : w.track.records = s.track.records
  own : w.bid.own = none
  hold : w.bid.hold = { s.bid.hold with trackFull := true }
  link : w.link = s.link
  fifo : w.fifo = if s.bid.hold.trackFull = true then s.fifo else
    s.withEvent { kind := .trackFull, tag := some d.tag, article := some d.article, lot := some d.lot
                  a := some 64, code := some code }

theorem fileRecord_dropped {s : State} {r : Record} (idle : s.bid.own = none) (unknown : s.record r.desc.tag = none)
    (full : 64 ≤ s.track.records.length) (k : Nat) : Dropped s (fileRecord r k s) r.desc k := by
  obtain ⟨bid, fifo, frame⟩ := overflow_told idle r.desc k
  rw [fileRecord_overflows unknown full]
  exact ⟨by rw [frame .track (by decide)], by rw [bid]; exact idle, by rw [bid], frame .link (by decide), fifo⟩

theorem seenEffect_dropped {s : State} {d : Desc} (idle : s.bid.own = none) (unknown : s.record d.tag = none)
    (kind : d.kind ≠ .spacer) (full : 64 ≤ s.track.records.length) (tl : Count) (m n : Nat) :
    Dropped s (seenEffect d tl m n s) d 2 := by
  let r := seenRecord d (s.createdReject d) tl m n (s.passedAtFiling n tl)
  let v := takeFree (d.kind != .stray && usesFree .none d.reject) s
  have free : SameBut [.track] s v := takeFree_frame _ s
  have bid : v.bid = s.bid := free .bid (by decide)
  have dropped := fileRecord_dropped (s := v) (r := r) (by rw [bid]; exact idle) (by rw [takeFree_record]; exact unknown)
    (by rwa [takeFree_records]) 2
  have filed : fileSeen d tl m n s = fileRecord r 2 v := fileSeen_unknown unknown kind tl m n
  have same : seenEffect d tl m n s = fileRecord r 2 v ∨ seenEffect d tl m n s = leaveDeferral n (fileRecord r 2 v) := by
    have unfired : confirm d m (fileRecord r 2 v) = fileRecord r 2 v := if_neg (by rw [ownIs_none dropped.own]; nofun)
    unfold seenEffect seenBid
    rw [filed, unfired]
    split
    · exact .inl rfl
    · split
      · exact .inr rfl
      · exact .inl rfl
  have told : ∀ e, v.withEvent e = s.withEvent e := withEvent_congr (free .fifo (by decide)) (free .store (by decide))
  obtain ⟨records, own, hold, link, fifo⟩ := dropped
  rw [bid] at hold fifo
  rw [told, show v.fifo = s.fifo from free .fifo (by decide)] at fifo
  have result : Dropped s (fileRecord r 2 v) d 2 :=
    ⟨records.trans (takeFree_records _ s), own, hold, link.trans (free .link (by decide)), fifo⟩
  rcases same with same | same
  · rw [same]
    exact result
  · rw [same]
    exact { result with }

theorem strayEffect_dropped {s : State} {d : Desc} (idle : s.bid.own = none) (unknown : s.record d.tag = none)
    (full : 64 ≤ s.track.records.length) (tl : Count) (n : Nat) : Dropped s (strayEffect d tl n s) d 3 := by
  rw [strayEffect_other (fun r held => by rw [unknown] at held; cases held)]
  obtain ⟨records, own, hold, link, fifo⟩ :=
    fileRecord_dropped (r := strayRecord d tl n (s.passedAtFiling n tl)) idle unknown full 3
  exact ⟨records, own, hold, link, fifo⟩

/-- What a dropped SIGHTING leaves at the end of the step: TRACK_FULL keeps the station from every search (R51, R78). -/
theorem Dropped.finish {s w : State} {d : Desc} {code : Nat} (h : Dropped s w d code) : Dropped s (finish w) d code := by
  have held : w.bid.hold.any = true := by
    rw [h.hold]
    unfold HoldSet.any
    simp
  obtain ⟨own, frame⟩ := finish_held held
  refine ⟨?_, own.trans h.own, ?_, (frame .link (by decide)).trans h.link, ?_⟩
  · rw [finish_track_records, h.records]
  · rw [finish_bid_hold, h.hold]
  · rw [finish_fifo, h.fifo]

/-- A description is dropped alike where a frame was heard before it. -/
theorem Dropped.of_reached {s u w : State} {time : Nat} {d : Desc} {code : Nat} (reached : Reached s u time) (bid : u.bid = s.bid)
    (h : Dropped u w d code) : w.track.records = s.track.records ∧ w.bid.hold = { s.bid.hold with trackFull := true }
      ∧ w.bid.own = none ∧ w.link.outbox = u.link.outbox
      ∧ w.fifo = (if s.bid.hold.trackFull = true then s.fifo else
          s.withEvent { kind := .trackFull, tag := some d.tag, article := some d.article, lot := some d.lot
                        a := some 64, code := some code }) := by
  obtain ⟨records, own, hold, link, fifo⟩ := h
  rw [bid] at hold
  rw [bid, reached.withEvent, reached.frame .fifo (by decide)] at fifo
  exact ⟨by rw [records, reached.frame .track (by decide)], hold, own, by rw [link], fifo⟩

end Sys2Proof.Machine
end

section
/-! The obligation of SIGHTING SEEN and SIGHTING STRAY, settled (R25, R39, R41, R42, R51, R94, R98, R100). -/
namespace Sys2Proof.Machine

/-! ## A SIGHTING from another station -/

theorem seen_heard {s : State} {h : Heard} {p front back : List Byte} {hi lo : Byte} {d : Desc}
    (hears : s.hears h .sightingSeen) (length : p.length = 16) (bytes : front ++ back = p ++ [hi, lo])
    (read : readDesc s.run.lineLanes (placedAt p).desc = some d) :
    exec (.sightingSeen h front back) s = .next (finish (seenEffect d (plus s.line.count (placedAt p).distance.toInt)
      (256 * hi.toNat + lo.toNat) h.sender.toNat (hearing h.sender.toNat none (advanceTo h.time s)))) := by
  have acted := hearing_actedOn h.sender.toNat none h.time s
  rw [sightingSeen_exec, bytes, accept_heard hears (by rw [List.length_append, length]; rfl),
    seenOf_read acted.run acted.count length read]

theorem stray_heard {s : State} {h : Heard} {p : List Byte} {d : Desc} (hears : s.hears h .sightingStray)
    (length : p.length = 16) (read : readStray s.run.lineLanes (placedAt p).desc = some d) :
    exec (.sightingStray h p) s = .next (finish (strayEffect d (plus s.line.count (placedAt p).distance.toInt)
      h.sender.toNat (hearing h.sender.toNat none (advanceTo h.time s)))) := by
  have acted := hearing_actedOn h.sender.toNat none h.time s
  rw [sightingStray_exec, accept_heard hears length, strayOf_read acted.run acted.count read]

/-- SIGHTING SEEN of a peer: what stands under its tag, and the deferral set (R41, R100). -/
theorem seen_peer_spec (s : State) (h : Heard) (p front back : List Byte) (hi lo : Byte) (d : Desc) (tl : Count) (passed : Bool)
    (hears : s.hears h .sightingSeen) (length : p.length = 16) (bytes : front ++ back = p ++ [hi, lo])
    (read : readDesc s.run.lineLanes (placedAt p).desc = some d) (elsewhere : s.ownElsewhere d.tag)
    (place : tl = plus s.line.count (placedAt p).distance.toInt)
    (flag : passed = true ↔ (∃ q f, s.peer h.sender.toNat = some q ∧ q.hailed = some f
        ∧ f.eye < (if s.role = .throat then 0 else s.run.station.eye))
      ∨ 0 < signedDiff s.line.count (plus tl (s.run.tolerance - s.run.eye))) :
    ∃ t, exec (.sightingSeen h front back) s = .next t
      ∧ (∀ r, s.record d.tag = some r → r.state = .spacer → t.record d.tag = some r)
      ∧ (∀ r, s.record d.tag = some r → r.state ≠ .spacer →
          t.record d.tag = some (s.seenAs r d tl (256 * hi.toNat + lo.toNat) h.sender.toNat))
      ∧ (s.record d.tag = none → d.kind ≠ .spacer → s.track.records.length < 64 →
          t.record d.tag = some (seenRecord d (s.createdReject d) tl (256 * hi.toNat + lo.toNat) h.sender.toNat passed))
      ∧ t.bid.deferral = (if d.tag.owner.toNat = h.sender.toNat
          then s.bid.deferral &&& ~~~(stationBit h.sender.toNat) else s.bid.deferral)
      ∧ SameBut heardBlocks s t := by
  let n := h.sender.toNat
  let u := hearing n none (advanceTo h.time s)
  have acted : ActedOn s u h.time := hearing_actedOn n none h.time s
  have taken := seen_heard hears length bytes read
  rw [← place] at taken
  have record : u.record d.tag = s.record d.tag := acted.gone.record _ elsewhere
  have free : u.track.free = s.track.free := acted.gone.free
  obtain ⟨still, moves, unknown⟩ := fileSeen_record u d tl (256 * hi.toNat + lo.toNat) n
  rw [record] at still moves unknown
  have seenAs : ∀ r, u.seenAs r d tl (256 * hi.toNat + lo.toNat) n = s.seenAs r d tl (256 * hi.toNat + lo.toNat) n := fun r => by
    unfold State.seenAs
    rw [free]
  have created : u.createdReject d = s.createdReject d := by
    unfold State.createdReject
    rw [free]
  have apart : n ≠ u.number := by
    obtain ⟨-, -, apart, -⟩ := hears
    rw [acted.number]
    exact apart
  refine ⟨_, taken, fun r held spacer => ?_, fun r held other => ?_, fun fresh kind room => ?_, ?_, ?_⟩
  · rw [seenEffect_record]
    exact still r held spacer
  · rw [seenEffect_record, ← seenAs]
    exact moves r held other
  · rw [seenEffect_record, ← created, ← heard_filing h tl flag]
    exact unknown fresh kind (lt_of_le_of_lt acted.gone.sub.length_le room)
  · rw [seenEffect_deferral]
    rw [show u.bid.deferral = s.bid.deferral from acted.deferral]
    exact if_congr (and_iff_right apart) rfl rfl
  · exact ((acted.frame.widen (by decide)).trans ((seenEffect_frame _ _ _ _ u).widen (by decide))).trans
      ((finish_frame _).widen (by decide))

/-- SIGHTING STRAY of a peer (R42). -/
theorem stray_peer_spec (s : State) (h : Heard) (p : List Byte) (d : Desc) (tl : Count) (passed : Bool)
    (hears : s.hears h .sightingStray) (length : p.length = 16)
    (read : readStray s.run.lineLanes (placedAt p).desc = some d) (elsewhere : s.ownElsewhere d.tag)
    (place : tl = plus s.line.count (placedAt p).distance.toInt)
    (flag : passed = true ↔ (∃ q f, s.peer h.sender.toNat = some q ∧ q.hailed = some f
        ∧ f.eye < (if s.role = .throat then 0 else s.run.station.eye))
      ∨ 0 < signedDiff s.line.count (plus tl (s.run.tolerance - s.run.eye)))
    (room : (s.record d.tag).isSome = true ∨ s.track.records.length < 64) :
    ∃ t, exec (.sightingStray h p) s = .next t
      ∧ (∀ r, s.record d.tag = some r → r.state = .stray →
          t.record d.tag = some (strayChange r tl d.length h.sender.toNat))
      ∧ ((∀ r, s.record d.tag = some r → r.state ≠ .stray) → t.record d.tag = some (strayRecord d tl h.sender.toNat passed))
      ∧ SameBut heardBlocks s t := by
  let n := h.sender.toNat
  let u := hearing n none (advanceTo h.time s)
  have acted : ActedOn s u h.time := hearing_actedOn n none h.time s
  have taken := stray_heard hears length read
  rw [← place] at taken
  have record : u.record d.tag = s.record d.tag := acted.gone.record _ elsewhere
  obtain ⟨stays, becomes⟩ := strayEffect_record (acted.gone.tags _ elsewhere)
    (room.imp (fun held => by rwa [record]) (fun few => lt_of_le_of_lt acted.gone.sub.length_le few)) tl n
  rw [record] at stays becomes
  rw [show u.passedAtFiling n tl = passed from heard_filing h tl flag] at becomes
  refine ⟨_, taken, fun r held stray => ?_, fun only => ?_, ?_⟩
  · rw [finish_record]
    exact stays r held stray
  · rw [finish_record]
    exact becomes only
  · exact ((acted.frame.widen (by decide)).trans ((strayEffect_frame _ _ _ u).widen (by decide))).trans
      ((finish_frame _).widen (by decide))

/-! ## The station's own SIGHTING -/

/-- After an own message the outbox holds nothing that is SENDING, and the sender is recorded (R150, R154). -/
theorem own_message_ends {s u w : State} (outbox : u.link.outbox = s.link.outbox.filter (fun e => !e.sending))
    (sender : u.link.lastSender = some s.number) (kept : HeardKept u w) (nothing : SendsNothing u w) :
    (finish w).sending = none ∧ (finish w).link.lastSender = some s.number ∧ (finish w).link.health = u.link.health := by
  have still : outboxStill u.link.outbox := fun x mem => by
    rw [outbox] at mem
    simpa using (List.mem_filter.mp mem).2
  refine ⟨(sending_none_iff _).mpr ((finish_steady _).still (nothing still)), ?_, ?_⟩
  · rw [finish_link_lastSender, kept.link, sender]
  · rw [finish_link_health, kept.link]

/-- The own SIGHTING SEEN about the fired tag confirms the fired bid (R98). -/
theorem confirm_fired {s : State} {o : OwnBid} (own : s.bid.own = some o) (fired : o.state = .fired)
    (released : (s.feed.positions.get o.serves).state ≠ .bidding) {d : Desc} (tag : o.desc.tag = d.tag) (m : Nat) :
    (confirm d m s).bid.own = none ∧ (confirm d m s).fifo =
      s.withEvent { kind := .confirmed, a := some m, code := some (rejectCode d.reject) } := by
  have ends : confirm d m s = raise { kind := .confirmed, a := some m, code := some (rejectCode d.reject) } (endOwn s) :=
    if_pos (by rw [← tag, ← fired]; exact ownIs_self own)
  rw [ends]
  exact ⟨endOwn_own s, withEvent_congr (endOwn_quiet own released) (endOwn_frame s .store (by decide)) _⟩

theorem fileSeen_held_left {s : State} (fixed : s.ownFixed) {d : Desc} (held : (s.record d.tag).isSome = true) (tl : Count)
    (m n : Nat) : OwnLeft [.track, .bid, .outfeed] s (fileSeen d tl m n s) := by
  obtain ⟨r, held⟩ := Option.isSome_iff_exists.mp held
  by_cases spacer : r.state = .spacer
  · rw [fileSeen_spacer held spacer]
    exact .refl _ s
  · have free : OwnLeft [.track, .bid, .outfeed] s (takeFree (usesFree r.desc.reject d.reject) s) :=
      (OwnLeft.of_frame (takeFree_frame _ s) (by decide)).widen (by decide)
    rw [fileSeen_held held spacer]
    exact free.trans (changeRecord_left (free.fixed fixed) _ _)

theorem seen_confirms (s : State) (h : Heard) (p measured : List Byte) (d : Desc) (tl : Count) (n : Nat) (o : OwnBid)
    (hears : s.hearsOwn h (.seen d tl n) (p ++ measured)) (own : s.bid.own = some o) (fired : o.state = .fired)
    (tag : o.desc.tag = d.tag) (held : (s.record d.tag).isSome = true)
    (released : (s.feed.positions.get o.serves).state ≠ .bidding) :
    ∃ t, exec (.sightingSeen h p measured) s = .next t
      ∧ (∀ o', t.bid.own = some o' → o'.state = .queued) ∧ t.sending = none
      ∧ t.fifo = s.withEvent { kind := .confirmed, a := some n, code := some (rejectCode d.reject) }
      ∧ t.link.lastSender = some s.number
      ∧ SameBut ([.now, .line] ++ settlingBlocks ++ [.fifo]) s t := by
  obtain ⟨u, taken, reached, outbox, sender, -, frame⟩ := seen_own hears
  have live : u.bid.own = some o := reached.own.trans own
  have left := fileSeen_held_left (ownFixed_fired live fired) (by rw [reached.record]; exact held) tl n s.number
  let v := fileSeen d tl n s.number u
  have effect : seenEffect d tl n s.number u = confirm d n v := if_pos (by
    show s.number = v.number
    exact (reached.number.symm.trans (congrArg (fun f => f.station.number) (left.frame .run (by decide))).symm))
  obtain ⟨ended, told⟩ := confirm_fired (left.own.trans live) fired (by
    rw [left.frame .feed (by decide), frame .feed (by decide)]
    exact released) tag n
  rw [← effect] at ended told
  obtain ⟨still, last, -⟩ := own_message_ends outbox sender (seenEffect_heardKept d tl n s.number u)
    (seenEffect_sendsNothing d tl n s.number u)
  refine ⟨_, taken, fun o' queued => ?_, still, ?_, last, ?_⟩
  · rcases finish_fresh ended with idle | ⟨x, fresh, state, -⟩
    · rw [idle] at queued
      cases queued
    · rw [fresh] at queued
      cases queued
      exact state
  · rw [finish_fifo, told]
    exact withEvent_congr ((left.frame .fifo (by decide)).trans (frame .fifo (by decide)))
      ((left.frame .store (by decide)).trans (frame .store (by decide))) _
  · have confirmed : SameBut [.bid, .feed, .fifo] v (seenEffect d tl n s.number u) := by
      rw [effect]
      exact confirm_frame d n v
    exact (((frame.widen (by decide)).trans (left.frame.widen (by decide))).trans (confirmed.widen (by decide))).trans
      ((finish_frame _).widen (by decide))

theorem seen_own_spec (s : State) (h : Heard) (front back : List Byte) (d : Desc) (tl : Count) (n : Nat) (passed : Bool)
    (hears : s.hearsOwn h (.seen d tl n) (front ++ back))
    (flag : passed = true ↔ (∃ q f, s.peer s.number = some q ∧ q.hailed = some f
        ∧ f.eye < (if s.role = .throat then 0 else s.run.station.eye))
      ∨ 0 < signedDiff s.line.count (plus tl (s.run.tolerance - s.run.eye))) :
    ∃ t, exec (.sightingSeen h front back) s = .next t
      ∧ (∀ r, s.record d.tag = some r → r.state = .spacer → t.record d.tag = some r)
      ∧ (∀ r, s.record d.tag = some r → r.state ≠ .spacer → t.record d.tag = some (s.seenAs r d tl n s.number))
      ∧ (s.record d.tag = none → d.kind ≠ .spacer → s.track.records.length < 64 →
          t.record d.tag = some (seenRecord d (s.createdReject d) tl n s.number passed))
      ∧ t.bid.deferral = s.bid.deferral ∧ t.link.health = s.link.health
      ∧ t.sending = none ∧ t.link.lastSender = some s.number
      ∧ SameBut ([.now, .line] ++ listBlocks) s t := by
  obtain ⟨u, taken, reached, outbox, sender, health, frame⟩ := seen_own hears
  have track : u.track = s.track := frame .track (by decide)
  obtain ⟨still, moves, unknown⟩ := fileSeen_record u d tl n s.number
  rw [reached.record] at still moves unknown
  obtain ⟨sending, last, kept⟩ := own_message_ends outbox sender (seenEffect_heardKept d tl n s.number u)
    (seenEffect_sendsNothing d tl n s.number u)
  refine ⟨_, taken, fun r held spacer => ?_, fun r held other => ?_, fun fresh kind room => ?_, ?_, kept.trans health, sending,
    last, ?_⟩
  · rw [seenEffect_record]
    exact still r held spacer
  · rw [seenEffect_record, moves r held other]
    unfold State.seenAs
    rw [track]
  · rw [seenEffect_record, unknown fresh kind (by rwa [track]), own_filing frame reached.count flag]
    unfold State.createdReject
    rw [track]
  · rw [seenEffect_deferral, if_neg (fun both => both.1 reached.number.symm), frame .bid (by decide)]
  · exact ((frame.widen (by decide)).trans ((seenEffect_frame _ _ _ _ u).widen (by decide))).trans
      ((finish_frame _).widen (by decide))

theorem stray_own_spec (s : State) (h : Heard) (p : List Byte) (d : Desc) (tl : Count) (passed : Bool)
    (hears : s.hearsOwn h (.stray d tl) p) (elsewhere : s.ownElsewhere d.tag)
    (flag : passed = true ↔ (∃ q f, s.peer s.number = some q ∧ q.hailed = some f
        ∧ f.eye < (if s.role = .throat then 0 else s.run.station.eye))
      ∨ 0 < signedDiff s.line.count (plus tl (s.run.tolerance - s.run.eye)))
    (room : (s.record d.tag).isSome = true ∨ s.track.records.length < 64) :
    ∃ t, exec (.sightingStray h p) s = .next t
      ∧ (∀ r, s.record d.tag = some r → r.state = .stray → t.record d.tag = some (strayChange r tl d.length s.number))
      ∧ ((∀ r, s.record d.tag = some r → r.state ≠ .stray) → t.record d.tag = some (strayRecord d tl s.number passed))
      ∧ t.bid.deferral = s.bid.deferral ∧ t.link.health = s.link.health
      ∧ t.sending = none ∧ t.link.lastSender = some s.number
      ∧ SameBut ([.now, .line] ++ listBlocks) s t := by
  obtain ⟨u, taken, reached, outbox, sender, health, frame⟩ := stray_own hears
  have steady := strayEffect_steady d tl s.number u
  obtain ⟨stays, becomes⟩ := strayEffect_record (s := u) (d := d) (fun o live => elsewhere o (reached.own ▸ live))
    (by rw [reached.record, frame .track (by decide)]; exact room) tl s.number
  rw [reached.record] at stays becomes
  rw [own_filing frame reached.count flag] at becomes
  obtain ⟨sending, last, kept⟩ := own_message_ends outbox sender (strayEffect_heardKept d tl s.number u) steady.still
  refine ⟨_, taken, fun r held stray => ?_, fun only => ?_, ?_, kept.trans health, sending, last, ?_⟩
  · rw [finish_record]
    exact stays r held stray
  · rw [finish_record]
    exact becomes only
  · rw [finish_bid_deferral, steady.deferral, frame .bid (by decide)]
  · exact ((frame.widen (by decide)).trans ((strayEffect_frame _ _ _ u).widen (by decide))).trans
      ((finish_frame _).widen (by decide))

/-! ## The four rows of a SIGHTING -/

/-- The entry that leaves the outbox makes room enough for what a waiting BID takes (R154, R155). -/
theorem own_room {s u : State} {h : Heard} {m : Msg} {p : List Byte} (hears : s.hearsOwn h m p)
    (outbox : u.link.outbox = s.link.outbox.filter (fun e => !e.sending)) : s.roomFirst → u.roomFirst := fun room => by
  have fewer : u.link.outbox.length < s.link.outbox.length := by
    obtain ⟨-, -, -, -, ⟨e, sending, -⟩, -⟩ := hears
    rw [outbox]
    refine List.length_filter_lt_length_iff_exists.mpr ⟨e, List.mem_of_find?_eq_some sending, ?_⟩
    simpa using List.find?_some sending
  have reserved : u.link.reserved ≤ 1 := by
    unfold LinkController.reserved
    split <;> omega
  unfold State.roomFirst at room ⊢
  omega

/-- Settles O38: the records of both SIGHTINGs, CONFIRMED, the deferral, the full list, and the bump. -/
theorem sightingsFileRecords : Obligations.SightingsFileRecords := by
  refine ⟨?seen, ?stray, seen_confirms, ?seenOwn, ?strayOwn, ?full, ?bump⟩
  case seen =>
    intro s h p front back hi lo d tl passed hears length bytes read elsewhere place flag
    obtain ⟨t, taken, spacer, held, fresh, rest⟩ :=
      seen_peer_spec s h p front back hi lo d tl passed hears length bytes read elsewhere place flag
    refine ⟨t, taken, spacer, fun r there other => ?_, fun unknown kind room => ?_, rest⟩
    · rw [held r there other, ← combine_eq]
      rfl
    · rw [fresh unknown kind room, ← createdReject_eq]
      rfl
  case stray =>
    intro s h p d tl passed hears length read elsewhere place flag room
    exact stray_peer_spec s h p d tl passed hears length read elsewhere place flag room
  case seenOwn =>
    intro s h front back d tl n passed hears _ flag
    exact seen_own_spec s h front back d tl n passed hears flag
  case strayOwn =>
    intro s h p d tl passed hears elsewhere flag room
    exact stray_own_spec s h p d tl passed hears elsewhere flag room
  case full =>
    intro s u h c p front back d code follows row unknown full idle
    rcases row with ⟨hi, lo, rfl, hears, length, bytes, read, kind, knows, rfl, rfl⟩ | ⟨rfl, hears, length, read, knows, rfl, rfl⟩ |
      ⟨tl, n, rfl, hears, kind, rfl, rfl⟩ | ⟨tl, rfl, hears, rfl, rfl⟩
    · obtain ⟨v, accepted, reached, outbox, bid⟩ := accept_settled follows hears knows (payload := front ++ back)
        (by rw [bytes, List.length_append, length]; rfl) (some (placedAt (front ++ back)).desc.tag)
        (seenOf h.sender.toNat (front ++ back))
      rw [bytes, seenOf_read (reached.frame .run (by decide)) reached.count length read, ← bytes] at accepted
      refine ⟨_, (sightingSeen_exec ..).trans (congrArg Host.Outcome.next accepted), ?_⟩
      rw [← outbox]
      exact (seenEffect_dropped (reached.own.trans idle) (by rwa [reached.record]) kind
        (by rwa [reached.frame .track (by decide)]) _ _ _).finish.of_reached reached bid
    · obtain ⟨v, accepted, reached, outbox, bid⟩ := accept_settled follows hears knows length (some (placedAt p).desc.tag)
        (strayOf h.sender.toNat p)
      rw [strayOf_read (reached.frame .run (by decide)) reached.count read] at accepted
      refine ⟨_, (sightingStray_exec ..).trans (congrArg Host.Outcome.next accepted), ?_⟩
      rw [← outbox]
      exact (strayEffect_dropped (reached.own.trans idle) (by rwa [reached.record])
        (by rwa [reached.frame .track (by decide)]) _ _).finish.of_reached reached bid
    · obtain ⟨v, taken, reached, outbox, -, -, frame⟩ := seen_own hears
      refine ⟨_, taken, ?_⟩
      rw [show (s.setOutbox (s.link.outbox.filter (fun e => !e.sending))).link.outbox = v.link.outbox from outbox.symm]
      exact (seenEffect_dropped (reached.own.trans idle) (by rwa [reached.record]) kind
        (by rwa [frame .track (by decide)]) _ _ _).finish.of_reached reached (frame .bid (by decide))
    · obtain ⟨v, taken, reached, outbox, -, -, frame⟩ := stray_own hears
      refine ⟨_, taken, ?_⟩
      rw [show (s.setOutbox (s.link.outbox.filter (fun e => !e.sending))).link.outbox = v.link.outbox from outbox.symm]
      exact (strayEffect_dropped (reached.own.trans idle) (by rwa [reached.record])
        (by rwa [frame .track (by decide)]) _ _).finish.of_reached reached (frame .bid (by decide))
  case bump =>
    intro s h c p front back d o row room unnamed own landing other
    obtain ⟨u, tl, n, reached, free, acts⟩ : ∃ u tl n, Reached s u h.time ∧ (s.roomFirst → u.roomFirst)
        ∧ ((∃ m, exec c s = .next (finish (seenEffect d tl m n u))) ∨ exec c s = .next (finish (strayEffect d tl n u))) := by
      rcases row with ⟨hi, lo, rfl, hears, knows, length, bytes, read⟩ | ⟨rfl, hears, knows, length, read⟩ |
        ⟨tl, n, rfl, hears⟩ | ⟨tl, rfl, hears⟩
      · obtain ⟨u, accepted, reached, outbox⟩ := accept_known hears knows (payload := front ++ back)
          (by rw [bytes, List.length_append, length]; rfl) (some (placedAt (front ++ back)).desc.tag)
          (seenOf h.sender.toNat (front ++ back))
        rw [bytes, seenOf_read (reached.frame .run (by decide)) reached.count length read, ← bytes] at accepted
        exact ⟨u, _, _, reached, (roomFirst_of_lists outbox reached.waiting).mpr,
          .inl ⟨_, (sightingSeen_exec ..).trans (congrArg Host.Outcome.next accepted)⟩⟩
      · obtain ⟨u, accepted, reached, outbox⟩ := accept_known hears knows length (some (placedAt p).desc.tag)
          (strayOf h.sender.toNat p)
        rw [strayOf_read (reached.frame .run (by decide)) reached.count read] at accepted
        exact ⟨u, _, _, reached, (roomFirst_of_lists outbox reached.waiting).mpr,
          .inr ((sightingStray_exec ..).trans (congrArg Host.Outcome.next accepted))⟩
      · obtain ⟨u, taken, reached, outbox, -⟩ := seen_own hears
        exact ⟨u, tl, _, reached, own_room hears outbox, .inl ⟨n, taken⟩⟩
      · obtain ⟨u, taken, reached, outbox, -⟩ := stray_own hears
        exact ⟨u, tl, _, reached, own_room hears outbox, .inr taken⟩
    have live : u.bid.own = some o := reached.own.trans own
    have room' : (u.record d.tag).isSome = true ∨ (d.kind ≠ .spacer ∧ u.track.records.length < 64) := by
      rwa [reached.record, reached.frame .track (by decide)]
    rcases acts with ⟨m, taken⟩ | taken
    · obtain ⟨r, held, judged⟩ := fileSeen_judged live landing other room' tl m n
      exact ⟨_, r, taken, (seenEffect_record d tl m n u d.tag).trans held,
        ((judged.seenBid landing d m n).of_reached reached free).finish landing⟩
    · obtain ⟨r, held, judged⟩ := strayEffect_judged live landing other (room'.imp id And.right)
        (by rwa [reached.frame .outfeed (by decide)]) tl n
      exact ⟨_, r, taken, by rw [finish_record, held], (judged.of_reached reached free).finish landing⟩

end Sys2Proof.Machine
end

section
/-! The obligation of PURGE (R45, R75, R103, R109, R120, R123, R132, R143, R161). -/
namespace Sys2Proof.Machine

/-! ## The end of a step that plans nothing (R78, R139) -/

theorem planStreams_idle {s : State} (idle : ∀ i, s.plan i = none) : planStreams s = s := by
  have one : ∀ i, planStream i s = s := fun i => by
    unfold planStream
    rw [idle i]
  unfold planStreams
  split
  · rfl
  · refine List.foldlRecOn (motive := fun t : State => t = s) four _ rfl (fun t same i _ => ?_)
    rw [same, one, ite_self]

/-- Where no stream plans and no request waits, the end of a step is the search alone. -/
theorem finish_unplanned {s : State} (idle : ∀ i, s.plan i = none) (queue : s.outfeed.queue = []) :
    finish s = clearMarks (reconsider s) := by
  have handed : handRequest s = s := by
    unfold handRequest
    rw [queue]
    split
    · rename_i same
      cases same
    · rfl
  unfold finish
  rw [planStreams_idle idle, handed]

theorem eligible_spacer {s : State} {r : SpacerRequest} (h : s.eligible = some (.spacer r)) : s.bid.request = some r := by
  unfold State.eligible at h
  split at h
  · split at h
    · split at h
      · split at h <;> cases h
      · cases h
    · obtain ⟨q, request, same⟩ := Option.map_eq_some_iff.mp h
      cases same
      exact request
    · cases h
  · cases h

theorem reconsider_rivals {s : State} (h : s.bid.rivals = []) : (reconsider s).bid.rivals = [] := by
  unfold reconsider search
  split
  · split
    · split
      · rw [queueBid_bid]
      · exact h
    · exact h
  · exact h

/-- Without a request a search makes the position BIDDING that its bid serves, and no other (R78, R85). -/
theorem reconsider_served {s : State} (idle : s.bid.own = none) (request : s.bid.request = none) (j : Fin 4) :
    (reconsider s).feed.positions.get j = if (reconsider s).bid.own.any (fun o => o.serves == j) = true
      then { s.feed.positions.get j with state := .bidding } else s.feed.positions.get j := by
  have still : ∀ t : State, t.feed = s.feed → t.bid.own = none → t.feed.positions.get j =
      if t.bid.own.any (fun o => o.serves == j) = true then { s.feed.positions.get j with state := .bidding }
      else s.feed.positions.get j := fun t feed own => by
    rw [feed, own]
    rfl
  unfold reconsider
  split
  · rename_i target eligible
    split
    · unfold search
      split
      · rename_i w found
        cases target with
        | spacer r =>
          cases (eligible_spacer eligible).symm.trans request
        | head i =>
          rw [queueBid_own]
          have sent : (queueBid (.head i) w s).feed = (markBidding (.head i) (takeTag s)).feed := by
            unfold queueBid
            rw [enqueue_bid_frame _ _ _ .feed (by decide)]
            rfl
          rw [sent]
          show (s.feed.positions.set i { s.feed.positions.get i with state := .bidding }).get j =
            if (i == j) = true then _ else _
          by_cases same : i = j
          · subst same
            rw [Quad.get_set_self, if_pos (beq_self_eq_true i)]
          · rw [Quad.get_set_of_ne _ (fun eq => same eq.symm), if_neg (by simpa using same)]
      · exact still _ rfl idle
    · exact still s rfl idle
  · exact still _ rfl idle

/-! ## What a PURGE leaves -/

theorem purgeOwn_bid (s : State) : (purgeOwn s).bid = { s.bid with
    own := (purgeOwn s).bid.own, rivals := (purgeOwn s).bid.rivals } := by
  unfold purgeOwn
  split
  · rfl
  · rename_i o own
    split
    · rfl
    · rw [endOwn_bid s o own]

/-- The state after the own bid's part of a PURGE with every block emptied, but for the lanes' block bases (R161). -/
def State.emptied (t : State) : State :=
  let v := (t.setLink { t.link with outbox := purgeOutbox t.link.outbox, waitingBid := none }).setRecords []
  let x := (v.setEye { v.eye with sightings := [] }).setBid v.bid.purged
  let y := (x.setWidth (x.width.purged x.now)).setOutfeed x.outfeed.purged
  y.setThroat { y.throat with jammed := false, announced := false, relay := false }

theorem emptied_frame (t : State) :
    SameBut [.track, .eye, .bid, .width, .throat, .outfeed, .link] t t.emptied := by
  let v := (t.setLink { t.link with outbox := purgeOutbox t.link.outbox, waitingBid := none }).setRecords []
  let x := (v.setEye { v.eye with sightings := [] }).setBid v.bid.purged
  let y := (x.setWidth (x.width.purged x.now)).setOutfeed x.outfeed.purged
  have list : SameBut [.track, .eye, .bid, .width, .throat, .outfeed, .link] t v :=
    ((setLink_frame t _).widen (by decide)).trans ((setRecords_frame _ _).widen (by decide))
  have eye : SameBut [.track, .eye, .bid, .width, .throat, .outfeed, .link] v x :=
    ((setEye_frame v _).widen (by decide)).trans ((setBid_frame _ _).widen (by decide))
  have width : SameBut [.track, .eye, .bid, .width, .throat, .outfeed, .link] x y :=
    ((setWidth_frame x _).widen (by decide)).trans ((setOutfeed_frame _ _).widen (by decide))
  exact ((list.trans eye).trans width).trans ((setThroat_frame y _).widen (by decide))

/-- The blocks after a PURGE, but for the own bid and its position (R45, R75, R103, R120, R132, R143, R161). -/
structure PurgedAll (s t w : State) : Prop where
  bid : w.bid = t.bid.purged
  feed : w.feed = t.feed
  fifo : w.fifo = t.fifo
  records : w.track.records = []
  sightings : w.eye.sightings = []
  eyes : w.eye.eyes = s.eye.eyes
  width : w.width = s.width.purged s.now
  outfeed : w.outfeed = s.outfeed.purged
  link : w.link = { s.link with outbox := purgeOutbox s.link.outbox, waitingBid := none }
  throat : w.throat.jammed = false ∧ w.throat.announced = false ∧ w.throat.relay = false
  bases : ∀ k, w.throat.bases.get k = if s.role = .throat then
    (if (s.eye.eyes.get k).state = .blocked then some s.line.highWater else none) else s.throat.bases.get k
  frame : SameBut (.throat :: listBlocks) s w

/-- The blocks emptied from a state `t` that differs from `s` in the own bid's part alone. -/
theorem rebase_emptied {s t : State} (purged : SameBut [.bid, .feed, .fifo] s t) : PurgedAll s t (rebase t.emptied) := by
  have emptied := emptied_frame t
  have based : SameBut [.throat] t.emptied (rebase t.emptied) := rebase_frame _
  have throat : t.emptied.throat = { s.throat with jammed := false, announced := false, relay := false } := by
    rw [← purged .throat (by decide)]
    rfl
  have role : t.emptied.role = s.role := congrArg (fun f => f.station.role) (purged .run (by decide))
  have eyes : t.emptied.eye.eyes = s.eye.eyes := by
    rw [← purged .eye (by decide)]
    rfl
  have line : t.emptied.line = s.line := (emptied .line (by decide)).trans (purged .line (by decide))
  have bid : (rebase t.emptied).bid = t.bid.purged := based .bid (by decide)
  have width : (rebase t.emptied).width = s.width.purged s.now := by
    rw [based .width (by decide), ← purged .width (by decide), ← purged .now (by decide)]
    rfl
  have outfeed : (rebase t.emptied).outfeed = s.outfeed.purged := by
    rw [based .outfeed (by decide), ← purged .outfeed (by decide)]
    rfl
  have link : (rebase t.emptied).link = { s.link with outbox := purgeOutbox s.link.outbox, waitingBid := none } := by
    rw [based .link (by decide), ← purged .link (by decide)]
    rfl
  have records : (rebase t.emptied).track.records = [] := by
    rw [based .track (by decide)]
    rfl
  have sightings : (rebase t.emptied).eye.sightings = [] := by
    rw [based .eye (by decide)]
    rfl
  exact
    { bid, width, outfeed, link, records, sightings
      feed := (based .feed (by decide)).trans (emptied .feed (by decide))
      fifo := (based .fifo (by decide)).trans (emptied .fifo (by decide))
      eyes := by rw [based .eye (by decide), eyes]
      throat := by
        by_cases here : t.emptied.role = .throat
        · rw [rebase_throat here, throat]
          exact ⟨rfl, rfl, rfl⟩
        · rw [show rebase t.emptied = t.emptied from if_neg here, throat]
          exact ⟨rfl, rfl, rfl⟩
      bases := fun k => by
        by_cases here : t.emptied.role = .throat
        · rw [rebase_throat here, if_pos (role ▸ here), eyes, line]
          exact Quad.get_mapAt _ _ _
        · rw [show rebase t.emptied = t.emptied from if_neg here, if_neg (role ▸ here), throat]
      frame := ((purged.widen (by decide)).trans (emptied.widen (by decide))).trans (based.widen (by decide)) }

theorem purgeAll_purged (n : Nat) (s : State) : PurgedAll s (purgeOwn (raise (purgedEvent n) s)) (purgeAll n s) :=
  rebase_emptied (((raise_frame _ s).widen (by decide)).trans ((purgeOwn_frame _).widen (by decide)))

/-- A purged stream plans nothing (R139, R143). -/
theorem PurgedAll.unplanned {s t w : State} (h : PurgedAll s t w) (i : Fin 4) : w.plan i = none := by
  have current : (w.outfeed.streams.get i).current = none := by
    rw [h.outfeed]
    show ((s.outfeed.streams.mapAt (fun _ x => x.idle)).get i).current = none
    rw [Quad.get_mapAt]
    rfl
  unfold State.plan
  dsimp only
  rw [current]

/-- The sampler at a PURGE: the last width stays (R120, R123). -/
theorem width_purged (w : WidthSampler) (now : Nat) : w.purged now = { w with
    phase := (match w.phase with | .armed => .idle | .converting => .resting | x => x)
    piece := if w.phase = .armed ∨ w.phase = .converting then none else w.piece
    sum := if w.phase = .converting then 0 else w.sum
    due := if w.phase = .converting then now + 2000 else w.due
    pending := none } := by
  obtain ⟨phase, piece, pending, sum, taken, due, last⟩ := w
  cases phase <;> rfl

end Sys2Proof.Machine
end

section
/-! The obligation of PURGE, settled (R45, R75, R103, R109, R120, R123, R132, R143, R161). -/
namespace Sys2Proof.Machine

/-! ## The own bid at a PURGE (R103, R109) -/

theorem purgeOwn_none {s : State} (idle : s.bid.own = none) : purgeOwn s = s := by
  unfold purgeOwn
  rw [idle]

theorem purgeOwn_sending {s : State} {o : OwnBid} (own : s.bid.own = some o) (queued : o.state = .queued)
    (sending : ¬ s.bidWaits) :
    purgeOwn s = s.setBid { s.bid with own := some { o with cancelling := true }, rivals := [] } := by
  rw [bidWaits_iff, not_not, Bool.and_eq_true, Option.isNone_iff_eq_none] at sending
  unfold purgeOwn
  rw [own]
  exact if_pos ⟨queued, sending⟩

theorem purgeOwn_ends {s : State} {o : OwnBid} (own : s.bid.own = some o) (ends : o.state ≠ .queued ∨ s.bidWaits) :
    purgeOwn s = endOwn s := by
  unfold purgeOwn
  rw [own]
  refine if_neg (fun both => ?_)
  obtain ⟨queued, waiting, sending⟩ := both
  rcases ends with unqueued | waits
  · exact unqueued queued
  · rw [bidWaits_iff, Bool.and_eq_true, Option.isNone_iff_eq_none] at waits
    exact waits ⟨waiting, sending⟩

/-- The feed sequencer keeps its outputs and its last-filled position at a PURGE (R123). -/
theorem purgeOwn_feed (s : State) : (purgeOwn s).feed.lastFilled = s.feed.lastFilled ∧ (purgeOwn s).feed.fire = s.feed.fire
    ∧ (purgeOwn s).feed.grip = s.feed.grip ∧ (purgeOwn s).feed.drop = s.feed.drop
    ∧ ∀ i, (∀ o, s.bid.own = some o → o.serves ≠ i) → (purgeOwn s).feed.positions.get i = s.feed.positions.get i := by
  have released : ∀ (o : OwnBid) (t : State), (releasePosition o t).feed.lastFilled = t.feed.lastFilled
      ∧ (releasePosition o t).feed.fire = t.feed.fire ∧ (releasePosition o t).feed.grip = t.feed.grip
      ∧ (releasePosition o t).feed.drop = t.feed.drop
      ∧ ∀ i, o.serves ≠ i → (releasePosition o t).feed.positions.get i = t.feed.positions.get i := fun o t => by
    unfold releasePosition
    dsimp only
    split
    · split
      · exact ⟨rfl, rfl, rfl, rfl, fun i apart => Quad.get_set_of_ne _ apart.symm _⟩
      · exact ⟨rfl, rfl, rfl, rfl, fun i apart => Quad.get_set_of_ne _ apart.symm _⟩
    · exact ⟨rfl, rfl, rfl, rfl, fun _ _ => rfl⟩
  unfold purgeOwn
  split
  · exact ⟨rfl, rfl, rfl, rfl, fun _ _ => rfl⟩
  · rename_i o own
    split
    · exact ⟨rfl, rfl, rfl, rfl, fun _ _ => rfl⟩
    · unfold endOwn
      rw [own]
      obtain ⟨lastFilled, fire, grip, drop, others⟩ := released o (s.setBid { s.bid with own := none, rivals := [] })
      exact ⟨lastFilled, fire, grip, drop, fun i apart => others i (apart o rfl)⟩

/-- The row of a PURGE of a known peer, and of the station's own. -/
theorem purge_row {s u : State} {h : Heard} (row : (s.hears h .purge ∧ s.knows h.sender.toNat ∧ u = s) ∨
      (s.hearsOwn h .purge [] ∧ u = s.setLink { s.link with outbox := s.link.outbox.filter (fun e => !e.sending) })) :
    ∃ v, exec (.purge h) s = .next (finish (purgeAll h.sender.toNat v)) ∧ Reached s v h.time
      ∧ v.link.outbox = u.link.outbox ∧ (v.bidWaits ↔ u.bidWaits)
      ∧ v.bid.hold.mismatch = if h.sender.toNat = s.number then s.bid.hold.mismatch else false := by
  rcases row with ⟨hears, knows, rfl⟩ | ⟨hears, rfl⟩
  · have apart : h.sender.toNat ≠ u.number := by
      obtain ⟨-, -, apart, -⟩ := hears
      exact apart
    obtain ⟨v, accepted, frame, bid, link⟩ := acceptPeer_known (knows_later knows h.time) (purgeAll h.sender.toNat)
    have moved := advanceTo_frame h.time u
    have line : v.line = (advanceTo h.time u).line := frame .line (by decide)
    have outbox : v.link.outbox = u.link.outbox := by rw [link, advanceTo_link]
    have waiting : v.link.waitingBid = u.link.waitingBid := by rw [link, advanceTo_link]
    refine ⟨v, congrArg Host.Outcome.next ((accept_hears hears rfl none none _).trans accepted),
      ⟨(moved.widen (by decide)).trans (frame.widen (by decide)), ?_, ?_, ?_, ?_, waiting⟩, outbox,
      bidWaits_of_lists outbox waiting, ?_⟩
    · rw [frame .now (by decide), advanceTo_now]
    · rw [line, advanceTo_count]
    · rw [line, advanceTo_highWater]
    · rw [bid, advanceTo_bid]
    · rw [bid, if_neg apart]
  · have own : h.sender.toNat = s.number := by
      obtain ⟨-, -, own, -⟩ := hears
      exact own
    obtain ⟨v, accepted, reached, outbox, -, -, frame⟩ := accept_own hears (purgeAll h.sender.toNat)
    have effect : ownEffect .purge v = purgeAll h.sender.toNat v := by
      show purgeAll v.number v = _
      rw [reached.number, own]
    rw [effect] at accepted
    refine ⟨v, congrArg Host.Outcome.next accepted, reached, outbox, bidWaits_of_lists outbox reached.waiting, ?_⟩
    rw [if_pos own, frame .bid (by decide)]

/-- A QUEUED own bid whose BID is SENDING outlives the PURGE, cancelling (R103). -/
theorem purge_cancels {s v : State} {o : OwnBid} {time : Nat} (reached : Reached s v time) (live : s.bid.own = some o)
    (queued : o.state = .queued) (sending : ¬ v.bidWaits) (n : Nat) :
    (finish (purgeAll n v)).bid.own = some { o with cancelling := true }
      ∧ (finish (purgeAll n v)).feed.positions = s.feed.positions
      ∧ (finish (purgeAll n v)).fifo = s.withEvent (purgedEvent n) := by
  let x := raise (purgedEvent n) v
  let w := purgeAll n v
  have purged : PurgedAll v (purgeOwn x) w := purgeAll_purged n v
  have own : x.bid.own = some o := reached.own.trans live
  have stays : purgeOwn x = x.setBid { x.bid with own := some { o with cancelling := true }, rivals := [] } :=
    purgeOwn_sending own queued sending
  have held : w.bid.own = some { o with cancelling := true } := by
    rw [purged.bid, stays]
    rfl
  obtain ⟨-, -, -, frame⟩ := finish_idle w (fun idle => by
    have ended := idle.2.2
    rw [held] at ended
    cases ended)
  have feed : x.feed = s.feed := reached.frame .feed (by decide)
  refine ⟨finish_own held, ?_, ?_⟩
  · rw [frame .feed (by decide), purged.feed, stays]
    exact congrArg FeedSequencer.positions feed
  · rw [finish_fifo]
    exact purged.fifo.trans ((congrArg State.fifo stays).trans (reached.withEvent _))

/-- Any other own bid ends at the PURGE without an event of its own, and its position is released (R103, R109). -/
theorem purge_ends {s v : State} {o : OwnBid} {time : Nat} (reached : Reached s v time) (live : s.bid.own = some o)
    (ending : o.state ≠ .queued ∨ v.bidWaits) (n : Nat) :
    (∀ o', (finish (purgeAll n v)).bid.own = some o' → o'.state = .queued)
      ∧ ((s.feed.positions.get o.serves).state = .bidding → (s.feed.positions.get o.serves).unloading = true →
          (finish (purgeAll n v)).feed.positions.get o.serves = Position.none
            ∧ (finish (purgeAll n v)).fifo = s.withEvents [purgedEvent n, s.unloaded o])
      ∧ ((s.feed.positions.get o.serves).state ≠ .bidding ∨ (s.feed.positions.get o.serves).unloading = false →
          (finish (purgeAll n v)).fifo = s.withEvent (purgedEvent n))
      ∧ ((s.feed.positions.get o.serves).state = .bidding → (s.feed.positions.get o.serves).unloading = false →
          (finish (purgeAll n v)).feed.positions.get o.serves = { s.feed.positions.get o.serves with
            state := if ((finish (purgeAll n v)).bid.own.any (fun o' => o'.serves == o.serves)) = true then .bidding
              else .loaded }) := by
  let x := raise (purgedEvent n) v
  let w := purgeAll n v
  have purged : PurgedAll v (purgeOwn x) w := purgeAll_purged n v
  have feed : x.feed = s.feed := reached.frame .feed (by decide)
  have store : x.store = s.store := reached.frame .store (by decide)
  have told : x.fifo = s.withEvent (purgedEvent n) := reached.withEvent _
  have own : x.bid.own = some o := reached.own.trans live
  have gone : purgeOwn x = endOwn x := purgeOwn_ends own ending
  have ended : w.bid.own = none := by
    rw [purged.bid, gone]
    exact endOwn_own x
  have request : w.bid.request = none := by
    rw [purged.bid]
    rfl
  have positions : w.feed.positions = (endOwn x).feed.positions := by rw [purged.feed, gone]
  rw [endOwn_positions x o own, feed] at positions
  have events : (finish w).fifo = x.withEvents (if (s.feed.positions.get o.serves).state = .bidding
      ∧ (s.feed.positions.get o.serves).unloading = true then [x.unloaded o] else []) := by
    rw [finish_fifo, purged.fifo, gone, endOwn_events own, feed]
  have unloaded : x.unloaded o = s.unloaded o := by
    unfold State.unloaded
    rw [feed]
  refine ⟨fun o' queued => ?_, fun bidding marked => ⟨?_, ?_⟩, fun quiet => ?_, fun bidding unmarked => ?_⟩
  · rcases finish_fresh ended with idle | ⟨n, fresh, state, -⟩
    · rw [idle] at queued
      cases queued
    · rw [fresh] at queued
      cases queued
      exact state
  · have emptied : w.feed.positions.get o.serves = Position.none := by
      rw [positions, if_pos bidding, if_pos marked, Quad.get_set_self]
    rcases finish_positions w o.serves with stands | ⟨loaded, -⟩
    · exact stands.trans emptied
    · rw [emptied] at loaded
      cases loaded
  · rw [events, if_pos ⟨bidding, marked⟩, unloaded]
    show x.fifo.enter _ _ = _
    rw [told, store]
    rfl
  · rw [events, if_neg (fun both => quiet.elim (fun other => other both.1) (fun unmarked => by
      rw [unmarked] at both
      cases both.2))]
    exact told
  · have loaded : w.feed.positions.get o.serves = { s.feed.positions.get o.serves with state := .loaded } := by
      rw [positions, if_pos bidding, if_neg (by rw [unmarked]; nofun), Quad.get_set_self]
    have ends : finish w = clearMarks (reconsider w) := finish_unplanned purged.unplanned (by rw [purged.outfeed]; rfl)
    have served := reconsider_served ended request o.serves
    have settled : (finish w).feed = (reconsider w).feed := by
      rw [ends]
      rfl
    have owned : (finish w).bid.own = (reconsider w).bid.own := by
      rw [ends]
      rfl
    show (finish w).feed.positions.get o.serves = { s.feed.positions.get o.serves with
      state := if ((finish w).bid.own.any (fun o' => o'.serves == o.serves)) = true then .bidding else .loaded }
    rw [settled, owned, served, loaded]
    split
    · rfl
    · rfl

/-- Settles O42: every list is empty after a PURGE, and the own bid has ended or is cancelling. -/
theorem purgeEmptiesLists : Obligations.PurgeEmptiesLists := by
  intro s u h row
  obtain ⟨v, taken, reached, outbox, waits, mismatch⟩ := purge_row row
  let x := raise (purgedEvent h.sender.toNat) v
  let t := purgeOwn x
  let w := purgeAll h.sender.toNat v
  have purged : PurgedAll v t w := purgeAll_purged h.sender.toNat v
  have ends : finish w = clearMarks (reconsider w) := finish_unplanned purged.unplanned (by rw [purged.outfeed]; rfl)
  have kept := finish_keeps w
  obtain ⟨l, more, fresh⟩ := kept.outbox
  have run : v.run = s.run := reached.frame .run (by decide)
  have feed : x.feed = s.feed := reached.frame .feed (by decide)
  have told : x.fifo = s.withEvent (purgedEvent h.sender.toNat) := reached.withEvent _
  have hold : t.bid.hold = v.bid.hold := (purgeOwn_hold x).1
  have own : x.bid.own = s.bid.own := reached.own
  obtain ⟨lastFilled, fire, grip, drop, others⟩ := purgeOwn_feed x
  have request : w.bid.request = none := by
    rw [purged.bid]
    rfl
  refine ⟨_, l, taken, fresh, ?_, ?_, ?_, ?_, ?_, ?_, ?_, ?_, ?_, ?_, ?_, ?_, ?_, ?_, fun idle => ?_, fun o live queued sending => ?_,
    fun o live ending => ?_, fun i apart => ?_, ?_, ?_, ?_, ?_, ?_, fun k => ?_, ?_, ?_, ?_, ?_⟩
  · rw [finish_track_records]
    exact purged.records
  · rw [finish_eye]
    exact purged.sightings
  · rw [finish_eye]
    exact purged.eyes.trans (congrArg EyeUnit.eyes (reached.frame .eye (by decide)))
  · show (finish w).bid.rivals = []
    rw [ends]
    exact reconsider_rivals (by rw [purged.bid]; rfl)
  · show (finish w).bid.request = none
    rw [ends]
    exact (reconsider_request w).trans request
  · show (finish w).bid.passedOver = 0
    rw [kept.passedOver, purged.bid]
    rfl
  · show (finish w).bid.deferral = 0
    rw [kept.deferral, purged.bid]
    rfl
  · show (finish w).bid.jamming = 0
    rw [kept.jamming, purged.bid]
    rfl
  · show (finish w).bid.hold = _
    rw [kept.hold, purged.bid]
    show ({ t.bid.hold with jam := false, trackFull := false } : HoldSet) = _
    rw [hold, ← mismatch, reached.bid]
  · rw [finish_throat]
    exact purged.throat.1
  · rw [finish_throat]
    exact purged.throat.2.1
  · rw [finish_throat]
    exact purged.throat.2.2
  · show (finish w).outfeed = _
    rw [ends]
    show ({ (reconsider w).outfeed with planDue := 0 } : OutfeedDirector) = _
    rw [reconsider_frame w .outfeed (by decide), purged.outfeed, reached.frame .outfeed (by decide)]
    rfl
  · show (finish w).link.outbox = _
    rw [more, purged.link, outbox]
  · have alone : t = x := purgeOwn_none (own.trans idle)
    rw [finish_fifo]
    exact purged.fifo.trans ((congrArg State.fifo alone).trans told)
  · exact purge_cancels reached live queued (waits.not.mpr sending) _
  · exact purge_ends reached live (ending.imp id waits.mpr) _
  · have stands : w.feed.positions.get i = s.feed.positions.get i := by
      rw [purged.feed]
      exact (others i (fun o live => apart o (own ▸ live))).trans (by rw [feed])
    have settles := finish_positions w i
    rwa [stands] at settles
  · show (finish w).feed.lastFilled = _
    rw [kept.lastFilled, purged.feed]
    exact lastFilled.trans (congrArg FeedSequencer.lastFilled feed)
  · show (finish w).feed.fire = _
    rw [kept.fire, purged.feed]
    exact fire.trans (congrArg FeedSequencer.fire feed)
  · show (finish w).feed.grip = _
    rw [kept.grip, purged.feed]
    exact grip.trans (congrArg FeedSequencer.grip feed)
  · show (finish w).feed.drop = _
    rw [kept.drop, purged.feed]
    exact drop.trans (congrArg FeedSequencer.drop feed)
  · show (finish w).width = _
    rw [finish_width, purged.width, reached.frame .width (by decide), reached.now]
    exact width_purged _ _
  · rw [finish_throat]
    refine (purged.bases k).trans ?_
    rw [show v.role = s.role from congrArg (fun f => f.station.role) run, reached.frame .eye (by decide), reached.highWater,
      reached.frame .throat (by decide)]
  · rw [finish_line]
    exact (congrArg LineCounter.count (purged.frame .line (by decide))).trans reached.count
  · rw [finish_line]
    exact (congrArg LineCounter.highWater (purged.frame .line (by decide))).trans reached.highWater
  · rw [finish_width, purged.width, width_purged, reached.frame .width (by decide)]
  · exact ((reached.frame.widen (by decide)).trans (purged.frame.widen (by decide))).trans ((finish_frame _).widen (by decide))

end Sys2Proof.Machine
end

section
/-! What a trailing edge and a closure leave (R58, R66 to R68, R115, R125, R137). -/
namespace Sys2Proof.Machine

/-! ## Eyes, block bases and sightings -/

theorem setLaneEye_frame (s : State) (k : Fin 4) (e : Eye) : SameBut [.eye] s (s.setLaneEye k e) := setEye_frame _ _

theorem setSightings_frame (s : State) (l : List Sighting) : SameBut [.eye] s (s.setSightings l) := setEye_frame _ _

theorem setBase_frame (k : Fin 4) (c : Option Count) (s : State) : SameBut [.throat] s (setBase k c s) :=
  .ite (setThroat_frame _ _) (.refl _ s)

theorem setBase_throat (k : Fin 4) (c : Option Count) (s : State) : (setBase k c s).throat =
    if s.role = .throat then { s.throat with bases := s.throat.bases.set k c } else s.throat := by
  unfold setBase
  split <;> rfl

/-- An eye is CLEAR, and its lane has no block base (R58, R66, R125). -/
def State.cleared (s : State) (k : Fin 4) : State := setBase k none (s.setLaneEye k { state := .clear, edge := none })

theorem cleared_frame (s : State) (k : Fin 4) : SameBut [.eye, .throat] s (s.cleared k) :=
  (setLaneEye_frame s k _).then (setBase_frame k _ _) (by decide) (by decide)

theorem cleared_eye (s : State) (k : Fin 4) : (s.cleared k).eye =
    { s.eye with eyes := s.eye.eyes.set k { state := .clear, edge := none } } := by
  unfold State.cleared
  rw [setBase_frame _ _ _ .eye (by decide)]
  rfl

theorem cleared_throat (s : State) (k : Fin 4) : (s.cleared k).throat =
    if s.role = .throat then { s.throat with bases := s.throat.bases.set k none } else s.throat := setBase_throat k none _

/-! ## The width sampler at a trailing edge (R115, R118, R119) -/

/-- The pending starts as the trailing edge of a sighting at a lane leaves them (R118). -/
def State.notedPending (s : State) (tag : Tag) (k : Fin 4) : Option WidthPiece :=
  s.width.pending.map (fun p => if p.tag = tag ∧ p.lane = k then { p with edgeTaken := true } else p)

/-- A trailing edge of another eye, or of another piece's, leaves the piece in hand (R115). -/
theorem widthTrail_elsewhere {s : State} {tag : Tag} {k : Fin 4}
    (apart : ∀ p, s.width.piece = some p → ¬ (p.tag = tag ∧ p.lane = k)) :
    widthTrail tag k s = s.setWidth { s.width with pending := s.notedPending tag k } := by
  unfold widthTrail
  dsimp only
  split
  · rfl
  · rename_i p held
    exact if_neg (apart p held)

theorem widthTrail_frame (tag : Tag) (k : Fin 4) (s : State) : SameBut [.eye, .width, .fifo] s (widthTrail tag k s) := by
  have noted : SameBut [.eye, .width, .fifo] s (s.setWidth { s.width with pending := s.notedPending tag k }) :=
    (setWidth_frame s _).widen (by decide)
  have aborted : ∀ (t : State) (w : WidthSampler) (e : Event), SameBut [.eye, .width, .fifo] t
      (raise e (deliver tag .unmeasured (t.setWidth w))) := fun t w e =>
    ((setWidth_frame t w).widen (by decide)).trans
      (((setSightings_frame _ _).widen (by decide)).trans ((raise_frame _ _).widen (by decide)))
  unfold widthTrail
  dsimp only
  split
  · exact noted
  · split
    · split
      · exact noted.trans (aborted _ _ _)
      · exact noted.trans (aborted _ _ _)
      · exact noted
    · exact noted

/-- The sampler's abort gives a sighting no more than its verdict (R117). -/
theorem widthTrail_eye (tag : Tag) (k : Fin 4) (s : State) : ∃ v : Sighting → Option Verdict,
    (∀ g, g.tag ≠ tag → v g = g.width) ∧ (widthTrail tag k s).eye = { s.eye with
      sightings := s.eye.sightings.map (fun g => { g with width := v g }) } := by
  have kept : ∃ v : Sighting → Option Verdict, (∀ g, g.tag ≠ tag → v g = g.width) ∧
      s.eye = { s.eye with sightings := s.eye.sightings.map (fun g => { g with width := v g }) } :=
    ⟨fun g => g.width, fun _ _ => rfl, by rw [List.map_id'']; intro g; rfl⟩
  have delivered : ∃ v : Sighting → Option Verdict, (∀ g, g.tag ≠ tag → v g = g.width) ∧
      (deliver tag .unmeasured s).eye = { s.eye with sightings := s.eye.sightings.map (fun g => { g with width := v g }) } := by
    refine ⟨fun g => if g.tag = tag then some .unmeasured else g.width, fun g other => if_neg other, ?_⟩
    have each : ∀ g : Sighting, (if g.tag = tag then { g with width := some .unmeasured } else g)
        = { g with width := if g.tag = tag then some .unmeasured else g.width } := fun g => by
      split <;> rfl
    exact congrArg (fun l => { s.eye with sightings := l }) (List.map_congr_left (fun g _ => each g))
  unfold widthTrail
  dsimp only
  split
  · exact kept
  · split
    · split
      · exact delivered
      · exact delivered
      · exact kept
    · exact kept

/-! ## The state at which an eye leaves its sighting (R66) -/

/-- The eye of lane `k` has cleared and, for a matched sighting, the sampler has been handed the edge (R66, R115). -/
def State.trailed (s : State) (k : Fin 4) (g : Sighting) : State :=
  if g.stray then s.cleared k else widthTrail g.tag k (s.cleared k)

theorem trailed_frame (s : State) (k : Fin 4) (g : Sighting) : SameBut [.eye, .width, .throat, .fifo] s (s.trailed k g) := by
  have cleared : SameBut [.eye, .width, .throat, .fifo] s (s.cleared k) := (cleared_frame s k).widen (by decide)
  exact .ite cleared (cleared.trans ((widthTrail_frame _ _ _).widen (by decide)))

theorem trailed_throat (s : State) (k : Fin 4) (g : Sighting) : (s.trailed k g).throat = (s.cleared k).throat := by
  unfold State.trailed
  split
  · rfl
  · exact widthTrail_frame _ _ _ .throat (by decide)

/-- The sampler has no piece of the sighting in hand: no event, and every verdict as it was. -/
theorem trailed_quiet {s : State} {k : Fin 4} {g : Sighting} (apart : ∀ p, s.width.piece = some p → p.tag ≠ g.tag) :
    SameBut [.eye, .width, .throat] s (s.trailed k g)
      ∧ (s.trailed k g).eye = { s.eye with eyes := s.eye.eyes.set k { state := .clear, edge := none } } := by
  have cleared : SameBut [.eye, .width, .throat] s (s.cleared k) := (cleared_frame s k).widen (by decide)
  unfold State.trailed
  split
  · exact ⟨cleared, cleared_eye s k⟩
  · rw [widthTrail_elsewhere (fun p held both => apart p (by rwa [cleared_frame s k .width (by decide)] at held) both.1)]
    exact ⟨cleared.trans ((setWidth_frame _ _).widen (by decide)), cleared_eye s k⟩

/-- What an eye leaves of the sightings: another verdict at most for its own, where the sampler has its piece in hand (R117). -/
theorem trailed_eye (s : State) (k : Fin 4) (g : Sighting) : ∃ v : Sighting → Option Verdict,
    (∀ x, (x.tag ≠ g.tag ∨ ∀ p, s.width.piece = some p → p.tag ≠ g.tag) → v x = x.width) ∧ (s.trailed k g).eye =
    { s.eye with eyes := s.eye.eyes.set k { state := .clear, edge := none }
                 sightings := s.eye.sightings.map (fun x => { x with width := v x }) } := by
  by_cases apart : ∀ p, s.width.piece = some p → p.tag ≠ g.tag
  · refine ⟨fun x => x.width, fun _ _ => rfl, ?_⟩
    rw [(trailed_quiet apart).2, List.map_id'']
    intro x
    rfl
  · unfold State.trailed
    split
    · refine ⟨fun x => x.width, fun _ _ => rfl, ?_⟩
      rw [cleared_eye, List.map_id'']
      intro x
      rfl
    · obtain ⟨v, others, eye⟩ := widthTrail_eye g.tag k (s.cleared k)
      rw [cleared_eye] at eye
      exact ⟨v, fun x other => others x (other.resolve_right apart), eye⟩

/-- A trailing edge at an eye bound to no sighting. -/
theorem trailingEdge_unbound {s : State} {k : Fin 4} (free : s.boundTo k = none) (n : Count) : trailingEdge k n s = s.cleared k := by
  have bound : (s.cleared k).boundTo k = none := by
    unfold State.boundTo
    rw [cleared_eye]
    exact free
  show (match (s.cleared k).boundTo k with
    | none => s.cleared k
    | some g => _) = _
  rw [bound]

/-- A trailing edge at an eye bound to a sighting: it leaves the sighting, or closes it (R66). -/
theorem trailingEdge_bound {s : State} {k : Fin 4} {g x : Sighting} (bound : s.boundTo k = some g)
    (found : (s.trailed k g).eye.sightings.find? (fun y => y.tag == g.tag) = some x) (n : Count) :
    trailingEdge k n s = if x.bound &&& ~~~(laneBit k) = 0 then
        closeSighting { x with bound := x.bound &&& ~~~(laneBit k), lastTrail := some n } n (s.trailed k g)
      else (s.trailed k g).setSightings ((s.trailed k g).eye.sightings.map (fun y =>
        if y.tag = g.tag then { x with bound := x.bound &&& ~~~(laneBit k), lastTrail := some n } else y)) := by
  have same : (s.cleared k).boundTo k = some g := by
    unfold State.boundTo
    rw [cleared_eye]
    exact bound
  show (match (s.cleared k).boundTo k with
    | none => s.cleared k
    | some g =>
      match (s.trailed k g).eye.sightings.find? (fun x : Sighting => x.tag == g.tag) with
      | none => s.trailed k g
      | some g1 =>
        if g1.bound &&& ~~~(laneBit k) = 0 then
          closeSighting { g1 with bound := g1.bound &&& ~~~(laneBit k), lastTrail := some n } n (s.trailed k g)
        else (s.trailed k g).setSightings ((s.trailed k g).eye.sightings.map (fun y : Sighting =>
          if y.tag = g.tag then { g1 with bound := g1.bound &&& ~~~(laneBit k), lastTrail := some n } else y))) = _
  rw [same]
  dsimp only
  rw [found]

theorem bindsAlone_boundTo {s : State} {k : Fin 4} {g : Sighting} (alone : s.bindsAlone k g) : s.boundTo k = some g := by
  obtain ⟨mem, bound, only⟩ := alone
  unfold State.boundTo
  cases found : s.eye.sightings.find? (fun x => hasLane x.bound k) with
  | none => exact absurd bound (List.find?_eq_none.mp found g mem)
  | some x => rw [only x (List.mem_of_find?_eq_some found) (.inr (List.find?_some (p := fun x : Sighting => hasLane x.bound k) found))]

/-- The sighting that the eye is bound to alone, as the sampler's abort leaves it. -/
theorem trailed_find {s : State} {k : Fin 4} {g : Sighting} (alone : s.bindsAlone k g) {v : Sighting → Option Verdict}
    {l : List Sighting} (sightings : l = s.eye.sightings.map (fun x => { x with width := v x })) :
    l.find? (fun y => y.tag == g.tag) = some { g with width := v g } := by
  obtain ⟨mem, -, only⟩ := alone
  rw [sightings, List.find?_map]
  have found : s.eye.sightings.find? ((fun y : Sighting => y.tag == g.tag) ∘ fun x => { x with width := v x }) = some g := by
    cases found : s.eye.sightings.find? ((fun y : Sighting => y.tag == g.tag) ∘ fun x => { x with width := v x }) with
    | none => exact absurd (beq_self_eq_true g.tag) (List.find?_eq_none.mp found g mem)
    | some x =>
      have same := List.find?_some found
      rw [only x (List.mem_of_find?_eq_some found) (.inl (by simpa using same))]
  rw [found]
  rfl

/-! ## The closure (R47, R67, R68) -/

/-- The record as the closure of a sighting leaves it (R47, R67). -/
def State.closedAs (s : State) (g : Sighting) (measured : Int) (r : Record) : Record :=
  if g.stray then s.closedStray measured r else s.closedRecord g measured r

/-- The SIGHTING that reports a closure (R68). -/
def closingMsg (g : Sighting) (tl : Count) (measured : Int) (r : Record) : Msg :=
  if g.stray then .stray r.desc.sighted tl else .seen r.desc.sighted tl (limitLength measured)

theorem closeSighting_held {s : State} {g : Sighting} {r : Record} (held : s.record g.tag = some r) (last : Count) :
    closeSighting g last s = outfeedClosure g.tag last (report
      (closingMsg g (plus g.first s.run.eye) (signedDiff last g.first) (s.closedAs g (signedDiff last g.first) r))
      (changeRecord r (s.closedAs g (signedDiff last g.first) r)
        (s.setSightings (s.eye.sightings.filter (fun x => x.tag != g.tag))))) := by
  have held' : (s.setSightings (s.eye.sightings.filter (fun x => x.tag != g.tag))).record g.tag = some r := held
  unfold closeSighting
  dsimp only
  rw [held']
  unfold closingMsg State.closedAs
  cases g.stray <;> rfl

theorem closeSighting_gone {s : State} {g : Sighting} (gone : s.record g.tag = none) (last : Count) :
    closeSighting g last s = s.setSightings (s.eye.sightings.filter (fun x => x.tag != g.tag)) := by
  have gone' : (s.setSightings (s.eye.sightings.filter (fun x => x.tag != g.tag))).record g.tag = none := gone
  unfold closeSighting
  dsimp only
  rw [gone']

theorem closedAs_tag (s : State) (g : Sighting) (measured : Int) (r : Record) : (s.closedAs g measured r).desc.tag = r.desc.tag := by
  unfold State.closedAs
  split <;> rfl

theorem report_frame (m : Msg) (s : State) : SameBut [.bid, .feed, .link, .fifo] s (report m s) :=
  .ite (enqueue_frame m s) (.refl _ s)

theorem divertLate_frame (i : Fin 4) (e : UnderEye) (j : Reject) (s : State) : SameBut [.outfeed, .fifo] s (divertLate i e j s) := by
  have pulsed : SameBut [.outfeed, .fifo] s (divertPulse s) := (setOutfeed_frame s _).widen (by decide)
  exact .ite (pulsed.trans (((setStream_frame _ _ _).widen (by decide)).trans ((raise_frame _ _).widen (by decide))))
    (pulsed.trans ((raise_frame _ _).widen (by decide)))

theorem outfeedClosure_frame (tag : Tag) (last : Count) (s : State) : SameBut [.outfeed, .fifo] s (outfeedClosure tag last s) := by
  unfold outfeedClosure
  split
  · exact .refl _ s
  · rename_i e found
    have taken : SameBut [.outfeed, .fifo] s
        (s.setOutfeed { s.outfeed with underEye := s.outfeed.underEye.filter (fun u => u.tag != tag) }) :=
      (setOutfeed_frame s _).widen (by decide)
    dsimp only
    split
    · exact taken
    · refine taken.trans ?_
      refine SameBut.trans ?_ (((setStream_frame _ _ _).widen (by decide)).trans ((planAgain_frame _ _).widen (by decide)))
      exact .ite (divertLate_frame _ _ _ _) (.refl _ _)

/-- The closure leaves the eyes, and no more than the closed sighting and that of a bumped bid is gone (R72, R94). -/
theorem changeRecord_gone (old r : Record) (s : State) : (changeRecord old r s).eye.eyes = s.eye.eyes
    ∧ (changeRecord old r s).eye.sightings.Sublist s.eye.sightings
    ∧ ∀ x ∈ s.eye.sightings, s.ownElsewhere x.tag → x ∈ (changeRecord old r s).eye.sightings := by
  let t := s.setRecords (replaceRecord r s.track.records)
  let u := if old.altered s.line.highWater r = true then noteChange r.desc.lanes t else t
  have eye : u.eye = s.eye := by
    have noted : SameBut [.bid, .outfeed] t u := .ite (noteChange_frame _ _) (.refl _ t)
    exact (noted .eye (by decide)).trans rfl
  have own : u.bid.own = s.bid.own := by
    by_cases altered : old.altered s.line.highWater r = true
    · rw [show u = noteChange r.desc.lanes t from if_pos altered, noteChange_bid]
      rfl
    · rw [show u = t from if_neg altered]
      rfl
  have gone : OwnGone u (changeRecord old r s) := .ite (recheck_gone _ u) (.refl u)
  refine ⟨gone.eyes.trans (by rw [eye]), by rw [← eye]; exact gone.sightings, fun x mem elsewhere => ?_⟩
  exact gone.others x (by rwa [eye]) (fun o live => elsewhere o (own ▸ live))

/-- What a closure leaves of the list and the eyes. -/
theorem closeSighting_list {s : State} {g : Sighting} {r : Record} (held : s.record g.tag = some r) (last : Count) :
    (closeSighting g last s).record g.tag = some (s.closedAs g (signedDiff last g.first) r)
      ∧ (closeSighting g last s).eye.eyes = s.eye.eyes
      ∧ (closeSighting g last s).eye.sightings.Sublist (s.eye.sightings.filter (fun x => x.tag != g.tag))
      ∧ (∀ x ∈ s.eye.sightings, x.tag ≠ g.tag → s.ownElsewhere x.tag → x ∈ (closeSighting g last s).eye.sightings)
      ∧ SameBut listBlocks s (closeSighting g last s) := by
  let t := s.setSightings (s.eye.sightings.filter (fun x => x.tag != g.tag))
  let r1 := s.closedAs g (signedDiff last g.first) r
  let c := changeRecord r r1 t
  have tag : r1.desc.tag = g.tag := (closedAs_tag s g _ r).trans (record_tag held).1
  have behind : SameBut [.bid, .feed, .outfeed, .link, .fifo] c (closeSighting g last s) := by
    rw [closeSighting_held held]
    exact ((report_frame _ c).widen (by decide)).trans ((outfeedClosure_frame _ _ _).widen (by decide))
  obtain ⟨eyes, sub, others⟩ := changeRecord_gone r r1 t
  have eye : (closeSighting g last s).eye = c.eye := behind .eye (by decide)
  refine ⟨?_, by rw [eye]; exact eyes, by rw [eye]; exact sub, fun x mem other elsewhere => ?_, ?_⟩
  · rw [record_congr (congrArg TrackList.records (behind .track (by decide))), ← tag]
    exact changeRecord_self r r1 t
  · rw [eye]
    exact others x (List.mem_filter.mpr ⟨mem, by simpa using other⟩) elsewhere
  · exact (((setSightings_frame s _).widen (by decide)).trans (changeRecord_frame r r1 t)).trans (behind.widen (by decide))

/-- The frame of a trailing edge. -/
theorem trailingEdge_frame (k : Fin 4) (n : Count) (s : State) : SameBut (.throat :: listBlocks) s (trailingEdge k n s) := by
  cases bound : s.boundTo k with
  | none =>
    rw [trailingEdge_unbound bound]
    exact (cleared_frame s k).widen (by decide)
  | some g =>
    have trailed : SameBut (.throat :: listBlocks) s (s.trailed k g) := (trailed_frame s k g).widen (by decide)
    have closed : ∀ x, SameBut (.throat :: listBlocks) (s.trailed k g) (closeSighting x n (s.trailed k g)) := fun x => by
      cases held : (s.trailed k g).record x.tag with
      | none =>
        rw [closeSighting_gone held]
        exact (setSightings_frame _ _).widen (by decide)
      | some r =>
        obtain ⟨-, -, -, -, frame⟩ := closeSighting_list held n
        exact frame.widen (by decide)
    obtain ⟨v, -, eye⟩ := trailed_eye s k g
    cases found : (s.trailed k g).eye.sightings.find? (fun y => y.tag == g.tag) with
    | some x =>
      rw [trailingEdge_bound bound found]
      exact .ite (trailed.trans (closed _)) (trailed.trans ((setSightings_frame _ _).widen (by decide)))
    | none =>
      have mem : g ∈ s.eye.sightings := List.mem_of_find?_eq_some bound
      rw [eye] at found
      have none := List.find?_eq_none.mp found { g with width := v g } (List.mem_map.mpr ⟨g, mem, rfl⟩)
      exact absurd (beq_self_eq_true g.tag) none

/-- A trailing edge clears its eye and drops its lane's block base, and leaves every other eye and base (R58, R66, R125). -/
theorem trailingEdge_eyes (k : Fin 4) (n : Count) (s : State) :
    (trailingEdge k n s).eye.eyes = s.eye.eyes.set k { state := .clear, edge := none }
      ∧ (trailingEdge k n s).throat = (s.cleared k).throat := by
  cases bound : s.boundTo k with
  | none =>
    rw [trailingEdge_unbound bound, cleared_eye]
    exact ⟨rfl, rfl⟩
  | some g =>
    obtain ⟨v, -, eye⟩ := trailed_eye s k g
    have eyes : (s.trailed k g).eye.eyes = s.eye.eyes.set k { state := .clear, edge := none } := by rw [eye]
    have throat := trailed_throat s k g
    have closed : ∀ x, (closeSighting x n (s.trailed k g)).eye.eyes = (s.trailed k g).eye.eyes
        ∧ (closeSighting x n (s.trailed k g)).throat = (s.trailed k g).throat := fun x => by
      cases held : (s.trailed k g).record x.tag with
      | none =>
        rw [closeSighting_gone held]
        exact ⟨rfl, rfl⟩
      | some r =>
        obtain ⟨-, same, -, -, frame⟩ := closeSighting_list held n
        exact ⟨same, frame .throat (by decide)⟩
    cases found : (s.trailed k g).eye.sightings.find? (fun y => y.tag == g.tag) with
    | some x =>
      rw [trailingEdge_bound bound found]
      split
      · exact ⟨(closed _).1.trans eyes, (closed _).2.trans throat⟩
      · exact ⟨eyes, throat⟩
    | none =>
      have mem : g ∈ s.eye.sightings := List.mem_of_find?_eq_some bound
      rw [eye] at found
      have none := List.find?_eq_none.mp found { g with width := v g } (List.mem_map.mpr ⟨g, mem, rfl⟩)
      exact absurd (beq_self_eq_true g.tag) none

end Sys2Proof.Machine
end

section
/-! The obligation of TRAILING_EDGE (R25, R58, R61, R66 to R68, R94, R125, R137). -/
namespace Sys2Proof.Machine

/-! ## What a closure reads and hands on -/

theorem limitLength_eq (n : Int) : limitLength n = (max 1 (min 18000 n)).toNat := rfl

/-- What the closed record is built from (R47, R67, R68). -/
theorem closedAs_congr {s u : State} (same : SameBut [.eye, .width, .throat, .fifo] s u) (g : Sighting) (m : Int) (r : Record) :
    u.closedAs g m r = s.closedAs g m r := by
  have run : u.run = s.run := same .run (by decide)
  have track : u.track = s.track := same .track (by decide)
  have store : u.store = s.store := same .store (by decide)
  unfold State.closedAs State.closedStray State.closedRecord State.lengthVerdict State.expectedLength State.role State.number
  rw [run, track, store]

/-- A sighting as its last bound eye leaves it, with a width verdict (R66). -/
def Sighting.ended (g : Sighting) (v : Option Verdict) (k : Fin 4) (n : Count) : Sighting :=
  { g with width := v, bound := g.bound &&& ~~~(laneBit k), lastTrail := some n }

theorem single_unbinds (k : Fin 4) : laneBit k &&& ~~~(laneBit k) = 0 := by
  revert k
  decide

/-- An eye that is not the last one bound leaves others bound (R66). -/
theorem last_binds {w : Lanes} {k : Fin 4} (bound : hasLane w k = true) (more : w ≠ laneBit k) : w &&& ~~~(laneBit k) ≠ 0 := by
  revert w k
  decide

/-- The trailing edge at the last eye bound to a sighting closes it (R66, R67). -/
theorem trailingEdge_closes {s : State} {k : Fin 4} {g : Sighting} (alone : s.bindsAlone k g) (single : g.bound = laneBit k)
    {v : Sighting → Option Verdict}
    (sightings : (s.trailed k g).eye.sightings = s.eye.sightings.map (fun x => { x with width := v x })) (n : Count) :
    trailingEdge k n s = closeSighting (g.ended (v g) k n) n (s.trailed k g) := by
  rw [trailingEdge_bound (bindsAlone_boundTo alone) (trailed_find alone sightings)]
  exact if_pos (by rw [single]; exact single_unbinds k)

/-- A sampler without the sighting's piece leaves every verdict. -/
theorem trailed_sightings {s : State} {k : Fin 4} {g : Sighting} (apart : ∀ p, s.width.piece = some p → p.tag ≠ g.tag) :
    (s.trailed k g).eye.sightings = s.eye.sightings.map (fun x => { x with width := (fun y : Sighting => y.width) x }) := by
  rw [(trailed_quiet apart).2, List.map_id'']
  intro x
  rfl

theorem trailed_record (s : State) (k : Fin 4) (g : Sighting) (tag : Tag) : (s.trailed k g).record tag = s.record tag :=
  record_congr (congrArg TrackList.records (trailed_frame s k g .track (by decide))) tag

theorem trailing_row {s : State} {k : Fin 4} {n : Count} (acting : s.acting = true) (clear : s.leadingDue = [])
    (due : s.trailingDue = [(k, n)]) : exec .trailingEdge s = .next (finish (trailingEdge k n s)) := by
  show execTrailingEdge s = _
  unfold execTrailingEdge
  rw [acting, clear, due]
  rfl

/-- The frame of the row (R66). -/
theorem trailing_row_frame (k : Fin 4) (n : Count) (s : State) :
    SameBut [.track, .eye, .bid, .feed, .width, .throat, .outfeed, .link, .fifo] s (finish (trailingEdge k n s)) :=
  ((trailingEdge_frame k n s).widen (by decide)).trans ((finish_frame _).widen (by decide))

/-- The reject of a matched record at its closure, as R25 combines it (R67, R68). -/
theorem closedReject_eq {s : State} {g : Sighting} {measured : Int} {r : Record} (matched : g.stray = false) :
    (s.closedAs g measured r).desc = { r.desc with reject :=
      if r.desc.reject = .stray then .stray
      else if r.desc.reject = .double ∨ (s.expectedLength r.desc : Int) + s.run.tolerance < measured then .double
      else if s.role = .feed ∧ r.own = true ∧ r.desc.kind = .piece then
        (match g.width with | some .narrow => .narrow | some .wide => .wide | _ => r.desc.reject)
      else r.desc.reject } := by
  unfold State.closedAs
  rw [if_neg (by rw [matched]; nofun)]
  unfold State.closedRecord State.lengthVerdict
  refine congrArg (fun j => { r.desc with reject := j }) ?_
  by_cases long : (s.expectedLength r.desc : Int) + s.run.tolerance < measured <;>
    by_cases own : s.role = .feed ∧ r.own = true ∧ r.desc.kind = .piece
  · rw [if_pos long, if_pos own, combine_eq, combine_eq]
    cases r.desc.reject <;> simp [long]
  · rw [if_pos long, if_neg own, combine_eq, combine_eq]
    cases r.desc.reject <;> simp [long]
  · rw [if_neg long, if_pos own, combine_eq, combine_eq]
    cases r.desc.reject <;> cases g.width with
      | none => simp [long, own, verdictReject]
      | some v => cases v <;> simp [long, own, verdictReject]
  · rw [if_neg long, if_neg own, combine_eq, combine_eq]
    cases r.desc.reject <;> simp [long, own]

theorem closedAs_matched {s : State} {g : Sighting} (matched : g.stray = false) (measured : Int) (r : Record) :
    s.closedAs g measured r = s.closedRecord g measured r := if_neg (by rw [matched]; nofun)

theorem closedAs_stray {s : State} {g : Sighting} (stray : g.stray = true) (measured : Int) (r : Record) :
    s.closedAs g measured r = s.closedStray measured r := if_pos stray

/-! ## A closure whose own bid no recall touches -/

theorem noteChange_outfeed (lanes : Lanes) (s : State) :
    ∃ due, (noteChange lanes s).outfeed = { s.outfeed with planDue := due } := by
  unfold noteChange
  dsimp only
  split
  · exact ⟨_, rfl⟩
  · exact ⟨_, rfl⟩

/-- A changed record asks the streams for no more than a plan, where it recalls no bid (R53). -/
theorem changeRecord_outfeed {s : State} (fixed : s.ownFixed) (old r : Record) :
    ∃ due, (changeRecord old r s).outfeed = { s.outfeed with planDue := due } := by
  let t := s.setRecords (replaceRecord r s.track.records)
  let u := if old.altered s.line.highWater r = true then noteChange r.desc.lanes t else t
  have noted : (∃ due, u.outfeed = { s.outfeed with planDue := due }) ∧ u.bid.own = s.bid.own := by
    by_cases altered : old.altered s.line.highWater r = true
    · rw [show u = noteChange r.desc.lanes t from if_pos altered]
      exact ⟨noteChange_outfeed _ t, (noteChange_left _ t).own⟩
    · rw [show u = t from if_neg altered]
      exact ⟨⟨s.outfeed.planDue, rfl⟩, rfl⟩
  have quiet : recheck r.desc.tag u = u := recheck_fixed (fun o own => fixed o (noted.2 ▸ own)) _
  have same : changeRecord old r s = u := by
    show (if old.moved s.line.highWater r = true then recheck r.desc.tag u else u) = u
    rw [quiet, ite_self]
  rw [same]
  exact noted.1

/-- A SIGHTING of a closure takes the entry that is free for it (R71, R155). -/
theorem report_room {s : State} (active : s.station = .active) (room : s.roomLater = true) (g : Sighting) (tl : Count)
    (measured : Int) (r : Record) : report (closingMsg g tl measured r) s
      = s.setOutbox (s.link.outbox ++ [.fresh (closingMsg g tl measured r)]) := by
  unfold report
  rw [if_pos active]
  unfold closingMsg
  cases g.stray <;> exact if_pos room

theorem report_quiet {s : State} (joining : s.station ≠ .active) (m : Msg) : report m s = s := if_neg joining

theorem roomLater_congr {s t : State} (h : t.link = s.link) : t.roomLater = s.roomLater := by
  unfold State.roomLater
  rw [h]

/-- What the end of a step leaves of a stream: all but its spacer (R139). -/
theorem finish_stream_beside (s : State) (i : Fin 4) :
    ∃ spacer, (finish s).outfeed.streams.get i = { s.outfeed.streams.get i with spacer := spacer } := by
  by_cases setup : s.station = .setup
  · rw [finish_setup_streams setup]
    exact ⟨_, rfl⟩
  · rw [finish_stream s i setup]
    unfold State.plannedStream
    split
    · split
      · exact ⟨_, rfl⟩
      · exact ⟨_, rfl⟩
    · exact ⟨_, rfl⟩

/-- The state that a closure hands to the outfeed director: the record closed and the SIGHTING queued (R68, R137). -/
def State.reported (s : State) (g : Sighting) (last : Count) (r : Record) : State :=
  report (closingMsg g (plus g.first s.run.eye) (signedDiff last g.first) (s.closedAs g (signedDiff last g.first) r))
    (changeRecord r (s.closedAs g (signedDiff last g.first) r)
      (s.setSightings (s.eye.sightings.filter (fun x => x.tag != g.tag))))

theorem trailingEdge_reports {s : State} {k : Fin 4} {g : Sighting} {r : Record} (alone : s.bindsAlone k g)
    (single : g.bound = laneBit k) (held : s.record g.tag = some r) {v : Sighting → Option Verdict}
    (sightings : (s.trailed k g).eye.sightings = s.eye.sightings.map (fun x => { x with width := v x })) (n : Count) :
    trailingEdge k n s = outfeedClosure g.tag n ((s.trailed k g).reported (g.ended (v g) k n) n r) := by
  rw [trailingEdge_closes alone single sightings n]
  exact closeSighting_held (g := g.ended (v g) k n) ((trailed_record s k g g.tag).trans held) n

/-- A closure whose own bid no recall touches, up to the outfeed director. -/
theorem reported_fixed {s : State} {g : Sighting} {r : Record} (fixed : s.ownFixed) (held : s.record g.tag = some r) (last : Count) :
    let r1 := s.closedAs g (signedDiff last g.first) r
    (s.reported g last r).record g.tag = some r1
      ∧ (s.reported g last r).eye = { s.eye with sightings := s.eye.sightings.filter (fun x => x.tag != g.tag) }
      ∧ (s.station ≠ .active ∨ s.roomLater = true → (s.reported g last r).fifo = s.fifo
          ∧ (∃ due, (s.reported g last r).outfeed = { s.outfeed with planDue := due })
          ∧ (s.reported g last r).link = if s.station = .active then { s.link with outbox := s.link.outbox
              ++ [Entry.fresh (closingMsg g (plus g.first s.run.eye) (signedDiff last g.first) r1)] } else s.link)
      ∧ (s.station ≠ .active → (s.reported g last r).link = s.link) := by
  intro r1
  let t := s.setSightings (s.eye.sightings.filter (fun x => x.tag != g.tag))
  let c := changeRecord r r1 t
  let m := closingMsg g (plus g.first s.run.eye) (signedDiff last g.first) r1
  have left : OwnLeft [.track, .bid, .outfeed] t c := changeRecord_left (s := t) fixed r r1
  have reports : SameBut [.bid, .feed, .link, .fifo] c (report m c) := report_frame m c
  have tag : r1.desc.tag = g.tag := (closedAs_tag s g _ r).trans (record_tag held).1
  have station : c.station = s.station := left.frame .station (by decide)
  have link : c.link = s.link := left.frame .link (by decide)
  have quiet : s.station ≠ .active → s.reported g last r = c := fun joining => report_quiet (by rwa [station]) m
  have self : c.record g.tag = some r1 := by
    rw [← tag]
    exact changeRecord_self r r1 t
  refine ⟨(record_congr (congrArg TrackList.records (reports .track (by decide))) _).trans self, ?_, fun room => ?_,
    fun joining => by rw [quiet joining, link]⟩
  · exact (reports .eye (by decide)).trans ((left.frame .eye (by decide)).trans rfl)
  · have outfeed : ∃ due, c.outfeed = { s.outfeed with planDue := due } := changeRecord_outfeed (s := t) fixed r r1
    have fifo : c.fifo = s.fifo := left.frame .fifo (by decide)
    by_cases active : s.station = .active
    · have taken : s.reported g last r = c.setOutbox (c.link.outbox ++ [.fresh m]) :=
        report_room (station.trans active) ((roomLater_congr link).trans (room.resolve_left (fun no => no active))) _ _ _ _
      rw [taken, if_pos active]
      refine ⟨fifo, outfeed, ?_⟩
      show { c.link with outbox := c.link.outbox ++ [Entry.fresh m] } = _
      rw [link]
    · rw [quiet active, if_neg active]
      exact ⟨fifo, outfeed, link⟩

/-! ## The outfeed director at a closure (R137) -/

/-- A closed object that no stream keeps, or that was not counted, is diverted by no one (R137). -/
theorem outfeedClosure_uncounted {s : State} {tag : Tag} (uncounted : ∀ u ∈ s.outfeed.underEye, u.tag = tag → u.counted = false)
    (last : Count) : SameBut [.outfeed] s (outfeedClosure tag last s) := by
  unfold outfeedClosure
  split
  · exact .refl _ s
  · rename_i e found
    have counted : ¬ (e.counted = true) := by
      rw [uncounted e (List.mem_of_find?_eq_some found) (by simpa using List.find?_some found)]
      nofun
    have taken : SameBut [.outfeed] s
        (s.setOutfeed { s.outfeed with underEye := s.outfeed.underEye.filter (fun u => u.tag != tag) }) := setOutfeed_frame s _
    dsimp only
    split
    · exact taken
    · rw [if_neg (fun both => counted both.1)]
      exact taken.trans ((setStream_frame _ _ _).trans (planAgain_frame _ _))

/-- What a late divert does: the pulse, and one piece less where its stack still counts (R137). -/
theorem divertLate_spec (i : Fin 4) (e : UnderEye) (j : Reject) (s : State) :
    (divertLate i e j s).outfeed.underEye = s.outfeed.underEye
      ∧ ((divertLate i e j s).outfeed.streams.get i).passed = (s.outfeed.streams.get i).passed
          - (if (s.outfeed.streams.get i).serial = e.serial then 1 else 0)
      ∧ (divertLate i e j s).outfeed.divert = some (s.now + 100000)
      ∧ (divertLate i e j s).fifo = s.withEvent { kind := .diverted, code := some (rejectCode j)
                                                  b := some (if (s.outfeed.streams.get i).serial = e.serial
                                                    ∧ 0 < (s.outfeed.streams.get i).passed then 1 else 0) } := by
  let x := s.outfeed.streams.get i
  let t := divertPulse s
  by_cases counts : x.serial = e.serial ∧ 0 < x.passed
  · have row : divertLate i e j s = raise { kind := .diverted, b := some 1, code := some (rejectCode j) }
        (t.setStream i { x with passed := x.passed - 1 }) := if_pos counts
    rw [row, if_pos counts, if_pos counts.1]
    refine ⟨rfl, ?_, rfl, rfl⟩
    exact congrArg Stream.passed (Quad.get_set_self _ _ _)
  · have row : divertLate i e j s = raise { kind := .diverted, b := some 0, code := some (rejectCode j) } t := if_neg counts
    rw [row, if_neg counts]
    refine ⟨rfl, ?_, rfl, rfl⟩
    show x.passed = x.passed - (if x.serial = e.serial then 1 else 0)
    split
    · rename_i same
      have empty : ¬ 0 < x.passed := fun some => counts ⟨same, some⟩
      omega
    · rfl

/-- The object that has closed leaves the table under the eye; a counted one that now has a reject is diverted late (R137). -/
theorem outfeedClosure_entry {s : State} {tag : Tag} {e : UnderEye} {i : Fin 4} {r : Record}
    (found : s.outfeed.underEye.find? (fun u => u.tag == tag) = some e) (stream : e.stream = some i)
    (held : s.record tag = some r) (last : Count) {late : Bool} (lately : late = true ↔ e.counted = true ∧ r.desc.reject ≠ .none) :
    (outfeedClosure tag last s).outfeed.underEye = s.outfeed.underEye.filter (fun u => u.tag != tag)
      ∧ ((outfeedClosure tag last s).outfeed.streams.get i).closure = some (tag, last)
      ∧ ((outfeedClosure tag last s).outfeed.streams.get i).passed = (s.outfeed.streams.get i).passed
          - (if late = true ∧ (s.outfeed.streams.get i).serial = e.serial then 1 else 0)
      ∧ (outfeedClosure tag last s).outfeed.divert = (if late = true then some (s.now + 100000) else s.outfeed.divert)
      ∧ (outfeedClosure tag last s).fifo = (if late = true then
          s.withEvent { kind := .diverted, code := some (rejectCode r.desc.reject)
                        b := some (if (s.outfeed.streams.get i).serial = e.serial
                          ∧ 0 < (s.outfeed.streams.get i).passed then 1 else 0) }
        else s.fifo) := by
  let t := s.setOutfeed { s.outfeed with underEye := s.outfeed.underEye.filter (fun u => u.tag != tag) }
  let u := if e.counted = true ∧ r.desc.reject ≠ .none then divertLate i e r.desc.reject t else t
  have closes : outfeedClosure tag last s
      = planAgain i (u.setStream i { u.outfeed.streams.get i with closure := some (tag, last) }) := by
    have held' : t.record tag = some r := held
    unfold outfeedClosure
    rw [found]
    dsimp only
    rw [stream]
    dsimp only
    rw [held']
  have closed : ∀ w : State,
      ((planAgain i (w.setStream i { w.outfeed.streams.get i with closure := some (tag, last) })).outfeed.streams.get i)
      = { w.outfeed.streams.get i with closure := some (tag, last) } := fun w => Quad.get_set_self _ _ _
  rw [closes]
  by_cases lates : late = true
  · have row : u = divertLate i e r.desc.reject t := if_pos (lately.mp lates)
    obtain ⟨under, passed, divert, fifo⟩ := divertLate_spec i e r.desc.reject t
    rw [← row] at under passed divert fifo
    refine ⟨under, by rw [closed], ?_, ?_, ?_⟩
    · rw [closed]
      refine passed.trans ?_
      simp only [lates, true_and]
      rfl
    · rw [if_pos lates]
      exact divert
    · rw [if_pos lates]
      exact fifo
  · have row : u = t := if_neg (fun both => lates (lately.mpr both))
    rw [row, closed, if_neg lates, if_neg lates, if_neg (fun both => lates both.1)]
    exact ⟨rfl, rfl, rfl, rfl, rfl⟩

/-! ## A closure judged against a landing own bid (R94) -/

/-- The recall of a landing bid takes one entry, and drops no piece under the eye but the bid's own (R72, R95). -/
theorem recallOwn_landing_parts {s : State} {o : OwnBid} (own : s.bid.own = some o)
    (landing : o.state = .settling ∨ o.state = .granted) (code : Nat) (a : Option Int) :
    (s.roomFirst → (recallOwn code a s).link = { s.link with outbox := s.link.outbox ++ [Entry.fresh (.recall o.desc.tag)] })
      ∧ ∀ u ∈ (recallOwn code a s).outfeed.underEye, u ∈ s.outfeed.underEye := by
  let m := enqueue (.recall o.desc.tag) s
  let d := dropOwnRecord o.desc.tag m
  have queued : SameBut [.bid, .feed, .link, .fifo] s m := enqueue_frame _ s
  have ended : SameBut [.bid, .feed, .fifo] d (raise (recalledEvent o code a) (endOwn d)) :=
    (endOwn_frame d).then (raise_frame _ _) (by decide) (by decide)
  rw [recallOwn_landing own landing]
  refine ⟨fun room => ?_, fun u mem => ?_⟩
  · rw [ended .link (by decide), dropOwnRecord_frame _ _ .link (by decide)]
    show (enqueueFirst (.recall o.desc.tag) s).link = _
    rw [enqueueFirst_room _ s room]
    rfl
  · rw [ended .outfeed (by decide)] at mem
    rw [← queued .outfeed (by decide)]
    have dropped : ∀ x ∈ (dropRecord o.desc.tag m).outfeed.underEye, x ∈ m.outfeed.underEye := fun x here => by
      by_cases held : (m.record o.desc.tag).isSome = true
      · rw [(dropRecord_forgets held).2.1] at here
        exact List.mem_of_mem_filter here
      · unfold dropRecord at here
        rw [Option.not_isSome_iff_eq_none.mp held] at here
        exact here
    show u ∈ m.outfeed.underEye
    unfold d dropOwnRecord at mem
    split at mem
    · exact dropped u mem
    · exact mem

/-- A re-check leaves room for a SIGHTING where six entries and a reserve are not all there is (R155). -/
theorem recheck_room {s : State} (few : s.link.outbox.length < 6) (room : s.roomLater = true) (tag : Tag) :
    (recheck tag s).roomLater = true := by
  unfold recheck
  split
  · rename_i o r own held
    split
    · rename_i both
      have reserve : s.link.reserved ≤ 1 := by
        unfold LinkController.reserved
        split <;> decide
      have first : s.roomFirst := by
        show s.link.outbox.length + s.link.reserved < 8
        omega
      have link := (recallOwn_landing_parts own both.1 7 (some (r.desc.tag.owner.toNat : Int))).1 first
      unfold State.roomLater at room ⊢
      rw [link]
      simp only [Bool.and_eq_true, decide_eq_true_eq] at room ⊢
      have shared : sharedCount (s.link.outbox ++ [Entry.fresh (.recall o.desc.tag)]) = sharedCount s.link.outbox := by
        unfold sharedCount
        rw [List.filter_append]
        simp [Entry.fresh, Msg.cls, show kindClass (Msg.recall o.desc.tag).kind = 0 from rfl]
      have reserved : ({ s.link with outbox := s.link.outbox ++ [Entry.fresh (.recall o.desc.tag)] } : LinkController).reserved
          = s.link.reserved := by
        have before : s.link.outbox.length < 8 := by omega
        have after : s.link.outbox.length + 1 < 8 := by omega
        unfold LinkController.reserved sharedRoom
        rw [shared]
        simp [Config.outboxCapacity, before, after]
      rw [shared, reserved]
      refine ⟨room.1, ?_⟩
      show (s.link.outbox ++ [Entry.fresh (.recall o.desc.tag)]).length + s.link.reserved < 8
      rw [List.length_append, List.length_singleton]
      omega
    · exact room
  · exact room

theorem recheck_underEye (tag : Tag) (s : State) : ∀ u ∈ (recheck tag s).outfeed.underEye, u ∈ s.outfeed.underEye := by
  intro u mem
  unfold recheck at mem
  split at mem
  · rename_i o r own held
    split at mem
    · rename_i both
      exact (recallOwn_landing_parts own both.1 _ _).2 u mem
    · exact mem
  · exact mem

/-- What a change of a record leaves of the pieces under the eye and of the room for its SIGHTING. -/
theorem changeRecord_parts (old r : Record) (s : State) :
    (s.link.outbox.length < 6 → s.roomLater = true → (changeRecord old r s).roomLater = true)
      ∧ ∀ u ∈ (changeRecord old r s).outfeed.underEye, u ∈ s.outfeed.underEye := by
  let t := s.setRecords (replaceRecord r s.track.records)
  let w := if old.altered s.line.highWater r = true then noteChange r.desc.lanes t else t
  have noted : w.link = s.link ∧ w.outfeed.underEye = s.outfeed.underEye := by
    by_cases altered : old.altered s.line.highWater r = true
    · rw [show w = noteChange r.desc.lanes t from if_pos altered]
      obtain ⟨due, outfeed⟩ := noteChange_outfeed r.desc.lanes t
      exact ⟨noteChange_frame _ t .link (by decide), by rw [outfeed]; rfl⟩
    · rw [show w = t from if_neg altered]
      exact ⟨rfl, rfl⟩
  have here : w.roomLater = s.roomLater := roomLater_congr noted.1
  by_cases moved : old.moved s.line.highWater r = true
  · have row : changeRecord old r s = recheck r.desc.tag w := if_pos moved
    rw [row]
    refine ⟨fun few room => recheck_room (by rwa [noted.1]) (here.trans room) _, fun u mem => ?_⟩
    rw [← noted.2]
    exact recheck_underEye _ w u mem
  · have row : changeRecord old r s = w := if_neg moved
    rw [row, noted.2]
    exact ⟨fun _ room => here.trans room, fun u mem => mem⟩

/-- What the outfeed director does alone leaves the judgement of the own bid. -/
theorem Judged.of_outfeed {s w x : State} {o : OwnBid} {r : Record} (h : Judged s w o r) (same : SameBut [.outfeed] w x) :
    Judged s x o r := by
  have bid : x.bid = w.bid := same .bid (by decide)
  have fifo : x.fifo = w.fifo := same .fifo (by decide)
  refine ⟨fun bumps => ?_, fun clear => ?_⟩
  · obtain ⟨ended, gone, record, passedOver, outbox, told⟩ := h.bumps bumps
    refine ⟨by rw [bid]; exact ended, by rw [bid]; exact gone, ?_, by rw [bid]; exact passedOver,
      by rw [same .link (by decide)]; exact outbox, by rw [fifo]; exact told⟩
    rw [record_congr (congrArg TrackList.records (same .track (by decide)))]
    exact record
  · obtain ⟨live, quiet⟩ := h.stands clear
    exact ⟨by rw [bid]; exact live, by rw [fifo]; exact quiet⟩

/-- An entry more in the outbox leaves the judgement of the own bid. -/
theorem Judged.queued {s w : State} {o : OwnBid} {r : Record} (h : Judged s w o r) (e : Entry) :
    Judged s (w.setOutbox (w.link.outbox ++ [e])) o r := by
  refine ⟨fun bumps => ?_, h.stands⟩
  obtain ⟨ended, gone, record, passedOver, outbox, told⟩ := h.bumps bumps
  exact ⟨ended, gone, record, passedOver, fun room => List.mem_append_left _ (outbox room), told⟩

/-- A closure judges the own bid by the record it leaves, where its SIGHTING is queued and no late divert tells of it (R94). -/
theorem closeSighting_judged {s v : State} {o : OwnBid} {g : Sighting} {r : Record} (own : s.bid.own = some o)
    (landing : o.state = .settling ∨ o.state = .granted) (other : o.desc.tag ≠ g.tag) (same : CheckSame o s v)
    (outfeed : v.outfeed = s.outfeed) (station : v.station = s.station)
    (held : s.record g.tag = some r) (held' : v.record g.tag = some r)
    (uncounted : ∀ u ∈ s.outfeed.underEye, u.tag = g.tag → u.counted = false)
    (room : s.station ≠ .active ∨ (s.link.outbox.length < 6 ∧ s.roomLater = true)) (last : Count) :
    Judged s (closeSighting g last v) o (v.closedAs g (signedDiff last g.first) r) := by
  let r1 := v.closedAs g (signedDiff last g.first) r
  let t := v.setSightings (v.eye.sightings.filter (fun x => x.tag != g.tag))
  let c := changeRecord r r1 t
  have tag : r1.desc.tag = g.tag := (closedAs_tag v g _ r).trans (record_tag held).1
  have sameT : CheckSame o s t := { same with }
  have judged : Judged s c o r1 :=
    changeRecord_judged own landing (by rw [tag]; exact other.symm) sameT (by rw [tag]; exact held)
  obtain ⟨spare, under⟩ := changeRecord_parts r r1 t
  let m := closingMsg g (plus g.first v.run.eye) (signedDiff last g.first) r1
  have reports : Judged s (report m c) o r1 ∧ (report m c).outfeed = c.outfeed := by
    by_cases active : c.station = .active
    · have link : t.link = s.link := same.link
      have here : s.station = .active := by
        rw [← station]
        exact (changeRecord_frame r r1 t .station (by decide)).symm.trans active
      obtain ⟨few, free⟩ := room.resolve_left (fun no => no here)
      rw [show report m c = _ from report_room active (spare (by rwa [link]) ((roomLater_congr link).trans free)) _ _ _ _]
      exact ⟨judged.queued _, rfl⟩
    · rw [report_quiet active]
      exact ⟨judged, rfl⟩
  rw [closeSighting_held held']
  refine reports.1.of_outfeed (outfeedClosure_uncounted (fun u mem named => ?_) last)
  rw [reports.2] at mem
  exact uncounted u (outfeed ▸ under u mem) named

/-! ## The eyes of several trailing edges (R58, R125) -/

/-- The trailing edges of an advance clear their eyes and drop the bases of their lanes, and leave the others (R66, R125). -/
theorem trailingEdges_eyes (j : Fin 4) : ∀ (l : List (Fin 4 × Count)) (s : State),
    let t := l.foldl (fun t (kn : Fin 4 × Count) => trailingEdge kn.1 kn.2 t) s
    t.eye.eyes.get j = (if j ∈ l.map Prod.fst then { state := .clear, edge := none } else s.eye.eyes.get j)
      ∧ t.throat.bases.get j = (if j ∈ l.map Prod.fst ∧ s.role = .throat then none else s.throat.bases.get j)
      ∧ t.throat.jammed = s.throat.jammed ∧ t.throat.relay = s.throat.relay ∧ t.role = s.role
  | [], s => by simp
  | (k, n) :: l, s => by
    obtain ⟨eyes, throat⟩ := trailingEdge_eyes k n s
    rw [cleared_throat] at throat
    have role : (trailingEdge k n s).role = s.role :=
      congrArg (fun f => f.station.role) (trailingEdge_frame k n s .run (by decide))
    obtain ⟨eye, base, jammed, relay, roles⟩ := trailingEdges_eyes j l (trailingEdge k n s)
    refine ⟨?_, ?_, jammed.trans ?_, relay.trans ?_, roles.trans role⟩
    · refine eye.trans ?_
      rw [eyes]
      by_cases same : j = k
      · subst same
        simp
      · simp [same, Quad.get_set_of_ne _ same]
    · refine base.trans ?_
      rw [throat, role]
      by_cases throated : s.role = .throat
      · by_cases same : j = k
        · subst same
          simp [throated]
        · simp [throated, same, Quad.get_set_of_ne _ same]
      · simp [throated]
    · rw [throat]
      split <;> rfl
    · rw [throat]
      split <;> rfl

end Sys2Proof.Machine
end

section
/-! The obligation of TRAILING_EDGE, assembled (R58, R61, R66 to R68, R94, R125, R137). -/
namespace Sys2Proof.Machine

/-- A matched sighting closed at its last bound eye (R25, R47, R66 to R68). -/
theorem matched_closure : ∀ (s : State) (k : Fin 4) (n : Count) (g : Sighting) (r : Record), s.acting = true → s.leadingDue = [] →
    s.trailingDue = [(k, n)] →
    s.bindsAlone k g → g.stray = false → g.bound = laneBit k → s.record g.tag = some r →
    (∀ o, s.bid.own = some o → o.desc.tag = g.tag → o.state = .fired) →
    ∃ t r', exec .trailingEdge s = .next t
      ∧ t.eye.eyes = s.eye.eyes.set k { state := .clear, edge := none }
      ∧ (∀ x ∈ t.eye.sightings, x ∈ s.eye.sightings ∧ x.tag ≠ g.tag)
      ∧ (∀ x ∈ s.eye.sightings, x.tag ≠ g.tag → s.ownElsewhere x.tag → x ∈ t.eye.sightings)
      ∧ t.record g.tag = some r'
      ∧ r'.measured = some (max 1 (min 18000 (signedDiff n g.first))).toNat
      ∧ r'.state = (if r.state = .bid then .seen else r.state)
      ∧ r'.reporter = s.number ∧ r'.tl = r.tl ∧ r'.passed = r.passed ∧ r'.missed = r.missed ∧ r'.own = r.own
      ∧ r'.openFrom = r.openFrom
      ∧ ((∀ p, s.width.piece = some p → p.tag ≠ g.tag) →
          r'.desc = { r.desc with reject :=
            if r.desc.reject = .stray then .stray
            else if r.desc.reject = .double
              ∨ (s.expectedLength r.desc : Int) + s.run.tolerance < signedDiff n g.first then .double
            else if s.role = .feed ∧ r.own = true ∧ r.desc.kind = .piece then
              (match g.width with | some .narrow => .narrow | some .wide => .wide | _ => r.desc.reject)
            else r.desc.reject })
      ∧ SameBut [.track, .eye, .bid, .feed, .width, .throat, .outfeed, .link, .fifo] s t := by
  intro s k n g r acting clear due alone matched single held _
  obtain ⟨v, others, eye⟩ := trailed_eye s k g
  let u := s.trailed k g
  let g1 := g.ended (v g) k n
  let r1 := s.closedAs g1 (signedDiff n g.first) r
  have closes : trailingEdge k n s = closeSighting g1 n u := trailingEdge_closes alone single (by rw [eye]) n
  obtain ⟨record, eyes, sub, stand, -⟩ := closeSighting_list (g := g1) ((trailed_record s k g g.tag).trans held) n
  rw [closedAs_congr (trailed_frame s k g)] at record
  have matched1 : r1 = s.closedRecord g1 (signedDiff n g.first) r := closedAs_matched (s := s) (g := g1) matched (signedDiff n g.first) r
  refine ⟨finish (closeSighting g1 n u), r1, by rw [trailing_row acting clear due, closes], ?_, fun x mem => ?_,
    fun x mem apart elsewhere => ?_, by rw [finish_record]; exact record, congrArg Record.measured matched1,
    congrArg Record.state matched1, congrArg Record.reporter matched1, (congrArg Record.tl matched1).trans rfl,
    (congrArg Record.passed matched1).trans rfl, (congrArg Record.missed matched1).trans rfl, (congrArg Record.own matched1).trans rfl,
    (congrArg Record.openFrom matched1).trans rfl, fun apart => ?_, by rw [← closes]; exact trailing_row_frame k n s⟩
  · rw [finish_eye, eyes, eye]
  · rw [finish_eye] at mem
    obtain ⟨listed, differs⟩ := List.mem_filter.mp (sub.subset mem)
    rw [eye] at listed
    obtain ⟨y, here, rfl⟩ := List.mem_map.mp listed
    have apart : y.tag ≠ g.tag := by simpa using (show (y.tag != g.tag) = true from differs)
    rw [others y (.inl apart)]
    exact ⟨here, apart⟩
  · rw [finish_eye]
    refine stand x ?_ apart (fun o live => elsewhere o ?_)
    · rw [eye]
      exact List.mem_map.mpr ⟨x, mem, by rw [others x (.inl apart)]⟩
    · rwa [← trailed_frame s k g .bid (by decide)]
  · have verdict := closedReject_eq (s := s) (g := g1) (measured := signedDiff n g.first) (r := r) matched
    rwa [show g1.width = g.width from others g (.inr apart)] at verdict

/-- A closure whose own bid is FIRED or none: the stray's length, and the SIGHTING queued in ACTIVE (R67, R68, R71). -/
theorem closure_reported : ∀ (s : State) (k : Fin 4) (n : Count) (g : Sighting) (r : Record), s.acting = true → s.leadingDue = [] →
    s.trailingDue = [(k, n)] → s.bindsAlone k g → g.bound = laneBit k → s.record g.tag = some r →
    (∀ o, s.bid.own = some o → o.state = .fired) →
    ∃ t r' l, exec .trailingEdge s = .next t ∧ t.record g.tag = some r' ∧ freshBids l
      ∧ (g.stray = true →
          r' = { r with desc := { r.desc with length := (max 1 (min 18000 (signedDiff n g.first))).toNat }
                        measured := some (max 1 (min 18000 (signedDiff n g.first))).toNat
                        reporter := s.number, openFrom := none })
      ∧ t.eye.sightings.map (fun x => x.tag) = (s.eye.sightings.map (fun x => x.tag)).filter (fun x => x != g.tag)
      ∧ (s.station ≠ .active → t.link = s.link)
      ∧ SameBut [.track, .eye, .bid, .feed, .width, .throat, .outfeed, .link, .fifo] s t
      ∧ (s.station = .active → s.roomLater = true → t.link.outbox = s.link.outbox ++
          [Entry.fresh (if g.stray = true then .stray { r'.desc with rank := .normal } (plus g.first s.run.eye)
            else .seen { r'.desc with rank := .normal } (plus g.first s.run.eye)
              (max 1 (min 18000 (signedDiff n g.first))).toNat)] ++ l) := by
  intro s k n g r acting clear due alone single held fired
  obtain ⟨v, -, eye⟩ := trailed_eye s k g
  let u := s.trailed k g
  let g1 := g.ended (v g) k n
  let r1 := s.closedAs g1 (signedDiff n g.first) r
  have trailed : SameBut [.eye, .width, .throat, .fifo] s u := trailed_frame s k g
  have fixed : u.ownFixed := fun o own => .inl (fired o (by rwa [← trailed .bid (by decide)]))
  have held' : u.record g.tag = some r := (trailed_record s k g g.tag).trans held
  have same : u.closedAs g1 (signedDiff n g.first) r = r1 := closedAs_congr trailed g1 _ r
  have closes : trailingEdge k n s = outfeedClosure g.tag n (u.reported g1 n r) :=
    trailingEdge_reports alone single held (by rw [eye]) n
  obtain ⟨record, eyes, queued, silent⟩ := reported_fixed (g := g1) fixed held' n
  let w := trailingEdge k n s
  have moved : SameBut (.throat :: listBlocks) s w := trailingEdge_frame k n s
  have director : SameBut [.outfeed, .fifo] (u.reported g1 n r) w := by
    rw [show w = _ from closes]
    exact outfeedClosure_frame _ _ _
  obtain ⟨l, more, fresh⟩ := (finish_keeps w).outbox
  refine ⟨finish w, r1, l, trailing_row acting clear due, ?_, fresh, fun stray => ?_, ?_, fun joining => ?_,
    trailing_row_frame k n s, fun active room => ?_⟩
  · rw [finish_record, record_congr (congrArg TrackList.records (director .track (by decide))), ← same]
    exact record
  · exact closedAs_stray (g := g1) stray _ r
  · rw [finish_eye, director .eye (by decide), eyes, eye]
    simp only [List.filter_map, List.map_map]
    rfl
  · have station : w.station = s.station := moved .station (by decide)
    obtain ⟨-, -, -, settled⟩ := finish_idle w (fun idle => joining (station ▸ idle.1))
    rw [settled .link (by decide), director .link (by decide), silent (by rwa [trailed .station (by decide)])]
    exact trailed .link (by decide)
  · have here : u.station = .active := (trailed .station (by decide)).trans active
    obtain ⟨-, -, link⟩ := queued (.inr ((roomLater_congr (trailed .link (by decide))).trans room))
    rw [more, director .link (by decide), link, if_pos here, show u.closedAs g1 (signedDiff n g1.first) r = r1 from same]
    show u.link.outbox ++ [Entry.fresh (closingMsg g1 (plus g.first u.run.eye) _ r1)] ++ l = _
    rw [trailed .link (by decide), trailed .run (by decide)]
    rfl

/-- An eye that is not the last only leaves the sighting (R66). -/
theorem bound_eye_leaves : ∀ (s : State) (k : Fin 4) (n : Count) (g : Sighting), s.acting = true → s.leadingDue = [] →
    s.trailingDue = [(k, n)] → s.bindsAlone k g → g.bound ≠ laneBit k →
    (∀ p, s.width.piece = some p → p.tag ≠ g.tag) →
    ∃ t, exec .trailingEdge s = .next t
      ∧ t.eye.eyes = s.eye.eyes.set k { state := .clear, edge := none }
      ∧ t.eye.sightings = s.eye.sightings.map (fun x =>
          if x = g then { g with bound := g.bound &&& ~~~(laneBit k), lastTrail := some n } else x)
      ∧ t.track.records = s.track.records ∧ t.fifo = s.fifo ∧ t.outfeed.underEye = s.outfeed.underEye
      ∧ SameBut ([.eye, .width, .throat] ++ settlingBlocks) s t := by
  intro s k n g acting clear due alone more apart
  obtain ⟨trailed, eye⟩ := trailed_quiet (k := k) apart
  let u := s.trailed k g
  let g1 : Sighting := { g with bound := g.bound &&& ~~~(laneBit k), lastTrail := some n }
  have row : trailingEdge k n s = u.setSightings (u.eye.sightings.map (fun y => if y.tag = g.tag then g1 else y)) := by
    rw [trailingEdge_bound (bindsAlone_boundTo alone) (trailed_find alone (trailed_sightings apart))]
    exact if_neg (last_binds alone.2.1 more)
  let w := u.setSightings (u.eye.sightings.map (fun y => if y.tag = g.tag then g1 else y))
  have frame : SameBut [.eye, .width, .throat] s w := trailed.trans ((setSightings_frame _ _).widen (by decide))
  refine ⟨finish w, by rw [trailing_row acting clear due, row], ?_, ?_, ?_, ?_, ?_,
    (frame.widen (by decide)).trans ((finish_frame w).widen (by decide))⟩
  · rw [finish_eye]
    exact congrArg EyeUnit.eyes eye
  · rw [finish_eye]
    show u.eye.sightings.map _ = _
    rw [eye]
    refine List.map_congr_left (fun x mem => ?_)
    by_cases same : x = g
    · rw [same, if_pos rfl, if_pos rfl]
    · rw [if_neg same, if_neg (fun tag => same (alone.2.2 x mem (.inl tag)))]
  · rw [finish_track_records, frame .track (by decide)]
  · rw [finish_fifo, frame .fifo (by decide)]
  · rw [finish_outfeed_underEye, frame .outfeed (by decide)]

/-- A closure at the outfeed director (R137). -/
theorem outfeed_closure : ∀ (s : State) (k : Fin 4) (n : Count) (g : Sighting) (r' : Record) (e : UnderEye) (i : Fin 4) (t : State)
    (late : Bool),
    s.acting = true → s.leadingDue = [] → s.trailingDue = [(k, n)] → s.bindsAlone k g → g.bound = laneBit k →
    (s.record g.tag).isSome = true → s.bid.own = none → s.role = .outfeed → s.width.piece = none →
    s.station ≠ .active ∨ s.roomLater = true →
    s.outfeed.underEye.find? (fun u => u.tag == g.tag) = some e → e.stream = some i →
    exec .trailingEdge s = .next t → t.record g.tag = some r' →
    (late = true ↔ e.counted = true ∧ r'.desc.reject ≠ .none) →
    t.outfeed.underEye = s.outfeed.underEye.filter (fun u => u.tag != g.tag)
      ∧ (t.outfeed.streams.get i).closure = some (g.tag, n)
      ∧ (t.outfeed.streams.get i).passed = (s.outfeed.streams.get i).passed
          - (if late = true ∧ (s.outfeed.streams.get i).serial = e.serial then 1 else 0)
      ∧ t.outfeed.divert = (if late = true then some (s.now + 100000) else s.outfeed.divert)
      ∧ t.fifo = (if late = true then
          s.withEvent { kind := .diverted, code := some (rejectCode r'.desc.reject)
                        b := some (if (s.outfeed.streams.get i).serial = e.serial
                          ∧ 0 < (s.outfeed.streams.get i).passed then 1 else 0) }
        else s.fifo) := by
  intro s k n g r' e i t late acting clear due alone single present idle role empty room found stream row closed lately
  obtain ⟨r, held⟩ := Option.isSome_iff_exists.mp present
  have apart : ∀ p, s.width.piece = some p → p.tag ≠ g.tag := fun p held => by
    rw [empty] at held
    cases held
  obtain ⟨trailed, -⟩ := trailed_quiet (k := k) apart
  let u := s.trailed k g
  let g1 := g.ended g.width k n
  let r1 := u.closedAs g1 (signedDiff n g.first) r
  have held' : u.record g.tag = some r := (trailed_record s k g g.tag).trans held
  let x := u.reported g1 n r
  have closes : trailingEdge k n s = outfeedClosure g.tag n x :=
    trailingEdge_reports alone single held (trailed_sightings apart) n
  have fixed : u.ownFixed := ownFixed_none (by rw [trailed .bid (by decide)]; exact idle)
  obtain ⟨record, -, queued, -⟩ := reported_fixed (g := g1) fixed held' n
  have free : u.station ≠ .active ∨ u.roomLater = true := by
    rw [trailed .station (by decide), roomLater_congr (trailed .link (by decide))]
    exact room
  obtain ⟨fifo, ⟨planDue, outfeed⟩, -⟩ := queued free
  rw [trailed .outfeed (by decide)] at outfeed
  let w := trailingEdge k n s
  obtain rfl : finish w = t := by
    rw [trailing_row acting clear due] at row
    exact Host.Outcome.next.inj row
  have director : SameBut [.outfeed, .fifo] x w := by
    rw [show w = _ from closes]
    exact outfeedClosure_frame _ _ _
  obtain rfl : r1 = r' := by
    rw [finish_record, record_congr (congrArg TrackList.records (director .track (by decide)))] at closed
    exact Option.some.inj (record.symm.trans closed)
  obtain ⟨under, closure, passed, divert, told⟩ := outfeedClosure_entry (s := x) (tag := g.tag) (e := e)
    (i := i) (by rw [outfeed]; exact found) stream record n lately
  rw [← closes] at under closure passed divert told
  obtain ⟨spacer, beside⟩ := finish_stream_beside w i
  have moved : SameBut (.throat :: listBlocks) s w := trailingEdge_frame k n s
  have now : x.now = s.now := (director .now (by decide)).symm.trans (moved .now (by decide))
  have events : ∀ e, x.withEvent e = s.withEvent e := withEvent_congr (fifo.trans (trailed .fifo (by decide)))
    ((director .store (by decide)).symm.trans (moved .store (by decide)))
  refine ⟨?_, ?_, ?_, ?_, ?_⟩
  · rw [finish_outfeed_underEye, under, outfeed]
  · rw [beside]
    exact closure
  · rw [beside]
    refine passed.trans ?_
    rw [outfeed]
  · rw [finish_outfeed_divert, divert, now, outfeed]
  · rw [finish_fifo, told, events, outfeed, fifo, trailed .fifo (by decide)]
    rfl

/-- Every eye and block base after the trailing edges of an advance (R58, R66, R125). -/
theorem trailing_eyes : ∀ s : State, s.acting = true → s.leadingDue = [] →
    ∃ t, exec .trailingEdge s = .next t
      ∧ (∀ k n, (k, n) ∈ s.trailingDue → t.eye.eyes.get k = { state := .clear, edge := none }
          ∧ t.throat.bases.get k = (if s.role = .throat then none else s.throat.bases.get k))
      ∧ (∀ k, (∀ n, (k, n) ∉ s.trailingDue) → t.eye.eyes.get k = s.eye.eyes.get k
          ∧ t.throat.bases.get k = s.throat.bases.get k)
      ∧ t.throat.jammed = s.throat.jammed ∧ t.throat.relay = s.throat.relay := by
  intro s acting clear
  let w := s.trailingDue.foldl (fun t (kn : Fin 4 × Count) => trailingEdge kn.1 kn.2 t) s
  have row : exec .trailingEdge s = .next (finish w) := by
    show execTrailingEdge s = _
    unfold execTrailingEdge
    rw [acting, clear]
    rfl
  have eyes := fun j => trailingEdges_eyes j s.trailingDue s
  refine ⟨finish w, row, fun k n due => ?_, fun k free => ?_, ?_, ?_⟩
  · have mem : k ∈ s.trailingDue.map Prod.fst := List.mem_map.mpr ⟨(k, n), due, rfl⟩
    obtain ⟨eye, base, -⟩ := eyes k
    rw [if_pos mem] at eye
    simp only [mem, true_and] at base
    rw [finish_eye, finish_throat]
    exact ⟨eye, base⟩
  · have other : k ∉ s.trailingDue.map Prod.fst := fun mem => by
      obtain ⟨⟨_, n⟩, due, rfl⟩ := List.mem_map.mp mem
      exact free n due
    obtain ⟨eye, base, -⟩ := eyes k
    rw [if_neg other] at eye
    rw [if_neg (fun both => other both.1)] at base
    rw [finish_eye, finish_throat]
    exact ⟨eye, base⟩
  · rw [finish_throat]
    exact (eyes 0).2.2.1
  · rw [finish_throat]
    exact (eyes 0).2.2.2.1

/-- A closure judged against a SETTLING or GRANTED own bid (R94). -/
theorem closure_judged : ∀ (s : State) (k : Fin 4) (n : Count) (g : Sighting) (o : OwnBid), s.acting = true → s.leadingDue = [] →
    s.trailingDue = [(k, n)] → s.bindsAlone k g → g.bound = laneBit k → (s.record g.tag).isSome = true →
    (∀ p, s.width.piece = some p → p.tag ≠ g.tag) → (∀ u ∈ s.outfeed.underEye, u.tag = g.tag → u.counted = false) →
    s.station ≠ .active ∨ (s.link.outbox.length < 6 ∧ s.roomLater = true) →
    s.bid.own = some o → o.state = .settling ∨ o.state = .granted → o.desc.tag ≠ g.tag →
    ∃ t r', exec .trailingEdge s = .next t ∧ t.record g.tag = some r'
      ∧ (s.bumpedBy r' o → s.bumped t o r'.desc.tag.owner.toNat)
      ∧ (s.role ≠ .outfeed → ¬ s.bumpedBy r' o → t.bid.own = some o ∧ t.fifo = s.fifo) := by
  intro s k n g o acting clear due alone single present apart uncounted room own landing other
  obtain ⟨r, held⟩ := Option.isSome_iff_exists.mp present
  obtain ⟨trailed, -⟩ := trailed_quiet (k := k) apart
  let u := s.trailed k g
  let g1 := g.ended g.width k n
  have closes : trailingEdge k n s = closeSighting g1 n u := trailingEdge_closes alone single (trailed_sightings apart) n
  have held' : u.record g.tag = some r := (trailed_record s k g g.tag).trans held
  have bid : u.bid = s.bid := trailed .bid (by decide)
  have same : CheckSame o s u :=
    { record := trailed_record s k g _, passedOver := by rw [bid], link := trailed .link (by decide)
      fifo := trailed .fifo (by decide), store := trailed .store (by decide)
      positions := by rw [trailed .feed (by decide)], own := by rw [bid], run := trailed .run (by decide)
      line := trailed .line (by decide) }
  have judged : Judged s (closeSighting g1 n u) o (u.closedAs g1 (signedDiff n g.first) r) :=
    closeSighting_judged (g := g1) own landing other same (trailed .outfeed (by decide)) (trailed .station (by decide))
      held held' uncounted room n
  obtain ⟨bumps, stands⟩ := judged.finish landing
  obtain ⟨record, -⟩ := closeSighting_list (g := g1) held' n
  exact ⟨finish (closeSighting g1 n u), _, by rw [trailing_row acting clear due, closes], by rw [finish_record]; exact record,
    bumps, fun _ => stands⟩

/-- Settles O10: each closure goes through the state at which the last eye leaves its sighting. -/
theorem trailingEdgeClosesSighting : Obligations.TrailingEdgeClosesSighting := by
  refine ⟨matched_closure, closure_reported, bound_eye_leaves, outfeed_closure, trailing_eyes,
    fun s waits => ?_, closure_judged⟩
  show execTrailingEdge s = _
  unfold execTrailingEdge
  rw [if_neg]
  rw [show s.leadingDue.isEmpty = false from by simpa using waits, Bool.and_false]
  nofun

end Sys2Proof.Machine
end

section
/-! The obligation of the width sampler (R115 to R119). -/
namespace Sys2Proof.Machine

/-- The sampler as the trailing edge of its piece aborts it (R115, R118, R119; log 37). -/
def State.abortedWidth (s : State) (tag : Tag) (k : Fin 4) : WidthSampler :=
  { s.width with
    phase := if s.width.phase = .armed then .idle else .resting
    piece := none
    sum := if s.width.phase = .armed then s.width.sum else 0
    due := if s.width.phase = .armed then s.width.due else s.now + 2000
    pending := s.notedPending tag k }

/-- The event of an abort (R119). -/
def State.abortEvent (s : State) (p : WidthPiece) : Event :=
  unmeasuredEvent p (if s.width.phase = .armed then 0 else s.width.samples) (if s.width.phase = .armed then 1 else 2)

/-- The trailing edge of the eye that opened the piece's sighting aborts the sampler that has the piece in hand. -/
theorem widthTrail_aborts {s : State} {p : WidthPiece} {tag : Tag} {k : Fin 4} (piece : s.width.piece = some p)
    (named : p.tag = tag) (lane : p.lane = k) (running : s.width.phase = .armed ∨ s.width.phase = .converting) :
    (widthTrail tag k s).width = s.abortedWidth tag k
      ∧ (widthTrail tag k s).fifo = s.withEvent (s.abortEvent p) := by
  unfold widthTrail
  rw [piece]
  dsimp only
  rw [if_pos ⟨named, lane⟩]
  unfold State.abortedWidth State.abortEvent
  rcases running with phase | phase
  · simp only [phase, if_true]
    exact ⟨rfl, rfl⟩
  · simp only [phase, reduceCtorEq, if_false]
    exact ⟨rfl, rfl⟩

/-- What the closure hands to the outfeed director, block by block. -/
theorem reported_frame {s : State} (fixed : s.ownFixed) (g : Sighting) (last : Count) (r : Record) :
    SameBut [.track, .eye, .bid, .feed, .outfeed, .link, .fifo] s (s.reported g last r) := by
  let t := s.setSightings (s.eye.sightings.filter (fun x => x.tag != g.tag))
  have left := (changeRecord_left (s := t) fixed r (s.closedAs g (signedDiff last g.first) r)).frame
  exact (((setSightings_frame s _).widen (by decide)).trans (left.widen (by decide))).trans
    ((report_frame _ _).widen (by decide))

theorem outfeedClosure_empty {s : State} (empty : s.outfeed.underEye = []) (tag : Tag) (last : Count) :
    outfeedClosure tag last s = s := by
  unfold outfeedClosure
  rw [empty]
  rfl

/-- A closure with nothing under the eye of the outfeed, whose own bid no recall touches, leaves the sampler and tells nothing. -/
theorem closeSighting_quiet {s : State} {g : Sighting} (fixed : s.ownFixed) (empty : s.outfeed.underEye = [])
    (room : s.station ≠ .active ∨ s.roomLater = true) (last : Count) :
    (closeSighting g last s).width = s.width ∧ (closeSighting g last s).fifo = s.fifo := by
  cases held : s.record g.tag with
  | none =>
    rw [closeSighting_gone held]
    exact ⟨rfl, rfl⟩
  | some r =>
    obtain ⟨-, -, queued, -⟩ := reported_fixed fixed held last
    obtain ⟨fifo, ⟨due, outfeed⟩, -⟩ := queued room
    have reports : closeSighting g last s = s.reported g last r := by
      rw [closeSighting_held held]
      exact outfeedClosure_empty ((congrArg OutfeedDirector.underEye outfeed).trans empty) _ _
    rw [reports]
    exact ⟨reported_frame fixed g last r .width (by decide), fifo⟩

/-- Settles O15. -/
theorem widthConversionRuns : Obligations.WidthConversionRuns := by
  refine ⟨fun s p code piece armed acting reached => ?_, fun s p code piece converting few => ?_,
    fun s p code piece converting seven => ?_, fun a w => ?_,
    fun s k n g p acting clear due single bound matched role fired piece tag lane running empty room => ?_⟩
  · refine ⟨s.setWidth (s.width.begin p code s.now), ?_, ?_, setWidth_frame s _⟩
    · simp [exec, execWidthStart, piece, armed, acting, atLeast, reached]
    · show s.width.begin p code s.now = _
      unfold WidthSampler.begin
      rw [← piece]
      rfl
  · let u := advanceTo s.width.due s
    have moved : SameBut [.now, .line] s u := advanceTo_frame _ s
    have width : u.width = s.width := moved .width (by decide)
    have takes : takeSample p code u = u.setWidth { s.width with
        sum := s.width.sum + code.toNat, samples := s.width.samples + 1, due := s.width.due + Config.sampleTime } := by
      unfold takeSample
      rw [width]
      exact if_pos (by show s.width.samples + 1 < 8; omega)
    refine ⟨takeSample p code u, by simp [exec, execWidthSample, piece, converting, u], ?_, ?_, ?_⟩
    · rw [takes]
      rfl
    · rw [takes]
      exact advanceTo_now _ s
    · rw [takes]
      exact (moved.widen (by decide)).trans ((setWidth_frame _ _).widen (by decide))
  · let u := advanceTo s.width.due s
    have moved : SameBut [.now, .line] s u := advanceTo_frame _ s
    have run : u.run = s.run := moved .run (by decide)
    let x := widthOf (s.width.sum + code.toNat) s.run.station.curtain
    let w : WidthSampler := { s.width with
      phase := .resting, sum := s.width.sum + code.toNat, samples := s.width.samples + 1, last := x
      due := u.now + Config.restTime }
    have takes : takeSample p code u = deliver p.tag (widthVerdict (u.ownArticle p.article) x) (u.setWidth w) := by
      unfold takeSample
      rw [show u.width = s.width from moved .width (by decide), run]
      exact if_neg (by show ¬ s.width.samples + 1 < 8; omega)
    have article : u.ownArticle p.article = s.ownArticle p.article := by
      unfold State.ownArticle
      rw [show u.store = s.store from moved .store (by decide)]
    have eye : u.eye = s.eye := moved .eye (by decide)
    refine ⟨takeSample p code u, by simp [exec, execWidthSample, piece, converting, u], ?_⟩
    rw [takes]
    refine ⟨rfl, ?_, rfl, rfl, by show u.eye.eyes = _; rw [eye], ?_, ?_⟩
    · show u.now + 2000 = _
      rw [show u.now = max s.now s.width.due from advanceTo_now _ s]
    · show u.eye.sightings.map _ = _
      rw [eye, article]
      rfl
    · exact (moved.widen (by decide)).trans (((setWidth_frame _ _).widen (by decide)).trans
        ((setSightings_frame _ _).widen (by decide)))
  · unfold widthVerdict
    by_cases narrow : w < a.width - a.tolerance
    · rw [if_pos narrow]
      refine ⟨?_, ?_, ?_⟩ <;> simp only [reduceCtorEq, true_iff, false_iff] <;> omega
    · rw [if_neg narrow]
      by_cases wide : a.width + a.tolerance < w
      · rw [if_pos wide]
        refine ⟨?_, ?_, ?_⟩ <;> simp only [reduceCtorEq, true_iff, false_iff] <;> omega
      · rw [if_neg wide]
        refine ⟨?_, ?_, ?_⟩ <;> simp only [reduceCtorEq, true_iff, false_iff] <;> omega
  · let c := s.cleared k
    let u := s.trailed k g
    have cleared : SameBut [.eye, .throat] s c := cleared_frame s k
    have trailed : SameBut [.eye, .width, .throat, .fifo] s u := trailed_frame s k g
    have aborts : u = widthTrail g.tag k c := if_neg (by rw [matched]; nofun)
    have here : c.width = s.width := cleared .width (by decide)
    obtain ⟨width, fifo⟩ := widthTrail_aborts (s := c) (by rw [here]; exact piece) tag lane (by rw [here]; exact running)
    rw [← aborts] at width fifo
    have aborted : u.width = s.abortedWidth g.tag k := by
      rw [width]
      unfold State.abortedWidth State.notedPending
      rw [here, cleared .now (by decide)]
    have told : u.fifo = s.withEvent (s.abortEvent p) := by
      rw [fifo, withEvent_congr (cleared .fifo (by decide)) (cleared .store (by decide))]
      unfold State.abortEvent
      rw [here]
    have alone : s.bindsAlone k g :=
      ⟨by rw [single]; exact List.mem_singleton_self g, bound, fun x mem _ => by simpa [single] using mem⟩
    obtain ⟨v, -, eye⟩ := trailed_eye s k g
    have edge := trailingEdge_bound (bindsAlone_boundTo alone) (trailed_find alone (v := v) (by rw [eye])) n
    have fixed : u.ownFixed := fun o own => .inl (fired o (by rwa [← trailed .bid (by decide)]))
    have free : u.station ≠ .active ∨ u.roomLater = true := by
      rw [trailed .station (by decide), roomLater_congr (trailed .link (by decide))]
      exact room
    have kept : (trailingEdge k n s).width = u.width ∧ (trailingEdge k n s).fifo = u.fifo := by
      rw [edge]
      split
      · exact closeSighting_quiet fixed (by rw [trailed .outfeed (by decide)]; exact empty) free n
      · exact ⟨rfl, rfl⟩
    refine ⟨finish (trailingEdge k n s), trailing_row acting clear due, ?_, ?_⟩
    · rw [finish_width, kept.1, aborted]
      rfl
    · rw [finish_fifo, kept.2, told]
      unfold State.abortEvent unmeasuredEvent
      rcases running with phase | phase <;> simp [phase]

end Sys2Proof.Machine
end

section
/-! UNLOAD at a FEED station: what the search at the end of the step makes of the positions (R78, R85, R107). -/
namespace Sys2Proof.Machine

/-! ## The end of a step at a FEED station without an own bid -/

/-- The search of a FEED station queues a bid for a LOADED position, which becomes BIDDING, or none (R78, R85). -/
def FeedSearched (s t : State) : Prop :=
  t.bid.own = none ∧ t.feed = s.feed ∨ ∃ o, t.bid.own = some o ∧ o.state = .queued ∧ o.cancelling = false
    ∧ (s.feed.positions.get o.serves).state = .loaded
    ∧ t.feed = { s.feed with
        positions := s.feed.positions.set o.serves { s.feed.positions.get o.serves with state := .bidding } }

theorem finish_searched {s : State} (role : s.role = .feed) (idle : s.bid.own = none) : FeedSearched s (finish s) := by
  let v := handRequest (planStreams s)
  have feed : v.feed = s.feed :=
    (handRequest_frame (planStreams s) .feed (by decide)).trans (planStreams_frame s .feed (by decide))
  have own : v.bid.own = none := by
    rw [(handRequest_own _).1, planStreams_frame s .bid (by decide)]
    exact idle
  have eligible := eligible_handRequest_feed role
  have searched : FeedSearched s (reconsider v) := by
    unfold reconsider
    split
    · rename_i target can
      rw [eligible] at can
      obtain ⟨i, rfl⟩ : ∃ i, target = .head i := by
        cases target with
        | head i => exact ⟨i, rfl⟩
        | spacer r =>
          unfold State.eligible at can
          rw [role] at can
          dsimp only at can
          split at can
          · split at can
            · split at can <;> cases can
            · cases can
          · cases can
      have loaded := State.eligible_head can
      split
      · unfold search
        split
        · rename_i w found
          refine .inr ⟨v.newBid (.head i) w, queueBid_own _ _ _, rfl, rfl, loaded, ?_⟩
          unfold queueBid
          rw [enqueue_bid_frame _ _ _ .feed (by decide)]
          show ({ v.feed with positions := v.feed.positions.set i { v.feed.positions.get i with state := .bidding } }
            : FeedSequencer) = _
          rw [feed]
          rfl
        · exact .inl ⟨own, feed⟩
      · exact .inl ⟨own, feed⟩
    · exact .inl ⟨own, feed⟩
  exact searched

/-- An empty position stays empty at the end of a step. -/
theorem finish_emptied {s : State} {i : Fin 4} (empty : s.feed.positions.get i = Position.none) :
    (finish s).feed.positions.get i = Position.none := by
  rcases finish_positions s i with stands | ⟨loaded, -⟩
  · exact stands.trans empty
  · rw [empty] at loaded
    cases loaded

/-- A new bid serves no empty position (R78). -/
theorem finish_serves_none {s : State} {i : Fin 4} (role : s.role = .feed) (idle : s.bid.own = none)
    (empty : s.feed.positions.get i = Position.none) (o : OwnBid) (own : (finish s).bid.own = some o) : o.serves ≠ i := by
  rintro rfl
  rcases finish_searched role idle with ⟨none, -⟩ | ⟨x, fresh, -, -, loaded, -⟩
  · rw [none] at own
    cases own
  · cases fresh.symm.trans own
    rw [empty] at loaded
    cases loaded

/-- A search that is not waited for ends the wait, or begins it anew (R84). -/
theorem finish_retry {s : State} (ended : s.bid.retry = none) :
    (finish s).bid.retry = none ∨ (finish s).bid.retry = some (s.now + 100000) := by
  let v := handRequest (planStreams s)
  have wait : v.bid.retry = none := by
    have same : (handRequest (planStreams s)).bid.retry = (planStreams s).bid.retry := by
      unfold handRequest
      split <;> rfl
    exact same.trans ((congrArg BidEngine.retry (planStreams_frame s .bid (by decide))).trans ended)
  have now : v.now = s.now :=
    (handRequest_frame (planStreams s) .now (by decide)).trans (planStreams_frame s .now (by decide))
  show (reconsider v).bid.retry = none ∨ (reconsider v).bid.retry = some (s.now + 100000)
  unfold reconsider
  split
  · split
    · unfold search
      split
      · rw [queueBid_bid]
        exact .inl rfl
      · right
        rw [← now]
        rfl
    · exact .inl wait
  · exact .inl rfl

/-- What the search for the head of a FEED station reads (R82, R83). -/
theorem findWindow_head_congr {s t : State} {i : Fin 4} (run : t.run = s.run) (store : t.store = s.store)
    (line : t.line = s.line) (track : t.track = s.track) (passedOver : t.bid.passedOver = s.bid.passedOver)
    (deferral : t.bid.deferral = s.bid.deferral)
    (position : t.feed.positions.get i = s.feed.positions.get i) : t.findWindow (.head i) = s.findWindow (.head i) := by
  unfold State.findWindow State.feedTl0 State.pieceDesc State.ownArticle State.nextTag State.ownerByte State.number State.feedRank
  dsimp only
  rw [run, store, line, track, passedOver, deferral, position]

/-! ## An emptied position (R108) -/

/-- UNLOADED of a position, with the tag of the bid that served it (R108). -/
def State.emptiedEvent (s : State) (i : Fin 4) (tag : Option Tag) : Event :=
  { kind := .unloaded, tag := tag, article := some (s.feed.positions.get i).article
    lot := some (s.feed.positions.get i).lot, a := some (i.val + 1) }

theorem unloadPosition_spec (i : Fin 4) (tag : Option Tag) (s : State) :
    (unloadPosition i tag s).feed = { s.feed with positions := s.feed.positions.set i .none }
      ∧ (unloadPosition i tag s).fifo = s.withEvent (s.emptiedEvent i tag)
      ∧ SameBut [.feed, .fifo] s (unloadPosition i tag s) :=
  ⟨rfl, rfl, unloadPosition_frame i tag s⟩

theorem unloadPosition_get (i : Fin 4) (tag : Option Tag) (s : State) :
    (unloadPosition i tag s).feed.positions.get i = Position.none := Quad.get_set_self _ _ _

theorem endWait_frame (i : Fin 4) (s : State) : SameBut [.bid] s (endWait i s) := .ite (setBid_frame _ _) (.refl _ s)

theorem endWait_own (i : Fin 4) (s : State) : (endWait i s).bid.own = s.bid.own := by
  unfold endWait
  split <;> rfl

/-! ## The rows of UNLOAD (R108, R179) -/

theorem positionNamed_ofNat (i : Fin 4) : positionNamed (BitVec.ofNat 8 (i.val + 1)).toNat = some i := by
  revert i
  decide

theorem unload_row {s : State} (i : Fin 4) (free : s.port.held = false) (role : s.role = .feed) (running : s.running) :
    exec (.unload (BitVec.ofNat 8 (i.val + 1))) s = .next (unloadEffect i s) := by
  have takes : s.takesUnload = true := by
    unfold State.takesUnload
    rw [role]
    have up : s.station ≠ .setup := running
    simpa using up
  show execUnload (BitVec.ofNat 8 (i.val + 1)) s = _
  unfold execUnload
  rw [transact_taken free, if_pos takes, positionNamed_ofNat]

theorem unload_loaded {s : State} {i : Fin 4} (loaded : (s.feed.positions.get i).state = .loaded) :
    unloadEffect i s = answer s .ok [] (finish (unloadPosition i none (endWait i s))) := by
  unfold unloadEffect
  rw [loaded]
  rfl

theorem unload_bidding {s : State} {i : Fin 4} (bidding : (s.feed.positions.get i).state = .bidding) :
    unloadEffect i s = answer s .ok [] (finish (unloadBidding i s)) := by
  unfold unloadEffect
  rw [bidding]
  rfl

/-- The instant of another event's end, read off (R110; log 46). -/
theorem sameInstant_iff {s : State} {i : Fin 4} {o : OwnBid} : s.sameInstant i o = true ↔
    s.feed.returned = some (i, s.now) ∧ o.state = .queued ∧ o.cancelling = false ∧ s.bidWaits := by
  unfold State.sameInstant
  rw [bidWaits_iff]
  cases s.link.waitingBid <;> cases s.bidSending <;> simp [and_assoc]

end Sys2Proof.Machine
end

section
/-! The obligation of UNLOAD (R95, R105, R108 to R110, R179). -/
namespace Sys2Proof.Machine

/-! ## What a recall leaves of the positions -/

/-- The positions that the end of an own bid leaves (R107, R109). -/
def State.released (s : State) (o : OwnBid) : Quad Position :=
  if (s.feed.positions.get o.serves).state = .bidding then
    s.feed.positions.set o.serves (if (s.feed.positions.get o.serves).unloading = true then Position.none
      else { s.feed.positions.get o.serves with state := .loaded })
  else s.feed.positions

theorem recallOwn_landing_positions {s : State} {o : OwnBid} (own : s.bid.own = some o)
    (landing : o.state = .settling ∨ o.state = .granted) (code : Nat) (a : Option Int) :
    (recallOwn code a s).feed.positions = s.released o := by
  obtain ⟨still, feed, -, -, -⟩ := recallLanding_spec s o own (landing_unfired landing)
  rw [recallOwn_landing own landing]
  show (endOwn (dropOwnRecord o.desc.tag (enqueue (.recall o.desc.tag) s))).feed.positions = _
  rw [endOwn_positions _ o still, feed]
  rfl

/-- A waiting BID is withdrawn at once (R95, R156). -/
theorem recallOwn_waiting {s : State} {o : OwnBid} (own : s.bid.own = some o) (queued : o.state = .queued)
    (live : o.cancelling = false) (waits : s.bidWaits) (code : Nat) (a : Option Int) :
    recallOwn code a s = endOwn (cancelBid (raise (recalledEvent o code a) s)) := by
  rw [bidWaits_iff] at waits
  unfold recallOwn
  rw [own]
  dsimp only
  rw [queued]
  simp [live, waits]

/-! ## The positions an UNLOAD finds -/

/-- What an emptied position leaves to the end of the step, whatever has been done to the own bid before (R108). -/
theorem unloaded_spec {s v : State} {i : Fin 4} (tag : Option Tag) :
    let t := answer s .ok [] (finish (unloadPosition i tag v))
    t.port.last = .ok ∧ t.feed.positions.get i = Position.none ∧ t.fifo = v.withEvent (v.emptiedEvent i tag)
      ∧ SameBut (.port :: .fifo :: settlingBlocks) v t := by
  have spec := unloadPosition_spec i tag v
  refine ⟨rfl, finish_emptied (unloadPosition_get i tag v), ?_, ?_⟩
  · show (finish (unloadPosition i tag v)).fifo = _
    rw [finish_fifo]
    exact spec.2.1
  · exact ((spec.2.2.widen (by decide)).trans ((finish_frame _).widen (by decide))).trans
      ((answer_frame _ _ _ _).widen (by decide))

theorem unloaded_serves {s v : State} {i : Fin 4} {tag : Option Tag} (role : v.role = .feed)
    (elsewhere : ∀ o, v.bid.own = some o → o.serves ≠ i) (o : OwnBid)
    (own : (answer s .ok [] (finish (unloadPosition i tag v))).bid.own = some o) : o.serves ≠ i := by
  have here : (finish (unloadPosition i tag v)).bid.own = some o := own
  cases idle : v.bid.own with
  | none => exact finish_serves_none (s := unloadPosition i tag v) role idle (unloadPosition_get i tag v) o here
  | some x =>
    have stands := finish_own (s := unloadPosition i tag v) idle
    obtain rfl : x = o := Option.some.inj (stands.symm.trans here)
    exact elsewhere x idle

/-- A LOADED position is emptied at once; a bid that serves another position stands (R108). -/
theorem unload_of_loaded {s : State} {i : Fin 4} (free : s.port.held = false) (role : s.role = .feed) (running : s.running)
    (loaded : (s.feed.positions.get i).state = .loaded) :
    ∃ t, exec (.unload (BitVec.ofNat 8 (i.val + 1))) s = .next t ∧ t.port.last = .ok ∧ t.feed.positions.get i = Position.none
      ∧ t.fifo = s.withEvent (s.emptiedEvent i none)
      ∧ (s.feed.head = some i → t.bid.retry = none ∨ t.bid.retry = some (s.now + 100000))
      ∧ ((∀ o, s.bid.own = some o → o.serves ≠ i) → ∀ o, t.bid.own = some o → o.serves ≠ i)
      ∧ SameBut (.port :: .fifo :: settlingBlocks) s t := by
  let v := endWait i s
  have waits : SameBut [.bid] s v := endWait_frame i s
  obtain ⟨last, empty, fifo, frame⟩ := unloaded_spec (s := s) (v := v) (i := i) none
  have feed : v.feed = s.feed := waits .feed (by decide)
  refine ⟨_, by rw [unload_row i free role running, unload_loaded loaded], last, empty, ?_, fun head => ?_, fun elsewhere => ?_,
    (waits.widen (by decide)).trans frame⟩
  · rw [fifo, withEvent_congr (waits .fifo (by decide)) (waits .store (by decide))]
    unfold State.emptiedEvent
    rw [feed]
  · have ended : v.bid.retry = none := by
      show (endWait i s).bid.retry = none
      unfold endWait
      rw [if_pos head]
      rfl
    have retry := finish_retry (s := unloadPosition i none v) ended
    rwa [show (unloadPosition i none v).now = s.now from waits .now (by decide)] at retry
  · refine unloaded_serves (v := v) ?_ (fun o own => elsewhere o ((endWait_own i s) ▸ own))
    rw [show v.role = s.role from congrArg (fun f => f.station.role) (waits .run (by decide))]
    exact role

/-- The head that an UNLOAD makes the next one is searched for (R78, R105). -/
theorem unload_searches :
    ∀ (s : State) (i j : Fin 4) (w : Count), s.port.held = false → s.role = .feed → s.station = .active →
    s.bid.hold = HoldSet.empty → s.bid.own = none → s.feed.ready = true →
    s.feed.head = some i → (s.feed.positions.get i).state = .loaded →
    (s.setPosition i .none).feed.head = some j → j ≠ i → (s.feed.positions.get j).state = .loaded →
    (s.setPosition i .none).findWindow (.head j) = some w →
    ∃ t o, exec (.unload (BitVec.ofNat 8 (i.val + 1))) s = .next t
      ∧ t.bid.own = some o ∧ o.state = .queued ∧ o.serves = j ∧ o.window = w ∧ t.bid.retry = none
      ∧ (t.feed.positions.get j).state = .bidding := by
  intro s i j w free role active held idle ready head loaded next other loaded' found
  let v := endWait i s
  let x := unloadPosition i none v
  have waits : SameBut [.bid] s v := endWait_frame i s
  have bid : x.bid = { s.bid with retry := none } := by
    show (endWait i s).bid = _
    unfold endWait
    rw [if_pos head]
    rfl
  have feed : x.feed = (s.setPosition i .none).feed := by
    show ({ v.feed with positions := v.feed.positions.set i .none } : FeedSequencer) = _
    rw [waits .feed (by decide)]
    rfl
  have eligible : x.eligible = some (.head j) := by
    refine (eligible_head_iff ?_).mpr ⟨?_, ?_, ?_, ?_, ?_, ?_⟩
    · rw [show x.role = s.role from congrArg (fun f => f.station.role) (waits .run (by decide))]
      exact role
    · rw [show x.station = s.station from waits .station (by decide)]
      exact active
    · rw [bid, held]
      rfl
    · rw [bid]
      exact idle
    · rw [feed]
      exact next
    · rw [feed]
      show ((s.feed.positions.set i .none).get j).state = _
      rw [Quad.get_set_of_ne _ other]
      exact loaded'
    · rw [feed]
      exact ready
  have window : x.findWindow (.head j) = some w := by
    rw [findWindow_head_congr (s := s.setPosition i .none) (t := x) (waits .run (by decide)) (waits .store (by decide))
      (waits .line (by decide)) (waits .track (by decide)) (by rw [bid]; rfl) (by rw [bid]; rfl) (by rw [feed])]
    exact found
  have queued := finish_head ((congrArg (fun f => f.station.role) (waits .run (by decide))).trans role) eligible
    (by rw [bid]) window
  exact ⟨answer s .ok [] (finish x), _,
    by rw [unload_row i free role (by rw [State.running, active]; decide), unload_loaded loaded], queued.own, rfl, rfl,
    rfl, queued.retry, queued.position⟩

/-- The BIDDING head of a SETTLING or GRANTED bid is emptied after its recall (R108). -/
theorem unload_recalls_landing :
    ∀ (s : State) (i : Fin 4) (o : OwnBid), s.port.held = false → s.role = .feed → s.running →
    (s.feed.positions.get i).state = .bidding → s.bid.own = some o → o.state = .settling ∨ o.state = .granted →
    o.serves = i →
    ∃ t, exec (.unload (BitVec.ofNat 8 (i.val + 1))) s = .next t
      ∧ t.port.last = .ok ∧ t.feed.positions.get i = Position.none
      ∧ t.record o.desc.tag = s.withoutOwn o.desc.tag
      ∧ t.bid.own ≠ some o
      ∧ (s.roomFirst → (s.feed.positions.get i).unloading = false →
          Entry.fresh (.recall o.desc.tag) ∈ t.link.outbox
            ∧ t.fifo = s.withEvents [o.recalled 10, s.unloaded o])
      ∧ SameBut (.port :: listBlocks) s t := by
  rintro s i o free role running bidding own landing rfl
  let v := recallOwn 10 none s
  have recalled : Recalled s v o 10 none := recallOwn_recalled own landing 10 none
  have late : s.sameInstant o.serves o = false := by
    rw [← Bool.not_eq_true, sameInstant_iff]
    exact fun all => landing_unqueued landing all.2.1
  have effect : unloadBidding o.serves s = unloadPosition o.serves (some o.desc.tag) v := by
    unfold unloadBidding
    rw [own]
    dsimp only
    rw [late, if_neg Bool.false_ne_true, if_neg (landing_unqueued landing)]
  obtain ⟨last, empty, fifo, frame⟩ := unloaded_spec (s := s) (v := v) (i := o.serves) (some o.desc.tag)
  refine ⟨_, by rw [unload_row o.serves free role running, unload_bidding bidding, effect], last, empty, ?_, ?_,
    fun room unmarked => ⟨?_, ?_⟩, ?_⟩
  · show (finish (unloadPosition o.serves (some o.desc.tag) v)).record o.desc.tag = _
    rw [finish_record]
    exact recalled.record
  · exact finish_own_ne (s := unloadPosition o.serves (some o.desc.tag) v) recalled.own (landing_unqueued landing)
  · exact mem_finish_outbox (s := unloadPosition o.serves (some o.desc.tag) v) (recalled.outbox room)
  · have positions : v.feed.positions.get o.serves = { s.feed.positions.get o.serves with state := .loaded } := by
      rw [show v.feed.positions = s.released o from recallOwn_landing_positions own landing 10 none]
      unfold State.released
      rw [if_pos bidding, if_neg (by rw [unmarked]; nofun), Quad.get_set_self]
    have event : v.emptiedEvent o.serves (some o.desc.tag) = s.unloaded o := by
      unfold State.emptiedEvent State.unloaded
      rw [positions]
    rw [fifo, event]
    show v.fifo.enter v.store.station.mode _ = _
    rw [recalled.fifo room unmarked, recalled.frame .store (by decide)]
    rfl
  · exact (recalled.frame.widen (by decide)).trans (frame.widen (by decide))

/-- The head of a waiting BID is withdrawn and emptied at once (R95, R109). -/
theorem unload_withdraws :
    ∀ (s : State) (i : Fin 4) (o : OwnBid), s.port.held = false → s.role = .feed → s.running →
    (s.feed.positions.get i).state = .bidding → s.bid.own = some o → o.state = .queued → o.serves = i →
    o.cancelling = false → s.bidWaits → s.feed.returned ≠ some (i, s.now) →
    ∃ t l, exec (.unload (BitVec.ofNat 8 (i.val + 1))) s = .next t
      ∧ t.port.last = .ok ∧ t.feed.positions.get i = Position.none
      ∧ (∀ o', t.bid.own = some o' → o'.serves ≠ i)
      ∧ t.link.outbox = s.link.outbox.filter (fun e => e.msg.kind != .bid) ++ l ∧ freshBids l
      ∧ t.fifo = s.withEvents [o.recalled 10, s.unloaded o]
      ∧ SameBut ([.port, .fifo] ++ settlingBlocks) s t := by
  rintro s i o free role running bidding own queued rfl live waits other
  let p : Position := { s.feed.positions.get o.serves with unloading := true }
  let v := cancelBid (raise (recalledEvent o 10 none) (s.setPosition o.serves p))
  have late : s.sameInstant o.serves o = false := by
    rw [← Bool.not_eq_true, sameInstant_iff]
    exact fun all => other all.1
  have effect : unloadBidding o.serves s = endOwn v := by
    unfold unloadBidding
    rw [own]
    dsimp only
    rw [late, if_neg Bool.false_ne_true, if_pos queued]
    exact recallOwn_waiting (s := s.setPosition o.serves p) own queued live waits 10 none
  have here : v.feed.positions.get o.serves = p := Quad.get_set_self _ _ _
  have frame : SameBut [.bid, .feed, .link, .fifo] s (endOwn v) :=
    (((setFeed_frame s _).widen (by decide)).trans (((raise_frame _ _).widen (by decide)).trans
      ((setLink_frame _ _).widen (by decide)))).trans ((endOwn_frame v).widen (by decide))
  have empty : (endOwn v).feed.positions.get o.serves = Position.none := by
    rw [endOwn_positions v o own, here, if_pos bidding, if_pos rfl, Quad.get_set_self]
  have role' : (endOwn v).role = .feed := by
    rw [show (endOwn v).role = s.role from congrArg (fun f => f.station.role) (frame .run (by decide))]
    exact role
  have unloaded : v.unloaded o = s.unloaded o := by
    unfold State.unloaded
    rw [here]
  obtain ⟨l, more, fresh⟩ := (finish_keeps (endOwn v)).outbox
  refine ⟨answer s .ok [] (finish (endOwn v)), l, by rw [unload_row o.serves free role running, unload_bidding bidding, effect],
    rfl, finish_emptied empty, finish_serves_none role' (endOwn_own v) empty, ?_, fresh, ?_, ?_⟩
  · show (finish (endOwn v)).link.outbox = _
    rw [more, endOwn_frame v .link (by decide)]
    rfl
  · show (finish (endOwn v)).fifo = _
    rw [finish_fifo, endOwn_events (s := v) own, here, if_pos ⟨bidding, rfl⟩, unloaded]
    rfl
  · exact ((frame.widen (by decide)).trans ((finish_frame _).widen (by decide))).trans
      ((answer_frame _ _ _ _).widen (by decide))

/-- In the instant at which another event ended the head's bid, the new bid is taken back without event (R110; log 46). -/
theorem unload_takes_back :
    ∀ (s : State) (i : Fin 4) (o : OwnBid), s.port.held = false → s.role = .feed → s.running →
    (s.feed.positions.get i).state = .bidding → s.bid.own = some o → o.state = .queued → o.serves = i →
    o.cancelling = false → s.bidWaits → s.feed.returned = some (i, s.now) →
    ∃ t l, exec (.unload (BitVec.ofNat 8 (i.val + 1))) s = .next t
      ∧ t.port.last = .ok ∧ t.feed.positions.get i = Position.none
      ∧ (∀ o', t.bid.own = some o' → o'.serves ≠ i)
      ∧ t.link.outbox = s.link.outbox.filter (fun e => e.msg.kind != .bid) ++ l ∧ freshBids l
      ∧ t.fifo = s.withEvent { s.unloaded o with tag := none }
      ∧ SameBut ([.port, .fifo] ++ settlingBlocks) s t := by
  rintro s i o free role running bidding own queued rfl live waits instant
  let v := takeBackBid s
  have effect : unloadBidding o.serves s = unloadPosition o.serves none v := by
    unfold unloadBidding
    rw [own]
    exact if_pos (sameInstant_iff.mpr ⟨instant, queued, live, waits⟩)
  have frame : SameBut [.bid, .link] s v := ((setBid_frame s _).widen (by decide)).trans ((setLink_frame _ _).widen (by decide))
  obtain ⟨last, empty, fifo, moved⟩ := unloaded_spec (s := s) (v := v) (i := o.serves) none
  obtain ⟨l, more, fresh⟩ := (finish_keeps (unloadPosition o.serves none v)).outbox
  exact ⟨_, l, by rw [unload_row o.serves free role running, unload_bidding bidding, effect], last, empty,
    unloaded_serves (v := v) role (fun x own => by cases own), more, fresh, fifo,
    (frame.widen (by decide)).trans (moved.widen (by decide))⟩

/-- A bid ended by LATE and an UNLOAD behind it in the same instant (R93, R110; log 46). -/
theorem unload_after_late :
    ∀ (s : State) (i : Fin 4) (o : OwnBid), s.port.held = false → s.role = .feed → s.running →
    s.bid.own = some o → o.state = .settling → o.desc.kind ≠ .spacer → o.serves = i →
    (s.feed.positions.get i).state = .bidding → (s.feed.positions.get i).unloading = false →
    signedDiff o.landing s.line.count < s.line.lead → s.roomFirst →
    (∀ e ∈ s.link.outbox, e.sending = true → e.msg.kind ≠ .bid) →
    ∃ t u, exec .settleTimerExpiry s = .next t ∧ exec (.unload (BitVec.ofNat 8 (i.val + 1))) t = .next u
      ∧ u.port.last = .ok ∧ u.feed.positions.get i = Position.none
      ∧ (∀ o', u.bid.own = some o' → o'.serves ≠ i)
      ∧ u.fifo = s.withEvents [o.recalled 6, { s.unloaded o with tag := none }] := by
  rintro s i o free role running own settling piece rfl bidding unmarked near room still
  let u := advanceTo (o.accepted + s.settleTime) s
  let w := recallOwn 6 none u
  let t := finish w
  have moved : SameBut [.now, .line] s u := advanceTo_frame _ s
  have own' : u.bid.own = some o := by simp [u, own]
  have link : u.link = s.link := moved .link (by decide)
  have feed : u.feed = s.feed := moved .feed (by decide)
  have room' : u.roomFirst := (roomFirst_congr link).mpr room
  have row : exec .settleTimerExpiry s = .next t := by
    have late : grant o u = w := by
      unfold grant State.tooClose
      rw [if_neg piece]
      simp [u, w, near]
    rw [show t = finish (grant o u) from congrArg finish late.symm]
    simp [exec, execSettleTimerExpiry, own, settling, u]
  have recalled : Recalled u w o 6 none := recallOwn_recalled own' (.inl settling) 6 none
  have frame : SameBut (.now :: .line :: listBlocks) s t :=
    ((moved.widen (by decide)).trans (recalled.frame.widen (by decide))).trans ((finish_frame w).widen (by decide))
  have role' : w.role = .feed := by
    rw [show w.role = s.role from congrArg (fun f => f.station.role)
      ((recalled.frame .run (by decide)).trans (moved .run (by decide)))]
    exact role
  have here : w.feed.positions.get o.serves = { s.feed.positions.get o.serves with state := .loaded } := by
    rw [show w.feed.positions = u.released o from recallOwn_landing_positions own' (.inl settling) 6 none]
    unfold State.released
    rw [feed, if_pos bidding, if_neg (by rw [unmarked]; nofun), Quad.get_set_self]
  have told : t.fifo = s.withEvent (o.recalled 6) := by
    rw [finish_fifo, recalled.fifo room' (by rwa [feed])]
    exact withEvent_congr (moved .fifo (by decide)) (moved .store (by decide)) _
  have freeT : t.port.held = false := by
    rw [frame .port (by decide)]
    exact free
  have roleT : t.role = .feed := by
    rw [show t.role = s.role from congrArg (fun f => f.station.role) (frame .run (by decide))]
    exact role
  have runningT : t.running := by
    unfold State.running
    rw [frame .station (by decide)]
    exact running
  have event : ∀ p : Position, p.article = (s.feed.positions.get o.serves).article →
      p.lot = (s.feed.positions.get o.serves).lot → t.feed.positions.get o.serves = p →
      t.withEvent (t.emptiedEvent o.serves none) = s.withEvents [o.recalled 6, { s.unloaded o with tag := none }] := by
    intro p article lot held
    unfold State.emptiedEvent
    rw [held, article, lot]
    show t.fifo.enter t.store.station.mode _ = _
    rw [told, frame .store (by decide)]
    rfl
  have loadedCase : (∀ x, t.bid.own = some x → x.serves ≠ o.serves) →
      t.feed.positions.get o.serves = w.feed.positions.get o.serves →
      ∃ t' u', exec .settleTimerExpiry s = .next t' ∧ exec (.unload (BitVec.ofNat 8 (o.serves.val + 1))) t' = .next u'
        ∧ u'.port.last = .ok ∧ u'.feed.positions.get o.serves = Position.none
        ∧ (∀ o', u'.bid.own = some o' → o'.serves ≠ o.serves)
        ∧ u'.fifo = s.withEvents [o.recalled 6, { s.unloaded o with tag := none }] := by
    intro elsewhere stands
    rw [here] at stands
    obtain ⟨u', effect, last, empty, fifo, -, serves, -⟩ :=
      unload_of_loaded (i := o.serves) freeT roleT runningT (by rw [stands])
    exact ⟨t, u', row, effect, last, empty, serves elsewhere,
      fifo.trans (event { s.feed.positions.get o.serves with state := .loaded } rfl rfl stands)⟩
  rcases finish_searched role' recalled.own with ⟨none, same⟩ | ⟨x, fresh, queued, live, -, same⟩
  · exact loadedCase (fun x live => by rw [show t.bid.own = _ from none] at live; cases live) (by rw [show t.feed = _ from same])
  · by_cases serves : x.serves = o.serves
    · have held : t.feed.positions.get o.serves = { w.feed.positions.get o.serves with state := .bidding } := by
        rw [show t.feed = _ from same]
        show (w.feed.positions.set x.serves { w.feed.positions.get x.serves with state := .bidding }).get o.serves = _
        rw [serves, Quad.get_set_self]
      have instant : t.feed.returned = some (o.serves, t.now) := by
        rw [finish_feed_returned, recalled.returned (by rwa [feed]) (by rwa [feed]), finish_now, recalled.frame .now (by decide)]
      have waits : t.bidWaits := by
        obtain ⟨l, more, freshL⟩ := (finish_keeps w).outbox
        have queue : w.link.outbox = s.link.outbox ++ [Entry.fresh (.recall o.desc.tag)] := by
          rw [(recallOwn_landing_parts own' (.inl settling) 6 none).1 room', link]
        refine .inr (fun e mem sends => ?_)
        rw [more, queue] at mem
        rcases List.mem_append.mp mem with mem | mem
        · rcases List.mem_append.mp mem with mem | mem
          · exact still e mem sends
          · rw [List.mem_singleton.mp mem] at sends
            cases sends
        · obtain ⟨d, tl, rfl⟩ := freshL e mem
          cases sends
      obtain ⟨u', l, effect, last, empty, away, -, -, fifo, -⟩ := unload_takes_back t o.serves x freeT roleT runningT
        (by rw [held]) fresh queued serves live waits instant
      refine ⟨t, u', row, effect, last, empty, away, fifo.trans ?_⟩
      rw [← event { s.feed.positions.get o.serves with state := .bidding } rfl rfl (held.trans (by rw [here]))]
      unfold State.unloaded State.emptiedEvent
      rw [serves]
    · refine loadedCase (fun y own => ?_) ?_
      · cases fresh.symm.trans own
        exact serves
      · rw [show t.feed = _ from same]
        exact Quad.get_set_of_ne _ (fun eq => serves eq.symm) _

/-- The head of a BID in flight, or of one that is withdrawn already, is marked (R95, R109). -/
theorem unload_marks :
    ∀ (s : State) (i : Fin 4) (o : OwnBid), s.port.held = false → s.role = .feed → s.running →
    (s.feed.positions.get i).state = .bidding → s.bid.own = some o → o.state = .queued → o.serves = i →
    o.cancelling = true ∨ ¬ s.bidWaits →
    ∃ t, exec (.unload (BitVec.ofNat 8 (i.val + 1))) s = .next t
      ∧ t.port.last = .ok ∧ t.bid.own = some { o with cancelling := true }
      ∧ t.feed.positions = s.feed.positions.set i { s.feed.positions.get i with unloading := true }
      ∧ t.link = (if o.cancelling = true then s.link else { s.link with
          outbox := s.link.outbox.map (fun e => if e.msg.kind = .bid then { e with cancelling := true } else e) })
      ∧ t.fifo = (if o.cancelling = true then s.fifo else s.withEvent (o.recalled 10))
      ∧ SameBut ([.port, .fifo] ++ settlingBlocks) s t := by
  rintro s i o free role running bidding own queued rfl runs
  let p : Position := { s.feed.positions.get o.serves with unloading := true }
  let v := s.setPosition o.serves p
  have late : s.sameInstant o.serves o = false := by
    rw [← Bool.not_eq_true, sameInstant_iff]
    rintro ⟨-, -, live, waits⟩
    rcases runs with cancels | flies
    · rw [live] at cancels
      cases cancels
    · exact flies waits
  have effect : unloadBidding o.serves s = recallOwn 10 none v := by
    unfold unloadBidding
    rw [own]
    dsimp only
    rw [late, if_neg Bool.false_ne_true, if_pos queued]
  let w := recallOwn 10 none v
  have row : exec (.unload (BitVec.ofNat 8 (o.serves.val + 1))) s = .next (answer s .ok [] (finish w)) := by
    rw [unload_row o.serves free role running, unload_bidding bidding, effect]
  have left : w.bid.own = some { o with cancelling := true } ∧ w.feed = v.feed
      ∧ w.link = (if o.cancelling = true then s.link else { s.link with
          outbox := s.link.outbox.map (fun e => if e.msg.kind = .bid then { e with cancelling := true } else e) })
      ∧ w.fifo = (if o.cancelling = true then s.fifo else s.withEvent (o.recalled 10))
      ∧ SameBut [.bid, .feed, .link, .fifo] s w := by
    have marked : SameBut [.bid, .feed, .link, .fifo] s v := (setFeed_frame s _).widen (by decide)
    by_cases cancels : o.cancelling = true
    · have stays : w = v := recallOwn_stands (fun x live => by
        cases own.symm.trans live
        exact .inr ⟨queued, cancels⟩) 10 none
      rw [stays, if_pos cancels, if_pos cancels]
      refine ⟨own.trans ?_, rfl, rfl, rfl, marked⟩
      rw [← cancels]
    · have live : o.cancelling = false := by simpa using cancels
      have flies : w = markCancelling o (raise (recalledEvent o 10 none) v) :=
        recallOwn_sending (s := v) own queued live (runs.resolve_left cancels) 10 none
      rw [flies, if_neg cancels, if_neg cancels]
      exact ⟨rfl, rfl, rfl, rfl, (marked.trans ((raise_frame _ _).widen (by decide))).trans
        (((setLink_frame _ _).widen (by decide)).trans ((setBid_frame _ _).widen (by decide)))⟩
  obtain ⟨held, feed, link, fifo, frame⟩ := left
  obtain ⟨stands, -, -, settled⟩ := finish_idle w (fun all => by
    rw [held] at all
    cases all.2.2)
  refine ⟨_, row, rfl, stands.trans held, ?_, (settled .link (by decide)).trans link, ?_, ?_⟩
  · show (finish w).feed.positions = _
    rw [settled .feed (by decide), feed]
    rfl
  · exact (settled .fifo (by decide)).trans fifo
  · exact ((frame.widen (by decide)).trans (settled.widen (by decide))).trans ((answer_frame _ _ _ _).widen (by decide))

/-- Settles O18: each state of the position and of the own bid has its rule above. -/
theorem unloadFollowsPosition : Obligations.UnloadFollowsPosition := by
  refine ⟨fun s i free role running loaded => ?_, unload_searches, unload_recalls_landing, unload_withdraws, unload_takes_back,
    unload_after_late, unload_marks, fun s n r free refused => ?_⟩
  · obtain ⟨t, row, last, empty, fifo, retry, -, frame⟩ := unload_of_loaded (i := i) free role running loaded
    exact ⟨t, row, last, empty, fifo, retry, frame⟩
  · have takes : s.takesUnload = true ↔ s.role = .feed ∧ s.running := by
      unfold State.takesUnload State.running
      simp
    suffices refuses : exec (.unload n) s = .next (refuse r s) from ⟨_, refuses, rfl, refuse_frame r s⟩
    show execUnload n s = _
    unfold execUnload
    rw [transact_taken free]
    rcases refused with ⟨other, rfl⟩ | ⟨role, running, range, rfl⟩ | ⟨i, role, running, named, refused⟩
    · rw [if_neg (fun ok => other (takes.mp ok))]
    · have unnamed : positionNamed n.toNat = none := by
        unfold positionNamed
        split <;> first | omega | rfl
      rw [if_pos (takes.mpr ⟨role, running⟩), unnamed]
    · have found : ∀ j : Fin 4, positionNamed (j.val + 1) = some j := by decide
      rw [if_pos (takes.mpr ⟨role, running⟩), named, found]
      show Host.Outcome.next (unloadEffect i s) = _
      unfold unloadEffect
      rcases refused with ⟨state, rfl⟩ | ⟨state, rfl⟩
      · rw [state]
      · rw [state]

end Sys2Proof.Machine
end

section
/-! Leading edges taken and judged: the eyes, the sighting that absorbs an edge, the record that an edge matches (R58, R61 to
R63, R125). -/
namespace Sys2Proof.Machine

/-! ## The edges taken (R58, R125) -/

theorem takeLeading_frame (k : Fin 4) (n : Count) (s : State) : SameBut [.eye, .throat] s (takeLeading k n s) :=
  (setLaneEye_frame s k _).then (setBase_frame k _ _) (by decide) (by decide)

theorem takeLeading_eye (k : Fin 4) (n : Count) (s : State) : (takeLeading k n s).eye =
    { s.eye with eyes := s.eye.eyes.set k { state := .blocked, edge := none } } := by
  unfold takeLeading
  rw [setBase_frame _ _ _ .eye (by decide)]
  rfl

theorem takeLeading_throat (k : Fin 4) (n : Count) (s : State) : (takeLeading k n s).throat =
    if s.role = .throat then { s.throat with bases := s.throat.bases.set k (some n) } else s.throat := setBase_throat k (some n) _

/-- Edges taken one after the other. -/
def takeAll (l : List (Fin 4 × Count)) (s : State) : State :=
  l.foldl (fun t (kn : Fin 4 × Count) => takeLeading kn.1 kn.2 t) s

theorem takeAll_frame (l : List (Fin 4 × Count)) (s : State) : SameBut [.eye, .throat] s (takeAll l s) :=
  .foldl (fun t (kn : Fin 4 × Count) => takeLeading kn.1 kn.2 t) (fun t kn => takeLeading_frame kn.1 kn.2 t) l s

theorem takeAll_sightings : ∀ (l : List (Fin 4 × Count)) (s : State), (takeAll l s).eye.sightings = s.eye.sightings
  | [], _ => rfl
  | (k, n) :: l, s => (takeAll_sightings l (takeLeading k n s)).trans (by rw [takeLeading_eye])

theorem takeAll_throat : ∀ (l : List (Fin 4 × Count)) (s : State),
    (takeAll l s).throat.jammed = s.throat.jammed ∧ (takeAll l s).throat.relay = s.throat.relay
  | [], _ => ⟨rfl, rfl⟩
  | (k, n) :: l, s => by
    obtain ⟨jammed, relay⟩ := takeAll_throat l (takeLeading k n s)
    rw [takeLeading_throat] at jammed relay
    refine ⟨jammed.trans ?_, relay.trans ?_⟩ <;> split <;> rfl

/-- An eye whose edge is not taken stands, and so does its lane's base. -/
theorem takeAll_other (k : Fin 4) : ∀ (l : List (Fin 4 × Count)) (s : State), k ∉ l.map Prod.fst →
    (takeAll l s).eye.eyes.get k = s.eye.eyes.get k ∧ (takeAll l s).throat.bases.get k = s.throat.bases.get k
  | [], _, _ => ⟨rfl, rfl⟩
  | (j, n) :: l, s, apart => by
    rw [List.map_cons, List.mem_cons, not_or] at apart
    obtain ⟨eye, base⟩ := takeAll_other k l (takeLeading j n s) apart.2
    refine ⟨eye.trans ?_, base.trans ?_⟩
    · rw [takeLeading_eye]
      exact Quad.get_set_of_ne _ apart.1 _
    · rw [takeLeading_throat]
      split
      · exact Quad.get_set_of_ne _ apart.1 _
      · rfl

/-- An eye whose edge is taken is BLOCKED, and its lane has the edge's count as base at a THROAT station (R58, R125). -/
theorem takeAll_taken {k : Fin 4} {n : Count} {l : List (Fin 4 × Count)} (nodup : (l.map Prod.fst).Nodup) (mem : (k, n) ∈ l)
    (s : State) : (takeAll l s).eye.eyes.get k = { state := .blocked, edge := none }
      ∧ (takeAll l s).throat.bases.get k = (if s.role = .throat then some n else s.throat.bases.get k) := by
  induction l generalizing s with
  | nil => cases mem
  | cons jm l ih =>
    obtain ⟨j, m⟩ := jm
    rw [List.map_cons, List.nodup_cons] at nodup
    have next : takeAll ((j, m) :: l) s = takeAll l (takeLeading j m s) := rfl
    rw [next]
    rcases List.mem_cons.mp mem with same | later
    · obtain ⟨rfl, rfl⟩ := Prod.mk.inj same
      obtain ⟨eye, base⟩ := takeAll_other k l (takeLeading k n s) nodup.1
      rw [eye, base, takeLeading_eye, takeLeading_throat]
      refine ⟨Quad.get_set_self _ _ _, ?_⟩
      split
      · exact Quad.get_set_self _ _ _
      · rfl
    · have apart : k ≠ j := by
        rintro rfl
        exact nodup.1 (List.mem_map.mpr ⟨(k, n), later, rfl⟩)
      obtain ⟨eye, base⟩ := ih nodup.2 later (takeLeading j m s)
      have role : (takeLeading j m s).role = s.role :=
        congrArg (fun f => f.station.role) (takeLeading_frame j m s .run (by decide))
      refine ⟨eye, ?_⟩
      rw [base, role, takeLeading_throat]
      by_cases throat : s.role = .throat
      · rw [if_pos throat, if_pos throat]
      · rw [if_neg throat, if_neg throat, if_neg throat]

/-- No lane has two edges due at one advance (R58). -/
theorem leadingDue_nodup (s : State) : (s.leadingDue.map Prod.fst).Nodup := by
  have lanes : ∀ l : List (Fin 4), (l.filterMap (fun k => (s.edgeDue k .clear).map (fun c => (k, c)))).map Prod.fst
      = l.filter (fun k => (s.edgeDue k .clear).isSome) := by
    intro l
    induction l with
    | nil => rfl
    | cons k l ih => cases due : s.edgeDue k .clear <;> simp [due, ih]
  unfold State.leadingDue
  rw [lanes]
  exact List.Nodup.filter _ (by decide)

/-! ## The sighting that absorbs an edge (R62) -/

theorem absorbs_congr {s u : State} (track : u.track = s.track) (k : Fin 4) (n : Count) : u.absorbs k n = s.absorbs k n := by
  funext g
  unfold State.absorbs State.record
  rw [track]

theorem absorber_congr {s u : State} (track : u.track = s.track) (sightings : u.eye.sightings = s.eye.sightings) (k : Fin 4)
    (n : Count) : u.absorber k n = s.absorber k n := by
  have nearer : u.nearerSighting n = s.nearerSighting n := by
    funext a b
    unfold State.nearerSighting State.placeOf
    rw [track]
  unfold State.absorber
  rw [absorbs_congr track, sightings, nearer]

theorem absorbs_iff (s : State) (k : Fin 4) (n : Count) (g : Sighting) : s.absorbs k n g = true ↔
    ∃ r, s.record g.tag = some r ∧ hasLane r.desc.lanes k = true ∧ 0 ≤ signedDiff g.limit n := by
  unfold State.absorbs atLeast
  cases held : s.record g.tag with
  | none => simp
  | some r => simp

theorem absorber_none_iff (s : State) (k : Fin 4) (n : Count) :
    s.absorber k n = none ↔ ∀ g ∈ s.eye.sightings, s.absorbs k n g = false := by
  have empty : s.absorber k n = none ↔ s.eye.sightings.filter (s.absorbs k n) = [] := by
    unfold State.absorber
    split
    · rename_i none
      simp [none]
    · rename_i some
      simp [some]
  rw [empty, List.filter_eq_nil_iff]
  simp

/-- The sighting nearer in count, and of two equally near that of the earlier record (R62). -/
def State.asNear (s : State) (n : Count) (a b : Sighting) : Prop :=
  apart a.first n < apart b.first n ∨ (apart a.first n = apart b.first n ∧ s.placeOf a.tag ≤ s.placeOf b.tag)

theorem nearerSighting_spec (s : State) (n : Count) (a b : Sighting) :
    (s.nearerSighting n a b = a ∨ s.nearerSighting n a b = b)
      ∧ s.asNear n (s.nearerSighting n a b) a ∧ s.asNear n (s.nearerSighting n a b) b := by
  unfold State.nearerSighting State.asNear
  split
  · exact ⟨.inr rfl, by omega, by omega⟩
  · exact ⟨.inl rfl, by omega, by omega⟩

theorem asNear_trans {s : State} {n : Count} {a b c : Sighting} (h : s.asNear n a b) (k : s.asNear n b c) : s.asNear n a c := by
  unfold State.asNear at h k ⊢
  omega

/-- The choice among several sightings is one of them, and as near as each (R62). -/
theorem nearest_spec (s : State) (n : Count) : ∀ (l : List Sighting) (g : Sighting),
    l.foldl (s.nearerSighting n) g ∈ g :: l ∧ ∀ x ∈ g :: l, s.asNear n (l.foldl (s.nearerSighting n) g) x
  | [], g => ⟨List.mem_singleton_self g, fun x mem => by
      rw [List.mem_singleton.mp mem]
      exact .inr ⟨rfl, le_rfl⟩⟩
  | b :: l, g => by
    obtain ⟨choice, nearG, nearB⟩ := nearerSighting_spec s n g b
    obtain ⟨mem, near⟩ := nearest_spec s n l (s.nearerSighting n g b)
    rw [List.foldl_cons]
    have head := near _ (List.mem_cons_self ..)
    refine ⟨?_, fun x here => ?_⟩
    · rcases List.mem_cons.mp mem with same | later
      · rw [same]
        rcases choice with choice | choice <;> rw [choice] <;> simp
      · exact List.mem_cons_of_mem _ (List.mem_cons_of_mem _ later)
    · rcases List.mem_cons.mp here with rfl | here
      · exact asNear_trans head nearG
      · rcases List.mem_cons.mp here with rfl | here
        · exact asNear_trans head nearB
        · exact near x (List.mem_cons_of_mem _ here)

theorem absorber_some {s : State} {k : Fin 4} {n : Count} {g : Sighting} (found : s.absorber k n = some g) :
    g ∈ s.eye.sightings ∧ s.absorbs k n g = true ∧ ∀ x ∈ s.eye.sightings, s.absorbs k n x = true → s.asNear n g x := by
  unfold State.absorber at found
  split at found
  · cases found
  · rename_i h l filtered
    cases found
    obtain ⟨mem, near⟩ := nearest_spec s n l h
    rw [← filtered] at mem near
    obtain ⟨here, absorbs⟩ := List.mem_filter.mp mem
    exact ⟨here, absorbs, fun x other can => near x (List.mem_filter.mpr ⟨other, can⟩)⟩

/-! ## The record that an edge matches (R63) -/

theorem bestCandidate_congr {s u : State} (track : u.track = s.track) (run : u.run = s.run) (k : Fin 4) (n : Count) :
    u.bestCandidate k n = s.bestCandidate k n := by
  have arrival : u.arrival = s.arrival := by
    funext r
    unfold State.arrival
    rw [run]
  have candidate : u.candidate k n = s.candidate k n := by
    funext r
    unfold State.candidate
    rw [arrival, run]
  unfold State.bestCandidate
  rw [track, candidate, arrival]

theorem candidate_iff (s : State) (k : Fin 4) (n : Count) (r : Record) : s.candidate k n r = true ↔
    (r.state = .bid ∨ r.state = .seen) ∧ hasLane r.desc.lanes k = true ∧ r.passed = false
      ∧ (apart n (s.arrival r) : Int) ≤ s.run.tolerance := by
  unfold State.candidate
  simp [and_assoc]

theorem bestCandidate_none_iff (s : State) (k : Fin 4) (n : Count) :
    s.bestCandidate k n = none ↔ ∀ r ∈ s.track.records, s.candidate k n r = false := by
  have empty : s.bestCandidate k n = none ↔ s.track.records.filter (s.candidate k n) = [] := by
    unfold State.bestCandidate
    split
    · rename_i none
      simp [none]
    · rename_i some
      simp [some]
  rw [empty, List.filter_eq_nil_iff]
  simp

/-- The first of the smallest values of a list stands before no smaller one and behind larger ones alone. -/
theorem foldl_first_min {α : Type} (f : α → Nat) : ∀ (l : List α) (a : α), ∃ before after,
    a :: l = before ++ l.foldl (fun a b => if f b < f a then b else a) a :: after
      ∧ (∀ x ∈ before, f (l.foldl (fun a b => if f b < f a then b else a) a) < f x)
      ∧ ∀ x ∈ after, f (l.foldl (fun a b => if f b < f a then b else a) a) ≤ f x
  | [], a => ⟨[], [], rfl, by simp, by simp⟩
  | b :: l, a => by
    rw [List.foldl_cons]
    by_cases nearer : f b < f a
    · rw [if_pos nearer]
      obtain ⟨before, after, split, least, first⟩ := foldl_first_min f l b
      refine ⟨a :: before, after, by rw [split, List.cons_append], fun x mem => ?_, first⟩
      have chosen : f (l.foldl (fun a b => if f b < f a then b else a) b) ≤ f b := by
        have here : b ∈ before ++ l.foldl (fun a b => if f b < f a then b else a) b :: after := by
          rw [← split]
          exact List.mem_cons_self ..
        rcases List.mem_append.mp here with early | late
        · exact (least b early).le
        · rcases List.mem_cons.mp late with same | late
          · exact (congrArg f same).ge
          · exact first b late
      rcases List.mem_cons.mp mem with rfl | mem
      · exact lt_of_le_of_lt chosen nearer
      · exact least x mem
    · rw [if_neg nearer]
      obtain ⟨before, after, split, least, first⟩ := foldl_first_min f l a
      cases before with
      | nil =>
        obtain ⟨same, rest⟩ := List.cons.inj split
        refine ⟨[], b :: after, by rw [← same, List.nil_append, rest], by simp, fun x mem => ?_⟩
        rcases List.mem_cons.mp mem with rfl | mem
        · rw [← same]
          exact not_lt.mp nearer
        · exact first x mem
      | cons c before =>
        obtain ⟨same, rest⟩ := List.cons.inj split
        subst same
        refine ⟨a :: b :: before, after, congrArg (fun m => a :: b :: m) rest, fun x mem => ?_, first⟩
        have head := least a (List.mem_cons_self ..)
        rcases List.mem_cons.mp mem with rfl | mem
        · exact head
        · rcases List.mem_cons.mp mem with rfl | mem
          · exact lt_of_lt_of_le head (not_lt.mp nearer)
          · exact least x (List.mem_cons_of_mem _ mem)

theorem bestCandidate_some {s : State} {k : Fin 4} {n : Count} {r : Record} (found : s.bestCandidate k n = some r) :
    ∃ before after, s.track.records = before ++ r :: after ∧ s.candidate k n r = true
      ∧ (∀ x ∈ before, s.candidate k n x = true → apart n (s.arrival r) < apart n (s.arrival x))
      ∧ (∀ x ∈ after, s.candidate k n x = true → apart n (s.arrival r) ≤ apart n (s.arrival x)) := by
  unfold State.bestCandidate at found
  split at found
  · cases found
  · rename_i a l filtered
    obtain ⟨before, after, split, least, first⟩ := foldl_first_min (fun x => apart n (s.arrival x)) l a
    rw [Option.some.inj found] at split least first
    rw [← filtered] at split
    obtain ⟨front, back, records, rfl, behind⟩ := List.filter_eq_append_iff.mp split
    obtain ⟨skipped, rest, rfl, none, candidate, rfl⟩ := List.filter_eq_cons_iff.mp behind
    refine ⟨front ++ skipped, rest, by rw [records, List.append_assoc], candidate, fun x mem can => ?_,
      fun x mem can => first x (List.mem_filter.mpr ⟨mem, can⟩)⟩
    rcases List.mem_append.mp mem with early | late
    · exact least x (List.mem_filter.mpr ⟨early, can⟩)
    · exact absurd can (none x late)

end Sys2Proof.Machine
end

section
/-! What the outfeed director does at a match and at a stray creation (R134 to R136, R138). -/
namespace Sys2Proof.Machine

/-! ## The director's part that plans and requests leave alone -/

/-- From `s` to `t` no stream changes but in its spacer, and no output of the director moves. -/
structure OutfeedStill (s t : State) : Prop where
  streams : ∀ i, ∃ spacer, t.outfeed.streams.get i = { s.outfeed.streams.get i with spacer := spacer }
  underEye : t.outfeed.underEye = s.outfeed.underEye
  foldCode : t.outfeed.foldCode = s.outfeed.foldCode
  strobe : t.outfeed.strobe = s.outfeed.strobe
  foldQueue : t.outfeed.foldQueue = s.outfeed.foldQueue
  divert : t.outfeed.divert = s.outfeed.divert
  stackChange : t.outfeed.stackChange = s.outfeed.stackChange

theorem OutfeedStill.of_planned {s t : State} {due : BitVec 4} (h : t.outfeed = { s.outfeed with planDue := due }) :
    OutfeedStill s t := by
  constructor <;> rw [h]
  exact fun i => ⟨_, rfl⟩

theorem OutfeedStill.of_same {s t : State} (h : t.outfeed = s.outfeed) : OutfeedStill s t :=
  .of_planned (due := s.outfeed.planDue) h

theorem OutfeedStill.trans {s t u : State} (h : OutfeedStill s t) (k : OutfeedStill t u) : OutfeedStill s u where
  streams i := by
    obtain ⟨a, first⟩ := h.streams i
    obtain ⟨b, second⟩ := k.streams i
    exact ⟨b, by rw [second, first]⟩
  underEye := k.underEye.trans h.underEye
  foldCode := k.foldCode.trans h.foldCode
  strobe := k.strobe.trans h.strobe
  foldQueue := k.foldQueue.trans h.foldQueue
  divert := k.divert.trans h.divert
  stackChange := k.stackChange.trans h.stackChange

theorem finish_still (s : State) : OutfeedStill s (finish s) where
  streams := finish_stream_beside s
  underEye := finish_outfeed_underEye s
  foldCode := finish_outfeed_foldCode s
  strobe := finish_outfeed_strobe s
  foldQueue := finish_outfeed_foldQueue s
  divert := finish_outfeed_divert s
  stackChange := finish_outfeed_stackChange s

theorem planAgain_still (i : Fin 4) (s : State) : OutfeedStill s (planAgain i s) :=
  .of_planned (due := s.outfeed.planDue ||| laneBit i) rfl

theorem OutfeedStill.streamOf {s t : State} (h : OutfeedStill s t) : t.outfeed.streamOf = s.outfeed.streamOf :=
  streamOf_congr (fun i => by
    obtain ⟨spacer, same⟩ := h.streams i
    rw [same])

/-- A withdrawal takes a stream's spacer, and nothing else of the director's (R140). -/
theorem withdrawSpacer_still {s : State} (fixed : s.ownFixed) (i : Fin 4) : OutfeedStill s (withdrawSpacer i s) := by
  have dropped : OutfeedStill s (dropRequest i s) :=
    { streams := fun j => by
        by_cases same : j = i
        · subst same
          exact ⟨.none, Quad.get_set_self _ _ _⟩
        · exact ⟨_, Quad.get_set_of_ne _ same _⟩
      underEye := rfl, foldCode := rfl, strobe := rfl, foldQueue := rfl, divert := rfl, stackChange := rfl }
  have fixed' : (dropRequest i s).ownFixed := fixed
  unfold withdrawSpacer
  dsimp only
  split
  · exact dropped.trans (.of_same ((endRequest_left fixed' i).frame .outfeed (by decide)))
  · exact dropped

theorem withdrawRequested_spec {s : State} (fixed : s.ownFixed) (i : Fin 4) :
    OutfeedStill s (withdrawRequested i s) ∧ SameBut [.bid, .outfeed] s (withdrawRequested i s) := by
  unfold withdrawRequested
  split
  · exact ⟨withdrawSpacer_still fixed i, (withdrawSpacer_left fixed i).frame⟩
  · exact ⟨.of_same rfl, .refl _ s⟩

/-! ## The gap ahead (R138) -/

theorem judgeGap_fifo (i : Fin 4) (d : Desc) (first : Count) (s : State) :
    (judgeGap i d first s).fifo = s.withEvents (s.shortGap i d first) := by
  unfold judgeGap State.shortGap
  split
  · rename_i none
    rw [none]
    rfl
  · rename_i tag last closed
    rw [closed]
    dsimp only
    split
    · rename_i none
      rw [none]
      rfl
    · rename_i ahead held
      rw [held]
      dsimp only
      split
      · rfl
      · rfl

theorem judgeGap_frame (i : Fin 4) (d : Desc) (first : Count) (s : State) : SameBut [.fifo] s (judgeGap i d first s) := by
  unfold judgeGap
  split
  · exact .refl _ s
  · split
    · exact .refl _ s
    · exact .ite (raise_frame _ s) (.refl _ s)

/-- The gap ahead is judged alike where the streams keep their closures and the records of these keep their descriptions. -/
theorem shortGap_congr {s t : State} {i : Fin 4} (run : t.run = s.run)
    (closure : (t.outfeed.streams.get i).closure = (s.outfeed.streams.get i).closure)
    (ahead : ∀ tag last, (s.outfeed.streams.get i).closure = some (tag, last) →
      (t.record tag).map Record.desc = (s.record tag).map Record.desc) (d : Desc) (first : Count) :
    t.shortGap i d first = s.shortGap i d first := by
  unfold State.shortGap
  rw [closure, run]
  split
  · rename_i tag last closed
    have same := ahead tag last closed
    cases here : s.record tag with
    | none =>
      rw [here, Option.map_none, Option.map_eq_none_iff] at same
      rw [same]
    | some r =>
      rw [here, Option.map_some, Option.map_eq_some_iff] at same
      obtain ⟨x, held, desc⟩ := same
      rw [held]
      dsimp only
      rw [desc]
  · rfl

/-! ## A counted piece (R134, R135) -/

/-- From `s` to `t` a piece enters the stack of stream `i`, whose last content was `x` (R135). -/
structure Counted (i : Fin 4) (d : Desc) (x : Stream) (change : Bool) (s t : State) : Prop where
  current : (t.outfeed.streams.get i).current = some (d.article, d.lot)
  passed : (t.outfeed.streams.get i).passed =
    (if x.current = some (d.article, d.lot) then min 255 (x.passed + 1) else 1)
  serial : (t.outfeed.streams.get i).serial = (if x.current = some (d.article, d.lot) then x.serial else x.serial + 1)
  lastStack : (t.outfeed.streams.get i).lastStack = (if change = true then .change else x.lastStack)
  stackChange : t.outfeed.stackChange = (if change = true then s.outfeed.stackChange.set i (some (s.now + 100000))
    else s.outfeed.stackChange)
  underEye : t.outfeed.underEye = s.outfeed.underEye
  foldCode : t.outfeed.foldCode = s.outfeed.foldCode
  strobe : t.outfeed.strobe = s.outfeed.strobe
  foldQueue : t.outfeed.foldQueue = s.outfeed.foldQueue
  divert : t.outfeed.divert = s.outfeed.divert
  fifo : t.fifo = s.withEvents (if change = true then
    [{ kind := .stackClosed, article := x.current.map Prod.fst, lot := x.current.map Prod.snd, a := some x.passed
       b := some (i.val + 1), code := some 3 }] else [])
  frame : SameBut [.bid, .outfeed, .fifo] s t

theorem beginStack_stream (i : Fin 4) (d : Desc) (s : State) : (beginStack i d s).outfeed.streams.get i =
    { s.outfeed.streams.get i with
      current := some (d.article, d.lot), passed := 1, serial := (s.outfeed.streams.get i).serial + 1 } := Quad.get_set_self _ _ _

/-- A stack that begins without a change (R135). -/
theorem beginStack_counted {s : State} {i : Fin 4} {d : Desc} {x : Stream} (here : x = s.outfeed.streams.get i)
    (differs : x.current ≠ some (d.article, d.lot)) : Counted i d x false s (beginStack i d s) where
  current := by rw [beginStack_stream]
  passed := by rw [beginStack_stream, if_neg differs]
  serial := by rw [beginStack_stream, if_neg differs, here]
  lastStack := by rw [beginStack_stream, here]; rfl
  stackChange := rfl
  underEye := rfl
  foldCode := rfl
  strobe := rfl
  foldQueue := rfl
  divert := rfl
  fifo := rfl
  frame := (setStream_frame s i _).widen (by decide)

/-- A piece of another article or lot closes the stack and begins the next (R135). -/
theorem changeStack_counted {s : State} {i : Fin 4} {d : Desc} {x : Stream} {c : Nat × Nat} (fixed : s.ownFixed)
    (here : x = s.outfeed.streams.get i) (current : x.current = some c) (differs : c ≠ (d.article, d.lot)) :
    Counted i d x true s (beginStack i d (changeStack i s)) := by
  let e : Event := { kind := .stackClosed, article := some c.1, lot := some c.2, a := some x.passed
                     b := some (i.val + 1), code := some 3 }
  let v := (raise e (stackPulse i s)).setStream i { x with lastStack := .change }
  have change : changeStack i s = withdrawRequested i v := by
    have content : x.current.getD (0, 0) = c := by
      rw [current]
      rfl
    unfold changeStack
    rw [← here]
    dsimp only
    rw [content]
  have pulsed : SameBut [.bid, .outfeed, .fifo] s v :=
    (((setOutfeed_frame s _).widen (by decide)).trans ((raise_frame _ _).widen (by decide))).trans
      ((setStream_frame _ _ _).widen (by decide))
  obtain ⟨still, withdrawn⟩ := withdrawRequested_spec (s := v) fixed i
  obtain ⟨spacer, stream⟩ := still.streams i
  rw [show v.outfeed.streams.get i = { x with lastStack := .change } from Quad.get_set_self _ _ _] at stream
  have other : x.current ≠ some (d.article, d.lot) := by
    rw [current]
    exact fun same => differs (Option.some.inj same)
  rw [change]
  exact
    { current := by rw [beginStack_stream]
      passed := by rw [beginStack_stream, if_neg other]
      serial := by rw [beginStack_stream, if_neg other, stream]
      lastStack := by rw [beginStack_stream, stream]; rfl
      stackChange := still.stackChange
      underEye := still.underEye
      foldCode := still.foldCode
      strobe := still.strobe
      foldQueue := still.foldQueue
      divert := still.divert
      fifo := by
        show (withdrawRequested i v).fifo = _
        rw [withdrawn .fifo (by decide), current]
        rfl
      frame := (pulsed.trans (withdrawn.widen (by decide))).trans ((setStream_frame _ i _).widen (by decide)) }

/-- A counted piece in its stream's stack (R135). -/
theorem countPiece_counted {s : State} {i : Fin 4} {d : Desc} {x : Stream} {change : Bool} (fixed : s.ownFixed)
    (here : x = s.outfeed.streams.get i)
    (changes : change = true ↔ ∃ c, x.current = some c ∧ c ≠ (d.article, d.lot) ∧ 0 < x.passed) :
    Counted i d x change s (countPiece i d s) := by
  have stays : (¬ ∃ c, x.current = some c ∧ c ≠ (d.article, d.lot) ∧ 0 < x.passed) → change = false := fun no => by
    rw [← Bool.not_eq_true]
    exact fun yes => no (changes.mp yes)
  unfold countPiece
  rw [← here]
  dsimp only
  split
  · rename_i fresh
    rw [stays (by rw [fresh]; rintro ⟨c, same, -⟩; cases same)]
    exact beginStack_counted here (by rw [fresh]; nofun)
  · rename_i c current
    split
    · rename_i same
      subst same
      rw [stays (by rintro ⟨c, same, differs, -⟩; rw [current] at same; exact differs (Option.some.inj same).symm)]
      have stream : (s.setStream i { x with passed := min 255 (x.passed + 1) }).outfeed.streams.get i
        = { x with passed := min 255 (x.passed + 1) } := Quad.get_set_self _ _ _
      exact
        { current := by rw [stream]; exact current
          passed := by rw [stream, if_pos current]
          serial := by rw [stream, if_pos current]
          lastStack := by rw [stream]; rfl
          stackChange := rfl, underEye := rfl, foldCode := rfl, strobe := rfl, foldQueue := rfl, divert := rfl, fifo := rfl
          frame := (setStream_frame s i _).widen (by decide) }
    · rename_i differs
      split
      · rename_i some
        rw [changes.mpr ⟨c, current, differs, some⟩]
        exact changeStack_counted fixed here current differs
      · rename_i none
        rw [stays (by rintro ⟨-, -, -, some⟩; exact none some)]
        exact beginStack_counted here (by rw [current]; exact fun same => differs (Option.some.inj same))

/-- The fold program of a counted piece: strobed, queued or overrun (R134). -/
theorem foldPiece_spec (d : Desc) (s : State) :
    (foldPiece d s).outfeed = { s.outfeed with
      foldCode := if s.outfeed.strobe = none then s.store.foldProgram d.article else s.outfeed.foldCode
      strobe := if s.outfeed.strobe = none then some (s.now + 10000) else s.outfeed.strobe
      foldQueue := if s.outfeed.strobe ≠ none ∧ s.outfeed.foldQueue.length < 4 then
        s.outfeed.foldQueue ++ [s.store.foldProgram d.article] else s.outfeed.foldQueue }
    ∧ (foldPiece d s).fifo = s.withEvents (if s.outfeed.strobe ≠ none ∧ 4 ≤ s.outfeed.foldQueue.length then
        [{ kind := .foldOverrun, tag := some d.tag, article := some d.article, lot := some d.lot }] else [])
    ∧ SameBut [.outfeed, .fifo] s (foldPiece d s) := by
  unfold foldPiece
  cases strobe : s.outfeed.strobe with
  | none =>
    simp only [Option.isNone_none, if_true, ne_eq, not_true_eq_false, false_and, if_false]
    exact ⟨rfl, rfl, (setOutfeed_frame s _).widen (by decide)⟩
  | some x =>
    by_cases room : s.outfeed.foldQueue.length < 4
    · have full : ¬ 4 ≤ s.outfeed.foldQueue.length := by omega
      simp only [Option.isNone_some, Bool.false_eq_true, if_false, Config.foldCapacity, room, if_true, reduceCtorEq, ne_eq,
        not_false_eq_true, true_and, full]
      exact ⟨by rw [← strobe]; rfl, rfl, (setOutfeed_frame s _).widen (by decide)⟩
    · have full : 4 ≤ s.outfeed.foldQueue.length := by omega
      simp only [Option.isNone_some, Bool.false_eq_true, if_false, Config.foldCapacity, room, if_true, reduceCtorEq, ne_eq,
        not_false_eq_true, true_and, full]
      exact ⟨by rw [← strobe]; rfl, rfl, (raise_frame _ s).widen (by decide)⟩

end Sys2Proof.Machine
end

section
/-! A match and a stray creation as the eye unit makes them (R46, R64, R65). -/
namespace Sys2Proof.Machine

/-! ## What the outfeed director may do of the own bid: the withdrawal of a spacer (R96, R135, R140) -/

/-- What `t` holds under a tag, `s` held under it. -/
def HeldBefore (s t : State) : Prop := ∀ u x, t.record u = some x → s.record u = some x

theorem HeldBefore.of_track {s t : State} (h : t.track = s.track) : HeldBefore s t := fun u x held => by
  rwa [record_congr (congrArg TrackList.records h)] at held

theorem HeldBefore.trans {s t u : State} (h : HeldBefore s t) (k : HeldBefore t u) : HeldBefore s u :=
  fun v x held => h v x (k v x held)

theorem HeldBefore.ite {s t u : State} {p : Prop} [Decidable p] (h : HeldBefore s t) (k : HeldBefore s u) :
    HeldBefore s (if p then t else u) := by
  split
  · exact h
  · exact k

/-- A recall takes records and puts none in their place (R95). -/
theorem recallOwn_heldBefore (code : Nat) (a : Option Int) (s : State) : HeldBefore s (recallOwn code a s) := by
  cases own : s.bid.own with
  | none =>
    rw [recallOwn_fixed (ownFixed_none own)]
    exact .of_track rfl
  | some o =>
    by_cases landing : o.state = .settling ∨ o.state = .granted
    · intro u x held
      by_cases named : o.desc.tag = u
      · subst named
        rw [(recallOwn_recalled own landing code a).record] at held
        exact (Option.filter_eq_some_iff.mp held).1
      · rwa [(recallOwn_withdrawn code a s).record u (fun y live => by
          cases own.symm.trans live
          exact named)] at held
    · refine .of_track ?_
      unfold recallOwn
      rw [own]
      dsimp only
      split
      · split
        · rfl
        · split
          · rfl
          · exact endOwn_frame _ .track (by decide)
      · rename_i settling
        exact absurd (.inl settling) landing
      · rename_i granted
        exact absurd (.inr granted) landing
      · rfl

/-- From `s` to `t` the outfeed director has acted: the own bid may have been withdrawn, and nothing else of the list, the eyes
or the feed is touched. -/
structure Directed (s t : State) : Prop extends OwnGone s t where
  frame : SameBut listBlocks s t
  fixed : s.ownFixed → OwnLeft [.bid, .outfeed, .fifo] s t
  before : HeldBefore s t

theorem Directed.trans {s t u : State} (h : Directed s t) (k : Directed t u) : Directed s u :=
  { h.toOwnGone.trans k.toOwnGone with
    frame := h.frame.trans k.frame
    fixed := fun fixed => (h.fixed fixed).trans (k.fixed ((h.fixed fixed).fixed fixed))
    before := h.before.trans k.before }

theorem Directed.of_frame {s t : State} (h : SameBut [.outfeed, .fifo] s t) : Directed s t :=
  { OwnGone.of_eye (.of_frame h (by decide) (by decide)) (h .eye (by decide)) with
    frame := h.widen (by decide)
    fixed := fun _ => (OwnLeft.of_frame h (by decide)).widen (by decide)
    before := .of_track (h .track (by decide)) }

theorem Directed.refl (s : State) : Directed s s := .of_frame (.refl _ s)

theorem Directed.ite {s t u : State} {p : Prop} [Decidable p] (h : Directed s t) (k : Directed s u) :
    Directed s (if p then t else u) := by
  split
  · exact h
  · exact k

theorem endRequest_gone (i : Fin 4) (s : State) : OwnGone s (endRequest i s) :=
  have ended : OwnGone s (s.setBid { s.bid with request := none, retry := none }) := .of_eye (.of_same rfl rfl) rfl
  .ite (ended.trans (recallOwn_gone 11 none _)) ended

theorem withdrawSpacer_directed (i : Fin 4) (s : State) : Directed s (withdrawSpacer i s) :=
  have dropped : OwnGone s (dropRequest i s) :=
    .of_eye (.of_frame (dropRequest_frame i s) (by decide) (by decide)) (dropRequest_frame i s .eye (by decide))
  { OwnGone.ite (p := (dropRequest i s).bid.request.any (fun r => r.stream == i) = true)
      (dropped.trans (endRequest_gone i _)) dropped with
    frame := withdrawSpacer_frame i s
    fixed := fun fixed => (withdrawSpacer_left fixed i).widen (by decide)
    before := by
      have before : HeldBefore s (dropRequest i s) := .of_track (dropRequest_frame i s .track (by decide))
      have ended : HeldBefore (dropRequest i s) (endRequest i (dropRequest i s)) :=
        .ite ((HeldBefore.of_track rfl).trans (recallOwn_heldBefore 11 none _)) (.of_track rfl)
      exact .ite (before.trans ended) before }

theorem withdrawRequested_directed (i : Fin 4) (s : State) : Directed s (withdrawRequested i s) := by
  unfold withdrawRequested
  split
  · exact withdrawSpacer_directed i s
  · exact .refl s

theorem setStream_directed (s : State) (i : Fin 4) (x : Stream) : Directed s (s.setStream i x) :=
  .of_frame ((setStream_frame s i x).widen (by decide))

theorem setOutfeed_directed (s : State) (o : OutfeedDirector) : Directed s (s.setOutfeed o) :=
  .of_frame ((setOutfeed_frame s o).widen (by decide))

theorem raise_directed (e : Event) (s : State) : Directed s (raise e s) := .of_frame ((raise_frame e s).widen (by decide))

theorem planAgain_directed (i : Fin 4) (s : State) : Directed s (planAgain i s) :=
  .of_frame ((planAgain_frame i s).widen (by decide))

theorem changeStack_directed (i : Fin 4) (s : State) : Directed s (changeStack i s) :=
  (((setOutfeed_directed s _).trans (raise_directed _ _)).trans (setStream_directed _ _ _)).trans
    (withdrawRequested_directed i _)

theorem countPiece_directed (i : Fin 4) (d : Desc) (s : State) : Directed s (countPiece i d s) := by
  unfold countPiece
  dsimp only
  split
  · exact setStream_directed _ _ _
  · exact .ite (setStream_directed _ _ _) (.ite ((changeStack_directed i s).trans (setStream_directed _ _ _))
      (setStream_directed _ _ _))

theorem judgeGap_directed (i : Fin 4) (d : Desc) (first : Count) (s : State) : Directed s (judgeGap i d first s) :=
  .of_frame ((judgeGap_frame i d first s).widen (by decide))

theorem enterUnderEye_directed (tag : Tag) (i : Option (Fin 4)) (counted : Bool) (s : State) :
    Directed s (enterUnderEye tag i counted s) := setOutfeed_directed _ _

theorem outfeedMatch_directed (r : Record) (first : Count) (s : State) : Directed s (outfeedMatch r first s) := by
  unfold outfeedMatch
  split
  · exact .refl s
  · split
    · exact .refl s
    · rename_i i stream
      dsimp only
      split
      · exact ((((judgeGap_directed i r.desc first s).trans (setOutfeed_directed _ _)).trans (raise_directed _ _)).trans
          (enterUnderEye_directed _ _ _ _)).trans (planAgain_directed _ _)
      · exact ((((judgeGap_directed i r.desc first s).trans (countPiece_directed i r.desc _)).trans
          (.of_frame (foldPiece_spec _ _).2.2)).trans (enterUnderEye_directed _ _ _ _)).trans (planAgain_directed _ _)

theorem outfeedStray_frame (d : Desc) (first : Count) (s : State) : SameBut [.outfeed, .fifo] s (outfeedStray d first s) := by
  have judged : ∀ t, SameBut [.outfeed, .fifo] s t → SameBut [.outfeed, .fifo] s
      (enterUnderEye d.tag (s.outfeed.streamOf d.lanes) false
        (raise { kind := .diverted, tag := some d.tag, code := some (rejectCode .stray) } (divertPulse t))) := fun t h =>
    h.trans ((((setOutfeed_frame t _).widen (by decide)).trans ((raise_frame _ _).widen (by decide))).trans
      ((setOutfeed_frame _ _).widen (by decide)))
  unfold outfeedStray
  refine .ite (.refl _ s) ?_
  dsimp only
  split
  · exact judged _ (((judgeGap_frame _ _ _ s).widen (by decide)).trans ((planAgain_frame _ _).widen (by decide)))
  · exact judged s (.refl _ s)

/-! ## A match (R46, R64) -/

/-- A record matched by an edge (R46). -/
def State.matchedAs (s : State) (r : Record) (n : Count) : Record :=
  { r with tl := plus n s.run.eye, passed := true, reporter := s.number }

/-- The sighting that an edge opens (R64, R65). -/
def State.opened (s : State) (tag : Tag) (stray : Bool) (first : Count) (bound : Lanes) : Sighting :=
  { tag := tag, stray := stray, first := first, limit := plus first s.run.tolerance, bound := bound, lastTrail := none
    width := none }

/-- A match before the outfeed director is handed it. -/
def State.matchedAt (s : State) (k : Fin 4) (n : Count) (r : Record) : State :=
  widthMatch (s.matchedAs r n) k n (openSighting r.desc.tag false n (laneBit k) (changeRecord r (s.matchedAs r n) s))

theorem matchEdge_eq (k : Fin 4) (n : Count) (r : Record) (s : State) :
    matchEdge k n r s = outfeedMatch (s.matchedAs r n) n (s.matchedAt k n r) := rfl

theorem widthMatch_frame (r : Record) (k : Fin 4) (first : Count) (s : State) : SameBut [.width] s (widthMatch r k first s) := by
  unfold widthMatch
  refine .ite ?_ (.refl _ s)
  dsimp only
  split <;> exact setWidth_frame s _

theorem matchedAt_frame (k : Fin 4) (n : Count) (r : Record) (s : State) :
    SameBut [.eye, .width] (changeRecord r (s.matchedAs r n) s) (s.matchedAt k n r) :=
  ((setSightings_frame _ _).widen (by decide)).trans ((widthMatch_frame _ k n _).widen (by decide))

theorem matchedAt_eye (k : Fin 4) (n : Count) (r : Record) (s : State) : (s.matchedAt k n r).eye =
    { (changeRecord r (s.matchedAs r n) s).eye with
      sightings := (changeRecord r (s.matchedAs r n) s).eye.sightings ++ [s.opened r.desc.tag false n (laneBit k)] } := by
  have run : (changeRecord r (s.matchedAs r n) s).run = s.run := changeRecord_frame _ _ s .run (by decide)
  unfold State.matchedAt
  rw [widthMatch_frame _ _ _ _ .eye (by decide)]
  unfold openSighting State.opened
  rw [run]
  rfl

/-- The own bid is about another tag, or is one that nothing withdraws. -/
def State.ownApart (s : State) (tag : Tag) : Prop := s.ownFixed ∨ s.ownElsewhere tag

theorem State.ownApart.of_fired {s : State} {tag : Tag} (h : ∀ o, s.bid.own = some o → o.desc.tag = tag → o.state = .fired) :
    s.ownApart tag := by
  by_cases elsewhere : s.ownElsewhere tag
  · exact .inr elsewhere
  · obtain ⟨o, own, named⟩ : ∃ o, s.bid.own = some o ∧ o.desc.tag = tag := by
      simpa [State.ownElsewhere] using elsewhere
    exact .inl (ownFixed_fired own (h o own named))

theorem Directed.apart {s t : State} {tag : Tag} (h : Directed s t) (apart : s.ownApart tag) : t.record tag = s.record tag
    ∧ ∀ x ∈ s.eye.sightings, x.tag = tag → x ∈ t.eye.sightings := by
  rcases apart with fixed | elsewhere
  · have frame := (h.fixed fixed).frame
    refine ⟨record_congr (congrArg TrackList.records (frame .track (by decide))) tag, fun x mem _ => ?_⟩
    rwa [frame .eye (by decide)]
  · exact ⟨h.record tag elsewhere, fun x mem named => h.others x mem (named ▸ elsewhere)⟩

theorem changeRecord_own_gone (old r : Record) (s : State) {tag : Tag} (apart : s.ownApart tag) :
    (changeRecord old r s).ownApart tag := by
  rcases apart with fixed | elsewhere
  · exact .inl ((changeRecord_left fixed old r).fixed fixed)
  · let t := s.setRecords (replaceRecord r s.track.records)
    have set : ∀ u : Tag, s.ownElsewhere u → t.ownElsewhere u := fun u h => h
    have k := OwnWithdrawn.ite (p := old.altered s.line.highWater r = true) (noteChange_withdrawn r.desc.lanes t) (.refl t)
    exact .inr ((OwnWithdrawn.ite (p := old.moved s.line.highWater r = true) (k.trans (recheck_withdrawn _ _)) k).tags tag
      (set tag elsewhere))

/-- A changed record takes its own place, and may take the record of a bid that it bumps (R33, R94). -/
theorem changeRecord_heldBefore (old r : Record) (s : State) {u : Tag} {x : Record} (other : r.desc.tag ≠ u)
    (held : (changeRecord old r s).record u = some x) : s.record u = some x := by
  let t := s.setRecords (replaceRecord r s.track.records)
  have set : t.record u = s.record u := by rw [setRecords_replace, if_neg other]
  let w := if old.altered s.line.highWater r = true then noteChange r.desc.lanes t else t
  have noted : HeldBefore t w := .ite (.of_track (noteChange_frame _ t .track (by decide))) (.of_track rfl)
  have checked : ∀ v, HeldBefore v (recheck r.desc.tag v) := fun v => by
    unfold recheck
    split
    · exact .ite (recallOwn_heldBefore _ _ v) (.of_track rfl)
    · exact .of_track rfl
  have changed : HeldBefore w (changeRecord old r s) := .ite (checked w) (.of_track rfl)
  rw [← set]
  exact noted u x (changed u x held)

/-- What a match leaves: the record, the eyes, and the sighting that it opens (R46, R64). -/
theorem matchEdge_list {s : State} {r : Record} (apart : s.ownApart r.desc.tag) (k : Fin 4) (n : Count) :
    (matchEdge k n r s).record r.desc.tag = some (s.matchedAs r n)
      ∧ s.opened r.desc.tag false n (laneBit k) ∈ (matchEdge k n r s).eye.sightings := by
  let c := changeRecord r (s.matchedAs r n) s
  have frame : SameBut [.eye, .width] c (s.matchedAt k n r) := matchedAt_frame k n r s
  have apart' : (s.matchedAt k n r).ownApart r.desc.tag := by
    have here : c.ownApart r.desc.tag := changeRecord_own_gone r _ s apart
    unfold State.ownApart State.ownFixed State.ownElsewhere at here ⊢
    rwa [frame .bid (by decide)]
  obtain ⟨record, sightings⟩ := (outfeedMatch_directed (s.matchedAs r n) n (s.matchedAt k n r)).apart apart'
  rw [matchEdge_eq]
  refine ⟨?_, sightings _ ?_ rfl⟩
  · rw [record, record_congr (congrArg TrackList.records (frame .track (by decide)))]
    exact changeRecord_self r (s.matchedAs r n) s
  · rw [matchedAt_eye]
    exact List.mem_append_right _ (List.mem_singleton_self _)

/-- A match leaves the eyes, and opens one sighting at most. -/
theorem matchEdge_eyes (k : Fin 4) (n : Count) (r : Record) (s : State) : (matchEdge k n r s).eye.eyes = s.eye.eyes
    ∧ (matchEdge k n r s).eye.sightings.Sublist (s.eye.sightings ++ [s.opened r.desc.tag false n (laneBit k)])
    ∧ SameBut listBlocks s (matchEdge k n r s) := by
  obtain ⟨eyes, sub, -⟩ := changeRecord_gone r (s.matchedAs r n) s
  have directed := outfeedMatch_directed (s.matchedAs r n) n (s.matchedAt k n r)
  have eye := matchedAt_eye k n r s
  rw [matchEdge_eq]
  refine ⟨?_, directed.sightings.trans ?_, ?_⟩
  · rw [directed.eyes, eye]
    exact eyes
  · rw [eye]
    exact sub.append_right _
  · exact ((changeRecord_frame r (s.matchedAs r n) s).trans ((matchedAt_frame k n r s).widen (by decide))).trans directed.frame

/-! ## A stray creation (R65) -/

/-- The record of a stray that the edges on some lanes make (R46, R65). -/
def State.strayAt (s : State) (n : Count) (lanes : Lanes) : Record :=
  { desc := s.strayDesc (lanes ||| s.joining n), tl := plus n s.run.eye, state := .stray, missed := false, passed := true
    own := true, reporter := s.number, measured := none, openFrom := some n }

theorem createStray_room {s : State} (room : s.track.records.length < 64) (n : Count) (lanes : Lanes) :
    createStray n lanes s = outfeedStray (s.strayAt n lanes).desc n
      (openSighting s.nextTag true n lanes (insertNew (s.strayAt n lanes) (takeTag s))) := if_pos room

theorem createStray_full {s : State} (full : 64 ≤ s.track.records.length) (n : Count) (lanes : Lanes) :
    createStray n lanes s = overflow (s.strayAt n lanes).desc 4 (takeTag s) := if_neg (not_lt.mpr full)

theorem insertNew_gone (r : Record) (s : State) : (insertNew r s).eye.eyes = s.eye.eyes
    ∧ (insertNew r s).eye.sightings.Sublist s.eye.sightings := by
  let t := noteChange r.desc.lanes (s.setRecords (insertRecord r s.track.records))
  have eye : t.eye = s.eye := (noteChange_frame _ _ .eye (by decide)).trans rfl
  have gone : OwnGone t (insertNew r s) := recheck_gone r.desc.tag t
  exact ⟨gone.eyes.trans (by rw [eye]), eye ▸ gone.sightings⟩

theorem holdJoin_gone (c : HoldCause) (s : State) : OwnGone s (holdJoin c s) :=
  have put : OwnGone s (putHold c true s) := .of_eye (.of_same rfl rfl) rfl
  .ite (.refl s) (put.trans (recallOwn_gone _ _ _))

theorem overflow_gone (d : Desc) (source : Nat) (s : State) : OwnGone s (overflow d source s) :=
  .ite (.refl s) ((raise_gone (trackFullEvent d source) s).trans (holdJoin_gone .trackFull _))

/-- A stray creation leaves the eyes, and opens one sighting at most (R51, R65). -/
theorem createStray_eyes (n : Count) (lanes : Lanes) (s : State) : (createStray n lanes s).eye.eyes = s.eye.eyes
    ∧ (createStray n lanes s).eye.sightings.Sublist (s.eye.sightings ++ [s.opened s.nextTag true n lanes])
    ∧ SameBut listBlocks s (createStray n lanes s) := by
  have taken : SameBut [.track] s (takeTag s) := takeTag_frame s
  by_cases room : s.track.records.length < 64
  · let r := s.strayAt n lanes
    let v := insertNew r (takeTag s)
    have inserted : SameBut listBlocks s v := (taken.widen (by decide)).trans (insertNew_frame r _)
    have stray : SameBut [.outfeed, .fifo] (openSighting s.nextTag true n lanes v)
        (outfeedStray r.desc n (openSighting s.nextTag true n lanes v)) := outfeedStray_frame _ _ _
    obtain ⟨eyes, sub⟩ := insertNew_gone r (takeTag s)
    rw [createStray_room room, stray .eye (by decide)]
    refine ⟨eyes, ?_, (inserted.trans ((setSightings_frame _ _).widen (by decide))).trans (stray.widen (by decide))⟩
    have opened : s.opened s.nextTag true n lanes = v.opened s.nextTag true n lanes := by
      unfold State.opened
      rw [inserted .run (by decide)]
    rw [opened]
    exact sub.append_right _
  · rw [createStray_full (not_lt.mp room)]
    have gone := overflow_gone (s.strayAt n lanes).desc 4 (takeTag s)
    exact ⟨gone.eyes, gone.sightings.trans (List.sublist_append_left _ _), (taken.widen (by decide)).trans (overflow_frame _ _ _)⟩

end Sys2Proof.Machine
end

section
/-! The obligation of LEADING_EDGE that a sighting absorbs or a record matches (R46, R58, R61 to R64, R94, R115, R125, R134, R135,
R138). -/
namespace Sys2Proof.Machine

/-! ## The judgement of the edges of an advance (R61) -/

theorem judgeEdge_absorbed {s : State} {k : Fin 4} {n : Count} {g : Sighting} (absorbs : s.absorber k n = some g) :
    judgeEdge k n s = (s.setSightings (s.eye.sightings.map (fun x : Sighting =>
      if x.tag = g.tag then { x with bound := x.bound ||| laneBit k } else x)), false) := by
  unfold judgeEdge
  rw [absorbs]

theorem judgeEdge_matched {s : State} {k : Fin 4} {n : Count} {r : Record} (free : s.absorber k n = none)
    (found : s.bestCandidate k n = some r) : judgeEdge k n s = (matchEdge k n r s, false) := by
  unfold judgeEdge
  rw [free]
  dsimp only
  rw [found]

theorem judgeEdge_unmatched {s : State} {k : Fin 4} {n : Count} (free : s.absorber k n = none)
    (none : s.bestCandidate k n = none) : judgeEdge k n s = (s, true) := by
  unfold judgeEdge
  rw [free]
  dsimp only
  rw [none]

theorem judgeEdge_eyes (k : Fin 4) (n : Count) (s : State) :
    (judgeEdge k n s).1.eye.eyes = s.eye.eyes ∧ SameBut listBlocks s (judgeEdge k n s).1 := by
  unfold judgeEdge
  split
  · exact ⟨rfl, (setSightings_frame s _).widen (by decide)⟩
  · split
    · obtain ⟨eyes, -, frame⟩ := matchEdge_eyes k n _ s
      exact ⟨eyes, frame⟩
    · exact ⟨rfl, .refl _ s⟩

theorem judgeEdges_cons (k : Fin 4) (n : Count) (l : List (Fin 4 × Count)) (s : State) (lanes : Lanes) (c : Option Count) :
    judgeEdges ((k, n) :: l) (s, lanes, c) = judgeEdges l (if (judgeEdge k n s).2 = true then
      ((judgeEdge k n s).1, lanes ||| laneBit k, some n) else ((judgeEdge k n s).1, lanes, c)) := rfl

theorem judgeEdges_eyes : ∀ (l : List (Fin 4 × Count)) (x : State × Lanes × Option Count),
    (judgeEdges l x).1.eye.eyes = x.1.eye.eyes ∧ SameBut listBlocks x.1 (judgeEdges l x).1
  | [], x => ⟨rfl, .refl _ x.1⟩
  | (k, n) :: l, (s, lanes, c) => by
    obtain ⟨eyes, frame⟩ := judgeEdge_eyes k n s
    have next : ∀ y : State × Lanes × Option Count, y.1 = (judgeEdge k n s).1 →
        (judgeEdges l y).1.eye.eyes = s.eye.eyes ∧ SameBut listBlocks s (judgeEdges l y).1 := fun y same => by
      obtain ⟨eyes', frame'⟩ := judgeEdges_eyes l y
      rw [same] at eyes' frame'
      exact ⟨eyes'.trans eyes, frame.trans frame'⟩
    rw [judgeEdges_cons]
    refine next _ ?_
    split <;> rfl

/-- The advance whose edges make no stray. -/
theorem leadingEdges_settled {s t : State} {l : Lanes}
    (judged : judgeEdges s.leadingDue (takeAll s.leadingDue s, 0, none) = (t, l, none)) : leadingEdges s = t := by
  unfold leadingEdges
  dsimp only
  rw [show s.leadingDue.foldl (fun t (kn : Fin 4 × Count) => takeLeading kn.1 kn.2 t) s = takeAll s.leadingDue s from rfl, judged]

/-- The advance whose unmatched edges make a stray. -/
theorem leadingEdges_stray {s t : State} {l : Lanes} {n : Count}
    (judged : judgeEdges s.leadingDue (takeAll s.leadingDue s, 0, none) = (t, l, some n)) :
    leadingEdges s = createStray n l t := by
  unfold leadingEdges
  dsimp only
  rw [show s.leadingDue.foldl (fun t (kn : Fin 4 × Count) => takeLeading kn.1 kn.2 t) s = takeAll s.leadingDue s from rfl, judged]

theorem leadingEdges_eyes (s : State) : (leadingEdges s).eye.eyes = (takeAll s.leadingDue s).eye.eyes
    ∧ SameBut listBlocks (takeAll s.leadingDue s) (leadingEdges s) := by
  obtain ⟨eyes, frame⟩ := judgeEdges_eyes s.leadingDue (takeAll s.leadingDue s, 0, none)
  cases judged : judgeEdges s.leadingDue (takeAll s.leadingDue s, 0, none) with
  | mk t rest =>
    obtain ⟨l, c⟩ := rest
    rw [judged] at eyes frame
    cases c with
    | none =>
      rw [leadingEdges_settled judged]
      exact ⟨eyes, frame⟩
    | some n =>
      rw [leadingEdges_stray judged]
      obtain ⟨eyes', -, frame'⟩ := createStray_eyes n l t
      exact ⟨eyes'.trans eyes, frame.trans frame'⟩

theorem leading_row {s : State} (acting : s.acting = true) : exec .leadingEdge s = .next (finish (leadingEdges s)) := by
  show execLeadingEdge s = _
  unfold execLeadingEdge
  rw [if_pos acting]

theorem leading_frame (s : State) :
    SameBut [.track, .eye, .bid, .feed, .width, .throat, .outfeed, .link, .fifo] s (finish (leadingEdges s)) :=
  (((takeAll_frame _ s).widen (by decide)).trans ((leadingEdges_eyes s).2.widen (by decide))).trans
    ((finish_frame _).widen (by decide))

/-! ## One edge due -/

theorem taken_track (k : Fin 4) (n : Count) (s : State) : (takeLeading k n s).track = s.track :=
  takeLeading_frame k n s .track (by decide)

theorem taken_absorber (k : Fin 4) (n : Count) (s : State) : (takeLeading k n s).absorber k n = s.absorber k n :=
  absorber_congr (taken_track k n s) (by rw [takeLeading_eye]) k n

theorem taken_candidate (k : Fin 4) (n : Count) (s : State) : (takeLeading k n s).bestCandidate k n = s.bestCandidate k n :=
  bestCandidate_congr (taken_track k n s) (takeLeading_frame k n s .run (by decide)) k n

theorem leadingEdges_absorbed {s : State} {k : Fin 4} {n : Count} {g : Sighting} (due : s.leadingDue = [(k, n)])
    (absorbs : s.absorber k n = some g) : leadingEdges s = (takeLeading k n s).setSightings (s.eye.sightings.map
      (fun x : Sighting => if x.tag = g.tag then { x with bound := x.bound ||| laneBit k } else x)) := by
  refine leadingEdges_settled (l := 0) ?_
  rw [due]
  show judgeEdges [(k, n)] (takeLeading k n s, 0, none) = _
  unfold judgeEdges
  rw [judgeEdge_absorbed ((taken_absorber k n s).trans absorbs), takeLeading_eye]
  rfl

theorem leadingEdges_matched {s : State} {k : Fin 4} {n : Count} {r : Record} (due : s.leadingDue = [(k, n)])
    (free : s.absorber k n = none) (found : s.bestCandidate k n = some r) :
    leadingEdges s = matchEdge k n r (takeLeading k n s) := by
  refine leadingEdges_settled (l := 0) ?_
  rw [due]
  show judgeEdges [(k, n)] (takeLeading k n s, 0, none) = _
  unfold judgeEdges
  rw [judgeEdge_matched ((taken_absorber k n s).trans free) ((taken_candidate k n s).trans found)]
  rfl

/-- The record that a taken edge matches, as it stands then. -/
theorem taken_matchedAs (k : Fin 4) (n : Count) (s : State) (r : Record) : (takeLeading k n s).matchedAs r n = s.matchedAs r n := by
  unfold State.matchedAs State.number
  rw [takeLeading_frame k n s .run (by decide)]

theorem taken_apart (k : Fin 4) (n : Count) {s : State} {tag : Tag} (apart : s.ownApart tag) :
    (takeLeading k n s).ownApart tag := by
  unfold State.ownApart State.ownFixed State.ownElsewhere at apart ⊢
  rwa [takeLeading_frame k n s .bid (by decide)]

/-- A match of one edge: the eye, the record and the sighting (R46, R58, R64). -/
theorem edge_matches :
    ∀ (s : State) (k : Fin 4) (n : Count) (r : Record), s.acting = true → s.leadingDue = [(k, n)] →
    s.absorber k n = none → s.bestCandidate k n = some r → s.record r.desc.tag = some r →
    (∀ o, s.bid.own = some o → o.desc.tag = r.desc.tag → o.state = .fired) →
    ∃ t, exec .leadingEdge s = .next t
      ∧ t.eye.eyes = s.eye.eyes.set k { state := .blocked, edge := none }
      ∧ t.record r.desc.tag = some { r with tl := plus n s.run.eye, passed := true, reporter := s.number }
      ∧ (∃ g ∈ t.eye.sightings, g.tag = r.desc.tag ∧ g.stray = false ∧ g.first = n
          ∧ g.limit = plus n s.run.tolerance ∧ g.bound = laneBit k)
      ∧ SameBut [.track, .eye, .bid, .feed, .width, .throat, .outfeed, .link, .fifo] s t := by
  intro s k n r acting due free found _ fired
  let u := takeLeading k n s
  have edges := leadingEdges_matched due free found
  obtain ⟨record, opened⟩ := matchEdge_list (taken_apart k n (.of_fired fired)) k n
  obtain ⟨eyes, -, -⟩ := matchEdge_eyes k n r u
  refine ⟨_, leading_row acting, ?_, ?_, ⟨_, by rw [finish_eye, edges]; exact opened, rfl, rfl, rfl, ?_, rfl⟩, leading_frame s⟩
  · rw [finish_eye, edges, eyes, takeLeading_eye]
  · rw [finish_record, edges, record, taken_matchedAs]
    rfl
  · show plus n u.run.tolerance = _
    rw [takeLeading_frame k n s .run (by decide)]

/-! ## The width sampler at a match (R115, R118) -/

theorem widthMatch_own {s : State} {r : Record} {p : WidthPiece} (k : Fin 4) {n : Count} (role : s.role = .feed)
    (own : r.own = true) (piece : r.desc.kind = .piece) (here : p = { tag := r.desc.tag, article := r.desc.article, lot := r.desc.lot
                                                                      lane := k, start := plus n s.run.sample, edgeTaken := false }) :
    (widthMatch r k n s).width = if s.width.phase = .idle then { s.width with phase := .armed, piece := some p }
      else { s.width with pending := some p } := by
  unfold widthMatch
  rw [if_pos ⟨role, own, piece⟩, ← here]
  cases phase : s.width.phase <;> rfl

/-- A match whose own bid is FIRED or none, at the sampler (R115; log 19). -/
theorem edge_reaches_sampler :
    ∀ (s : State) (k : Fin 4) (n : Count) (r : Record) (p : WidthPiece), s.acting = true → s.leadingDue = [(k, n)] →
    s.absorber k n = none → s.bestCandidate k n = some r →
    (∀ o, s.bid.own = some o → o.state = .fired) →
    p = { tag := r.desc.tag, article := r.desc.article, lot := r.desc.lot, lane := k
          start := plus n s.run.sample, edgeTaken := false } →
    ∃ t, exec .leadingEdge s = .next t
      ∧ (s.role = .feed → r.own = true → r.desc.kind = .piece →
          t.width = (if s.width.phase = .idle then { s.width with phase := .armed, piece := some p }
            else { s.width with pending := some p }))
      ∧ (¬ (s.role = .feed ∧ r.own = true ∧ r.desc.kind = .piece) → t.width = s.width)
      ∧ (s.role ≠ .outfeed → t.fifo = s.fifo) := by
  intro s k n r p acting due free found fired here
  let u := takeLeading k n s
  let c := changeRecord r (u.matchedAs r n) u
  let o := openSighting r.desc.tag false n (laneBit k) c
  let v := u.matchedAt k n r
  have taken : SameBut [.eye, .throat] s u := takeLeading_frame k n s
  have fixed : u.ownFixed := fun x own => .inl (fired x (by rwa [← taken .bid (by decide)]))
  have changed : OwnLeft [.track, .bid, .outfeed] u c := changeRecord_left fixed r _
  have before : SameBut [.track, .eye, .bid, .throat, .outfeed] s o :=
    ((taken.widen (by decide)).trans (changed.frame.widen (by decide))).trans ((setSightings_frame c _).widen (by decide))
  have run : o.run = s.run := before .run (by decide)
  have role : o.role = s.role := congrArg (fun f => f.station.role) run
  have width : o.width = s.width := before .width (by decide)
  have matched : SameBut [.width] o v := widthMatch_frame _ k n o
  have fixedV : v.ownFixed := fun x own => changed.fixed fixed x (by rwa [matched .bid (by decide)] at own)
  have directed := (outfeedMatch_directed (u.matchedAs r n) n v).fixed fixedV
  have result : finish (leadingEdges s) = finish (outfeedMatch (u.matchedAs r n) n v) := by
    rw [leadingEdges_matched due free found, matchEdge_eq]
  refine ⟨_, leading_row acting, fun feed own piece => ?_, fun other => ?_, fun foreign => ?_⟩
  · rw [result, finish_width, directed.frame .width (by decide)]
    rw [show v.width = _ from widthMatch_own (r := u.matchedAs r n) (s := o) (p := p) k (role.trans feed) own piece
      (by rw [here, run]; rfl), width]
  · have idle : v = o := if_neg (fun all => other (by rwa [role] at all))
    rw [result, finish_width, directed.frame .width (by decide), idle, width]
  · have undirected : outfeedMatch (u.matchedAs r n) n v = v := if_pos (by
      rw [show v.role = s.role from congrArg (fun f => f.station.role) ((matched .run (by decide)).trans run)]
      exact foreign)
    rw [result, undirected, finish_fifo, matched .fifo (by decide), before .fifo (by decide)]

/-! ## The outfeed director at a match (R134, R135, R138) -/

/-- The state that a match without an own bid hands to the outfeed director. -/
structure HandedOver (s v : State) (r : Record) (n : Count) (i : Fin 4) : Prop where
  role : v.role = s.role
  own : v.bid.own = none
  still : OutfeedStill s v
  gap : v.shortGap i r.desc n = s.shortGap i r.desc n
  now : v.now = s.now
  store : v.store = s.store
  fifo : v.fifo = s.fifo

theorem matchedAt_handed {s : State} {r : Record} (idle : s.bid.own = none) (held : s.record r.desc.tag = some r)
    (k i : Fin 4) (n : Count) :
    HandedOver s ((takeLeading k n s).matchedAt k n r) r n i := by
  let u := takeLeading k n s
  let r1 := u.matchedAs r n
  let c := changeRecord r r1 u
  let v := u.matchedAt k n r
  have taken : SameBut [.eye, .throat] s u := takeLeading_frame k n s
  have idle' : u.bid.own = none := by
    rw [taken .bid (by decide)]
    exact idle
  have fixed : u.ownFixed := ownFixed_none idle'
  have changed : OwnLeft [.track, .bid, .outfeed] u c := changeRecord_left fixed r r1
  have matched : SameBut [.eye, .width] c v := matchedAt_frame k n r u
  have frame : SameBut [.track, .eye, .bid, .width, .throat, .outfeed] s v :=
    ((taken.widen (by decide)).trans (changed.frame.widen (by decide))).trans (matched.widen (by decide))
  obtain ⟨due, outfeed⟩ := changeRecord_outfeed fixed r r1
  have still : OutfeedStill s v := .of_planned (due := due) (by
    rw [matched .outfeed (by decide), outfeed, taken .outfeed (by decide)])
  have nobody : ∀ t, u.ownElsewhere t := fun t o live => by
    rw [idle'] at live
    cases live
  obtain ⟨self, others⟩ := changeRecord_spec r r1 u (nobody _)
  refine ⟨congrArg (fun f => f.station.role) (frame .run (by decide)), ?_, still, ?_, frame .now (by decide),
    frame .store (by decide), frame .fifo (by decide)⟩
  · rw [matched .bid (by decide)]
    exact changed.own.trans idle'
  · obtain ⟨spacer, stream⟩ := still.streams i
    refine shortGap_congr (frame .run (by decide)) (by rw [stream]) (fun tag last _ => ?_) _ _
    rw [record_congr (congrArg TrackList.records (matched .track (by decide)))]
    by_cases same : tag = r.desc.tag
    · subst same
      rw [held, show c.record r.desc.tag = some r1 from self]
      rfl
    · rw [others tag same (nobody tag), record_congr (congrArg TrackList.records (taken .track (by decide)))]

/-- A match of a piece without reject and with an article, counted in its stack (R134, R135). -/
theorem edge_counts :
    ∀ (s : State) (k : Fin 4) (n : Count) (r : Record) (i : Fin 4) (x : Stream) (change : Bool), s.acting = true →
    s.leadingDue = [(k, n)] → s.absorber k n = none → s.bestCandidate k n = some r → s.bid.own = none →
    s.record r.desc.tag = some r → s.role = .outfeed → s.outfeed.streamOf r.desc.lanes = some i →
    x = s.outfeed.streams.get i → r.desc.reject = .none → r.desc.article ≠ 0 →
    (change = true ↔ ∃ c, x.current = some c ∧ c ≠ (r.desc.article, r.desc.lot) ∧ 0 < x.passed) →
    ∃ t, exec .leadingEdge s = .next t
      ∧ (t.outfeed.streams.get i).current = some (r.desc.article, r.desc.lot)
      ∧ (t.outfeed.streams.get i).passed =
          (if x.current = some (r.desc.article, r.desc.lot) then min 255 (x.passed + 1) else 1)
      ∧ (t.outfeed.streams.get i).serial =
          (if x.current = some (r.desc.article, r.desc.lot) then x.serial else x.serial + 1)
      ∧ (t.outfeed.streams.get i).lastStack = (if change = true then .change else x.lastStack)
      ∧ t.outfeed.stackChange = (if change = true then s.outfeed.stackChange.set i (some (s.now + 100000))
          else s.outfeed.stackChange)
      ∧ t.outfeed.divert = s.outfeed.divert
      ∧ t.outfeed.underEye = s.outfeed.underEye ++
          [{ tag := r.desc.tag, stream := some i, serial := (t.outfeed.streams.get i).serial, counted := true }]
      ∧ t.outfeed.foldCode = (if s.outfeed.strobe = none then s.store.foldProgram r.desc.article
          else s.outfeed.foldCode)
      ∧ t.outfeed.strobe = (if s.outfeed.strobe = none then some (s.now + 10000) else s.outfeed.strobe)
      ∧ t.outfeed.foldQueue = (if s.outfeed.strobe ≠ none ∧ s.outfeed.foldQueue.length < 4 then
          s.outfeed.foldQueue ++ [s.store.foldProgram r.desc.article] else s.outfeed.foldQueue)
      ∧ t.fifo = s.withEvents (s.shortGap i r.desc n
          ++ (if change = true then [{ kind := .stackClosed, article := x.current.map Prod.fst
                                       lot := x.current.map Prod.snd, a := some x.passed
                                       b := some (i.val + 1), code := some 3 }] else [])
          ++ (if s.outfeed.strobe ≠ none ∧ 4 ≤ s.outfeed.foldQueue.length then
              [{ kind := .foldOverrun, tag := some r.desc.tag, article := some r.desc.article
                 lot := some r.desc.lot }] else [])) := by
  intro s k n r i x change acting due free found idle held role stream here sound article changes
  let v := (takeLeading k n s).matchedAt k n r
  have handed : HandedOver s v r n i := matchedAt_handed idle held k i n
  let a := judgeGap i r.desc n v
  let b := countPiece i r.desc a
  let c := foldPiece r.desc b
  let e := planAgain i (enterUnderEye r.desc.tag (some i) true c)
  have judged : SameBut [.fifo] v a := judgeGap_frame i r.desc n v
  obtain ⟨spacer, stillX⟩ := handed.still.streams i
  have hereA : a.outfeed.streams.get i = { x with spacer := spacer } := by
    rw [judged .outfeed (by decide), stillX, here]
  have counted : Counted i r.desc { x with spacer := spacer } change a b :=
    countPiece_counted (ownFixed_none ((congrArg BidEngine.own (judged .bid (by decide))).trans handed.own)) hereA.symm changes
  obtain ⟨folded, overrun, foldFrame⟩ := foldPiece_spec r.desc b
  have result : finish (leadingEdges s) = finish e := by
    have director : outfeedMatch ((takeLeading k n s).matchedAs r n) n v = e := by
      have role' : ¬ v.role ≠ .outfeed := not_not_intro (handed.role.trans role)
      have stream' : v.outfeed.streamOf r.desc.lanes = some i := by
        rw [handed.still.streamOf]
        exact stream
      unfold outfeedMatch
      rw [if_neg role', show v.outfeed.streamOf ((takeLeading k n s).matchedAs r n).desc.lanes = some i from stream']
      exact if_neg (fun bad => bad.elim (fun no => no sound) article)
    rw [leadingEdges_matched due free found, matchEdge_eq, director]
  have still : OutfeedStill e (finish e) := finish_still e
  obtain ⟨last, streamE⟩ := still.streams i
  have streamC : c.outfeed.streams.get i = b.outfeed.streams.get i := by rw [folded]
  have final : (finish e).outfeed.streams.get i = { b.outfeed.streams.get i with spacer := last } := by
    rw [streamE]
    show { c.outfeed.streams.get i with spacer := last } = _
    rw [streamC]
  have strobeB : b.outfeed.strobe = s.outfeed.strobe :=
    counted.strobe.trans ((congrArg OutfeedDirector.strobe (judged .outfeed (by decide))).trans handed.still.strobe)
  have queueB : b.outfeed.foldQueue = s.outfeed.foldQueue :=
    counted.foldQueue.trans ((congrArg OutfeedDirector.foldQueue (judged .outfeed (by decide))).trans handed.still.foldQueue)
  have nowA : a.now = s.now := (judged .now (by decide)).trans handed.now
  have nowB : b.now = s.now := (counted.frame .now (by decide)).trans nowA
  have storeB : b.store = s.store := (counted.frame .store (by decide)).trans ((judged .store (by decide)).trans handed.store)
  refine ⟨_, leading_row acting, ?_⟩
  rw [result, final]
  refine ⟨counted.current, counted.passed, counted.serial, counted.lastStack, ?_, ?_, ?_, ?_, ?_, ?_, ?_⟩
  · rw [still.stackChange]
    show c.outfeed.stackChange = _
    rw [folded]
    refine counted.stackChange.trans ?_
    rw [nowA, judged .outfeed (by decide), handed.still.stackChange]
  · rw [still.divert]
    show c.outfeed.divert = _
    rw [folded]
    exact counted.divert.trans ((congrArg OutfeedDirector.divert (judged .outfeed (by decide))).trans handed.still.divert)
  · rw [still.underEye]
    show c.outfeed.underEye ++ [{ tag := r.desc.tag, stream := some i, serial := (c.outfeed.streams.get i).serial
                                  counted := true }] = _
    rw [streamC, show c.outfeed.underEye = b.outfeed.underEye from by rw [folded], counted.underEye,
      judged .outfeed (by decide), handed.still.underEye]
  · rw [still.foldCode]
    show c.outfeed.foldCode = _
    rw [folded]
    show (if b.outfeed.strobe = none then _ else b.outfeed.foldCode) = _
    rw [strobeB, storeB, counted.foldCode, judged .outfeed (by decide), handed.still.foldCode]
  · rw [still.strobe]
    show c.outfeed.strobe = _
    rw [folded]
    show (if b.outfeed.strobe = none then _ else b.outfeed.strobe) = _
    rw [strobeB, nowB]
  · rw [still.foldQueue]
    show c.outfeed.foldQueue = _
    rw [folded]
    show (if b.outfeed.strobe ≠ none ∧ b.outfeed.foldQueue.length < 4 then _ else b.outfeed.foldQueue) = _
    rw [strobeB, queueB, storeB]
  · rw [finish_fifo]
    show c.fifo = _
    rw [overrun, strobeB, queueB]
    unfold State.withEvents
    rw [storeB, counted.fifo]
    unfold State.withEvents
    rw [judged .store (by decide), handed.store, judgeGap_fifo]
    unfold State.withEvents
    rw [handed.store, handed.fifo, handed.gap, List.foldl_append, List.foldl_append]

/-- A match with a reject or without an article, diverted (R134, R135; log 39). -/
theorem edge_diverts :
    ∀ (s : State) (k : Fin 4) (n : Count) (r : Record) (i : Fin 4) (x : Stream), s.acting = true →
    s.leadingDue = [(k, n)] → s.absorber k n = none → s.bestCandidate k n = some r → s.bid.own = none →
    s.record r.desc.tag = some r → s.role = .outfeed → s.outfeed.streamOf r.desc.lanes = some i →
    x = s.outfeed.streams.get i → r.desc.reject ≠ .none ∨ r.desc.article = 0 →
    ∃ t, exec .leadingEdge s = .next t
      ∧ (t.outfeed.streams.get i).current = x.current ∧ (t.outfeed.streams.get i).passed = x.passed
      ∧ (t.outfeed.streams.get i).serial = x.serial ∧ t.outfeed.stackChange = s.outfeed.stackChange
      ∧ t.outfeed.divert = some (s.now + 100000) ∧ t.outfeed.strobe = s.outfeed.strobe
      ∧ t.outfeed.underEye = s.outfeed.underEye ++
          [{ tag := r.desc.tag, stream := some i, serial := x.serial, counted := false }]
      ∧ t.fifo = s.withEvents (s.shortGap i r.desc n ++
          [{ kind := .diverted, code := some (if r.desc.reject = .none then 5 else rejectCode r.desc.reject) }]) := by
  intro s k n r i x acting due free found idle held role stream here bad
  let v := (takeLeading k n s).matchedAt k n r
  have handed : HandedOver s v r n i := matchedAt_handed idle held k i n
  let a := judgeGap i r.desc n v
  let code := if r.desc.reject ≠ .none then rejectCode r.desc.reject else 5
  let b := raise { kind := .diverted, code := some code } (divertPulse a)
  let e := planAgain i (enterUnderEye r.desc.tag (some i) false b)
  have judged : SameBut [.fifo] v a := judgeGap_frame i r.desc n v
  have stillA : OutfeedStill s a := handed.still.trans (.of_same (judged .outfeed (by decide)))
  have result : finish (leadingEdges s) = finish e := by
    have director : outfeedMatch ((takeLeading k n s).matchedAs r n) n v = e := by
      have role' : ¬ v.role ≠ .outfeed := not_not_intro (handed.role.trans role)
      have stream' : v.outfeed.streamOf r.desc.lanes = some i := by
        rw [handed.still.streamOf]
        exact stream
      unfold outfeedMatch
      rw [if_neg role', show v.outfeed.streamOf ((takeLeading k n s).matchedAs r n).desc.lanes = some i from stream']
      exact if_pos bad
    rw [leadingEdges_matched due free found, matchEdge_eq, director]
  have still : OutfeedStill e (finish e) := finish_still e
  obtain ⟨last, streamE⟩ := still.streams i
  obtain ⟨spacer, streamA⟩ := stillA.streams i
  have now : a.now = s.now := (judged .now (by decide)).trans handed.now
  have codes : code = if r.desc.reject = .none then 5 else rejectCode r.desc.reject := by
    show (if r.desc.reject ≠ .none then rejectCode r.desc.reject else 5) = _
    by_cases sound : r.desc.reject = .none
    · rw [if_pos sound, if_neg (not_not_intro sound)]
    · rw [if_neg sound, if_pos sound]
  have final : (finish e).outfeed.streams.get i = { x with spacer := last } := by
    rw [streamE]
    show { a.outfeed.streams.get i with spacer := last } = _
    rw [streamA, here]
  refine ⟨_, leading_row acting, ?_⟩
  rw [result, final]
  refine ⟨rfl, rfl, rfl, ?_, ?_, ?_, ?_, ?_⟩
  · rw [still.stackChange]
    exact stillA.stackChange
  · rw [still.divert]
    show some (a.now + 100000) = _
    rw [now]
  · rw [still.strobe]
    exact stillA.strobe
  · rw [still.underEye]
    show a.outfeed.underEye ++ [{ tag := r.desc.tag, stream := some i, serial := (a.outfeed.streams.get i).serial
                                  counted := false }] = _
    rw [stillA.underEye, streamA, here]
  · rw [finish_fifo, ← codes]
    have told : (divertPulse a).fifo = s.withEvents (s.shortGap i r.desc n) := by
      show a.fifo = _
      rw [show a.fifo = _ from judgeGap_fifo i r.desc n v, handed.gap]
      unfold State.withEvents
      rw [handed.store, handed.fifo]
    exact raise_withEvents told ((judged .store (by decide)).trans handed.store) _

/-! ## Edges absorbed (R61, R62) -/

/-- An edge that a sighting in progress absorbs (R62). -/
theorem edge_absorbed :
    ∀ (s : State) (k : Fin 4) (n : Count) (g : Sighting), s.acting = true → s.leadingDue = [(k, n)] →
    s.absorber k n = some g →
    ∃ t, exec .leadingEdge s = .next t
      ∧ t.eye.eyes = s.eye.eyes.set k { state := .blocked, edge := none }
      ∧ t.eye.sightings = s.eye.sightings.map (fun x =>
          if x.tag = g.tag then { x with bound := x.bound ||| laneBit k } else x)
      ∧ t.track.records = s.track.records ∧ t.fifo = s.fifo ∧ t.width = s.width
      ∧ SameBut ([.eye, .throat] ++ settlingBlocks) s t := by
  intro s k n g acting due absorbs
  let u := takeLeading k n s
  let w := u.setSightings (s.eye.sightings.map
    (fun x : Sighting => if x.tag = g.tag then { x with bound := x.bound ||| laneBit k } else x))
  have edges : leadingEdges s = w := leadingEdges_absorbed due absorbs
  have frame : SameBut [.eye, .throat] s w := (takeLeading_frame k n s).trans ((setSightings_frame _ _).widen (by decide))
  refine ⟨finish w, by rw [leading_row acting, edges], ?_, by rw [finish_eye]; rfl, ?_, ?_, ?_,
    (frame.widen (by decide)).trans ((finish_frame w).widen (by decide))⟩
  · rw [finish_eye]
    show u.eye.eyes = _
    rw [takeLeading_eye]
  · rw [finish_track_records, frame .track (by decide)]
  · rw [finish_fifo, frame .fifo (by decide)]
  · rw [finish_width, frame .width (by decide)]

/-- The sighting that a match opens absorbs an edge of a lane of its record, where no earlier sighting does (R61, R62). -/
theorem matchEdge_absorber {s : State} {r : Record} (apart : s.ownApart r.desc.tag) (held : s.record r.desc.tag = some r)
    (k j : Fin 4) (n m : Count) (unabsorbed : s.absorber j m = none) (lane : hasLane r.desc.lanes j = true)
    (limit : 0 ≤ signedDiff (plus n s.run.tolerance) m) :
    (matchEdge k n r s).absorber j m = some (s.opened r.desc.tag false n (laneBit k)) := by
  obtain ⟨record, opened⟩ := matchEdge_list apart k n
  obtain ⟨-, sub, -⟩ := matchEdge_eyes k n r s
  have before : ∀ u x, r.desc.tag ≠ u → (matchEdge k n r s).record u = some x → s.record u = some x := fun u x other here => by
    have directed := (outfeedMatch_directed (s.matchedAs r n) n (s.matchedAt k n r)).before u x here
    rw [record_congr (congrArg TrackList.records (matchedAt_frame k n r s .track (by decide)))] at directed
    exact changeRecord_heldBefore r (s.matchedAs r n) s other directed
  generalize matchEdge k n r s = t at record opened sub before ⊢
  have absorbs : t.absorbs j m (s.opened r.desc.tag false n (laneBit k)) = true :=
    (absorbs_iff t j m _).mpr ⟨_, record, lane, limit⟩
  have older : ∀ x ∈ s.eye.sightings, t.absorbs j m x = false := fun x mem => by
    rw [← Bool.not_eq_true, absorbs_iff]
    rintro ⟨y, here, lanes, late⟩
    have none := (absorber_none_iff s j m).mp unabsorbed x mem
    rw [← Bool.not_eq_true, absorbs_iff] at none
    by_cases same : r.desc.tag = x.tag
    · rw [← same, record] at here
      cases here
      exact none ⟨r, same ▸ held, lanes, late⟩
    · exact none ⟨y, before _ _ same here, lanes, late⟩
  cases chosen : t.absorber j m with
  | none => exact absurd absorbs (by rw [(absorber_none_iff t j m).mp chosen _ opened]; nofun)
  | some x =>
    obtain ⟨mem, can, -⟩ := absorber_some chosen
    rcases List.mem_append.mp (sub.subset mem) with old | new
    · rw [older x old] at can
      cases can
    · rw [List.mem_singleton.mp new]

/-- Two edges, of which the second is absorbed after the first has been judged (R61). -/
theorem leadingEdges_pair {s t : State} {k j : Fin 4} {n m : Count} {g : Sighting} (due : s.leadingDue = [(k, n), (j, m)])
    (first : judgeEdge k n (takeLeading j m (takeLeading k n s)) = (t, false)) (absorbs : t.absorber j m = some g) :
    leadingEdges s = t.setSightings (t.eye.sightings.map
      (fun x : Sighting => if x.tag = g.tag then { x with bound := x.bound ||| laneBit j } else x)) := by
  refine leadingEdges_settled (l := 0) ?_
  rw [due]
  show judgeEdges [(k, n), (j, m)] (takeLeading j m (takeLeading k n s), 0, none) = _
  unfold judgeEdges
  rw [first]
  unfold judgeEdges
  dsimp only
  rw [if_neg Bool.false_ne_true, judgeEdge_absorbed absorbs]
  rfl

/-- Of two edges of one advance the sighting that the first opens absorbs the second (R61). -/
theorem edge_absorbed_behind_match :
    ∀ (s : State) (k j : Fin 4) (n m : Count) (r : Record), s.acting = true → s.leadingDue = [(k, n), (j, m)] →
    s.absorber k n = none → s.bestCandidate k n = some r → s.record r.desc.tag = some r →
    (∀ o, s.bid.own = some o → o.desc.tag = r.desc.tag → o.state = .fired) →
    s.absorber j m = none → hasLane r.desc.lanes j = true → 0 ≤ signedDiff (plus n s.run.tolerance) m →
    ∃ t, exec .leadingEdge s = .next t
      ∧ t.record r.desc.tag = some { r with tl := plus n s.run.eye, passed := true, reporter := s.number }
      ∧ (∃ g ∈ t.eye.sightings, g.tag = r.desc.tag ∧ g.first = n ∧ g.bound = laneBit k ||| laneBit j)
      ∧ t.eye.sightings.length ≤ s.eye.sightings.length + 1 := by
  intro s k j n m r acting due free found held fired unabsorbed lane limit
  let u := takeLeading j m (takeLeading k n s)
  have taken : SameBut [.eye, .throat] s u := (takeLeading_frame k n s).trans (takeLeading_frame j m _)
  have track : u.track = s.track := taken .track (by decide)
  have run : u.run = s.run := taken .run (by decide)
  have sightings : u.eye.sightings = s.eye.sightings := by rw [takeLeading_eye, takeLeading_eye]
  have apart : u.ownApart r.desc.tag := taken_apart j m (taken_apart k n (.of_fired fired))
  have first : judgeEdge k n u = (matchEdge k n r u, false) :=
    judgeEdge_matched ((absorber_congr track sightings k n).trans free) ((bestCandidate_congr track run k n).trans found)
  have absorbs := matchEdge_absorber apart ((record_congr (congrArg TrackList.records track) _).trans held) k j n m
    ((absorber_congr track sightings j m).trans unabsorbed) lane (by rw [run]; exact limit)
  have edges := leadingEdges_pair due first absorbs
  obtain ⟨record, opened⟩ := matchEdge_list apart k n
  obtain ⟨-, sub, -⟩ := matchEdge_eyes k n r u
  have same : u.matchedAs r n = s.matchedAs r n := by
    unfold State.matchedAs State.number
    rw [run]
  rw [same] at record
  generalize matchEdge k n r u = t at edges record opened sub
  refine ⟨_, leading_row acting, ?_, ⟨{ u.opened r.desc.tag false n (laneBit k) with bound := laneBit k ||| laneBit j }, ?_,
    rfl, rfl, rfl⟩, ?_⟩
  · rw [finish_record, edges, record_congr (congrArg TrackList.records (setSightings_frame t _ .track (by decide)))]
    exact record
  · rw [finish_eye, edges]
    exact List.mem_map.mpr ⟨_, opened, if_pos rfl⟩
  · rw [finish_eye, edges]
    show (t.eye.sightings.map _).length ≤ _
    rw [List.length_map, ← sightings]
    refine sub.length_le.trans ?_
    rw [List.length_append, List.length_singleton]

/-! ## The bump by a match (R94) -/

/-- What leaves the bid engine, the list, the link and the FIFO leaves the judgement of the own bid. -/
theorem Judged.of_frame {s w x : State} {o : OwnBid} {r : Record} (h : Judged s w o r) (same : SameBut [.eye, .width] w x) :
    Judged s x o r := by
  have bid : x.bid = w.bid := same .bid (by decide)
  have fifo : x.fifo = w.fifo := same .fifo (by decide)
  refine ⟨fun bumps => ?_, fun clear => ?_⟩
  · obtain ⟨ended, gone, record, passedOver, outbox, told⟩ := h.bumps bumps
    refine ⟨by rw [bid]; exact ended, by rw [bid]; exact gone, ?_, by rw [bid]; exact passedOver,
      by rw [same .link (by decide)]; exact outbox, by rw [fifo]; exact told⟩
    rw [record_congr (congrArg TrackList.records (same .track (by decide)))]
    exact record
  · obtain ⟨live, quiet⟩ := h.stands clear
    exact ⟨by rw [bid]; exact live, by rw [fifo]; exact quiet⟩

theorem taken_check (o : OwnBid) {s u : State} (taken : SameBut [.eye, .throat] s u) : CheckSame o s u where
  record := record_congr (congrArg TrackList.records (taken .track (by decide))) _
  passedOver := congrArg BidEngine.passedOver (taken .bid (by decide))
  link := taken .link (by decide)
  fifo := taken .fifo (by decide)
  store := taken .store (by decide)
  positions := congrArg FeedSequencer.positions (taken .feed (by decide))
  own := congrArg BidEngine.own (taken .bid (by decide))
  run := taken .run (by decide)
  line := taken .line (by decide)

/-- A SETTLING or GRANTED own bid about another tag is judged by the matched record (R94). -/
theorem edge_judges_own :
    ∀ (s : State) (k : Fin 4) (n : Count) (r : Record) (o : OwnBid), s.acting = true → s.leadingDue = [(k, n)] →
    s.absorber k n = none → s.bestCandidate k n = some r → s.record r.desc.tag = some r → s.role ≠ .outfeed →
    s.bid.own = some o → o.state = .settling ∨ o.state = .granted → o.desc.tag ≠ r.desc.tag →
    ∃ t r', exec .leadingEdge s = .next t ∧ t.record r.desc.tag = some r'
      ∧ r' = { r with tl := plus n s.run.eye, passed := true, reporter := s.number } ∧ s.judgesBump t r' o := by
  intro s k n r o acting due free found held role own landing other
  let u := takeLeading k n s
  have taken : SameBut [.eye, .throat] s u := takeLeading_frame k n s
  have elsewhere : s.ownElsewhere r.desc.tag := fun x live => by
    cases own.symm.trans live
    exact other
  obtain ⟨record, -⟩ := matchEdge_list (taken_apart k n (.inr elsewhere)) k n
  have judged : Judged s (changeRecord r (u.matchedAs r n) u) o (u.matchedAs r n) :=
    changeRecord_judged (r := u.matchedAs r n) own landing other.symm (taken_check o taken) held
  have undirected : matchEdge k n r u = u.matchedAt k n r := by
    have frame : SameBut (.throat :: listBlocks) s (u.matchedAt k n r) :=
      ((taken.widen (by decide)).trans ((changeRecord_frame r (u.matchedAs r n) u).widen (by decide))).trans
        ((matchedAt_frame k n r u).widen (by decide))
    rw [matchEdge_eq]
    refine if_pos ?_
    rw [show (u.matchedAt k n r).role = s.role from congrArg (fun f => f.station.role) (frame .run (by decide))]
    exact role
  have final := (judged.of_frame (matchedAt_frame k n r u)).finish landing
  rw [← undirected] at final
  have edges := leadingEdges_matched due free found
  refine ⟨finish (matchEdge k n r u), u.matchedAs r n, by rw [leading_row acting, edges], by rw [finish_record]; exact record,
    ?_, final⟩
  rw [taken_matchedAs]
  rfl

/-- Settles O8: the choices of R62 and R63, and then each outcome of an edge. -/
theorem leadingEdgeMatchesRecord : Obligations.LeadingEdgeMatchesRecord := by
  refine ⟨edge_matches, edge_reaches_sampler, edge_counts, edge_diverts, edge_absorbed,
    fun s k n => ⟨absorbs_iff s k n, absorber_none_iff s k n, fun g found => absorber_some found⟩,
    fun s k n distance measured => ?_, edge_absorbed_behind_match, fun s acting => ?_, edge_judges_own, fun s still => ?_⟩
  · have apart : distance = fun r => Machine.apart n (s.arrival r) := funext measured
    rw [apart]
    exact ⟨candidate_iff s k n, bestCandidate_none_iff s k n, fun r found => bestCandidate_some found⟩
  · let u := takeAll s.leadingDue s
    obtain ⟨eyes, frame⟩ := leadingEdges_eyes s
    have throat : (finish (leadingEdges s)).throat = u.throat := by
      rw [finish_throat]
      exact frame .throat (by decide)
    have eye : (finish (leadingEdges s)).eye.eyes = u.eye.eyes := by
      rw [finish_eye]
      exact eyes
    refine ⟨_, leading_row acting, fun k n due => ?_, fun k free => ?_, ?_, ?_, leading_frame s⟩
    · rw [eye, throat]
      exact takeAll_taken (leadingDue_nodup s) due s
    · rw [eye, throat]
      refine takeAll_other k s.leadingDue s (fun mem => ?_)
      obtain ⟨⟨_, n⟩, due, rfl⟩ := List.mem_map.mp mem
      exact free n due
    · rw [throat]
      exact (takeAll_throat s.leadingDue s).1
    · rw [throat]
      exact (takeAll_throat s.leadingDue s).2
  · show execLeadingEdge s = _
    unfold execLeadingEdge
    rw [still]
    rfl

end Sys2Proof.Machine
end

section
/-! The obligation of LEADING_EDGE whose edges nothing matches (R27, R46, R51, R65, R94, R136, R138). -/
namespace Sys2Proof.Machine

/-! ## The unmatched edges of an advance (R65) -/

/-- The lanes of the edges left unmatched. -/
def lanesLeft (l : List (Fin 4 × Count)) (w : Lanes) : Lanes := l.foldl (fun w p => w ||| laneBit p.1) w

theorem lanesLeft_iff (j : Fin 4) : ∀ (l : List (Fin 4 × Count)) (w : Lanes),
    hasLane (lanesLeft l w) j = true ↔ hasLane w j = true ∨ j ∈ l.map Prod.fst
  | [], w => by simp [lanesLeft]
  | p :: l, w => by
    have next : lanesLeft (p :: l) w = lanesLeft l (w ||| laneBit p.1) := rfl
    rw [next, lanesLeft_iff j l, hasLane_or, hasLane_laneBit, List.map_cons, List.mem_cons]
    simp [or_assoc]

/-- Edges at one count that nothing matches leave the state as it is, and their lanes unmatched (R61, R65). -/
theorem judgeEdges_unmatched {s : State} {n : Count} : ∀ (l : List (Fin 4 × Count)) (w : Lanes) (c : Option Count),
    (∀ p ∈ l, p.2 = n ∧ s.absorber p.1 n = none ∧ s.bestCandidate p.1 n = none) →
    judgeEdges l (s, w, c) = (s, lanesLeft l w, if l = [] then c else some n)
  | [], _, _, _ => rfl
  | (k, m) :: l, w, c, free => by
    obtain ⟨rfl, unabsorbed, unmatched⟩ := free (k, m) (List.mem_cons_self ..)
    have rest := judgeEdges_unmatched l (w ||| laneBit k) (some m) (fun p mem => free p (List.mem_cons_of_mem _ mem))
    rw [judgeEdges_cons, judgeEdge_unmatched unabsorbed unmatched, if_pos rfl, rest, ite_self]
    rfl

/-- The unmatched edges of an advance make one stray (R65). -/
theorem leadingEdges_unmatched {s : State} {n : Count} (some : s.leadingDue ≠ [])
    (free : ∀ p ∈ s.leadingDue, p.2 = n ∧ s.absorber p.1 n = none ∧ s.bestCandidate p.1 n = none) :
    leadingEdges s = createStray n (lanesLeft s.leadingDue 0) (takeAll s.leadingDue s) := by
  have taken := takeAll_frame s.leadingDue s
  refine leadingEdges_stray ?_
  rw [judgeEdges_unmatched (n := n) s.leadingDue 0 none (fun p mem => ?_), if_neg some]
  obtain ⟨rfl, unabsorbed, unmatched⟩ := free p mem
  exact ⟨rfl, (absorber_congr (taken .track (by decide)) (takeAll_sightings _ s) _ _).trans unabsorbed,
    (bestCandidate_congr (taken .track (by decide)) (taken .run (by decide)) _ _).trans unmatched⟩

theorem leadingEdges_one_stray {s : State} {k : Fin 4} {n : Count} (due : s.leadingDue = [(k, n)])
    (free : s.absorber k n = none) (none : s.bestCandidate k n = none) :
    leadingEdges s = createStray n (laneBit k) (takeLeading k n s) := by
  have edges := leadingEdges_unmatched (s := s) (n := n) (by rw [due]; nofun) (fun p mem => by
    rw [due] at mem
    rw [List.mem_singleton.mp mem]
    exact ⟨rfl, free, none⟩)
  rw [edges, due]
  exact congrArg (fun w => createStray n w (takeLeading k n s)) (BitVec.zero_or ..)

/-! ## The stray created (R46, R65) -/

/-- What a stray creation leaves in the list and at the eyes. -/
theorem createStray_list {s : State} (room : s.track.records.length < 64) (n : Count) (lanes : Lanes) :
    s.record s.nextTag = none
      ∧ (createStray n lanes s).record s.nextTag = some (s.strayAt n lanes)
      ∧ s.opened s.nextTag true n lanes ∈ (createStray n lanes s).eye.sightings
      ∧ ∀ x ∈ (createStray n lanes s).track.records, x = s.strayAt n lanes ∨ x ∈ s.track.records := by
  let r := s.strayAt n lanes
  let t := takeTag s
  let v := insertNew r t
  have fresh : s.record s.nextTag = none := record_nextTag (le_of_lt room)
  have stray : SameBut [.outfeed, .fifo] (openSighting s.nextTag true n lanes v)
      (outfeedStray r.desc n (openSighting s.nextTag true n lanes v)) := outfeedStray_frame _ _ _
  have track : (createStray n lanes s).track = v.track := by
    rw [createStray_room room, stray .track (by decide)]
    rfl
  refine ⟨fresh, ?_, ?_, fun x mem => ?_⟩
  · rw [record_congr (congrArg TrackList.records track)]
    exact insertNew_self (s := t) (r := r) fresh
  · rw [createStray_room room, stray .eye (by decide)]
    refine List.mem_append_right _ (List.mem_singleton.mpr ?_)
    unfold State.opened
    rw [(((takeTag_frame s).widen (by decide)).trans (insertNew_frame r t) : SameBut listBlocks s v) .run (by decide)]
  · rw [track] at mem
    have sub := (recheck_withdrawn r.desc.tag (noteChange r.desc.lanes (t.setRecords (insertRecord r t.track.records)))).sub
    have here := sub.subset mem
    rw [noteChange_frame _ _ .track (by decide)] at here
    exact List.mem_cons.mp ((insertRecord_perm r t.track.records).mem_iff.mp here)

/-- The tag of the stray stands while edges are taken (R27). -/
theorem taken_tag {s u : State} (taken : SameBut [.eye, .throat] s u) : u.nextTag = s.nextTag := by
  unfold State.nextTag State.ownerByte State.number
  rw [taken .run (by decide), taken .track (by decide)]

theorem taken_role {s u : State} (taken : SameBut [.eye, .throat] s u) : u.role = s.role :=
  congrArg (fun f => f.station.role) (taken .run (by decide))

/-- The edge pending at a lane's eye joins a stray (R65). -/
def State.joins (s : State) (n : Count) (k : Fin 4) : Prop :=
  hasLane s.run.lanes k = true ∧ (s.eye.eyes.get k).state = .clear
    ∧ ∃ c, (s.eye.eyes.get k).edge = some c ∧ 0 ≤ signedDiff (plus n s.run.tolerance) c

/-- One lane looked at for the stray. -/
def State.joinLane (s : State) (n : Count) (w : Lanes) (k : Fin 4) : Lanes :=
  match (s.eye.eyes.get k).edge with
  | some c =>
    if hasLane s.run.lanes k = true ∧ (s.eye.eyes.get k).state = .clear ∧ atLeast (plus n s.run.tolerance) c = true then
      w ||| laneBit k
    else w
  | none => w

theorem joining_eq (s : State) (n : Count) : s.joining n = four.foldl (s.joinLane n) 0 := rfl

theorem joinLane_iff (s : State) (n : Count) (w : Lanes) (j k : Fin 4) :
    hasLane (s.joinLane n w k) j = true ↔ hasLane w j = true ∨ (j = k ∧ s.joins n k) := by
  unfold State.joinLane State.joins atLeast
  cases edge : (s.eye.eyes.get k).edge with
  | none => simp
  | some c =>
    dsimp only
    split
    · rename_i joins
      obtain ⟨lane, clear, early⟩ := joins
      rw [hasLane_or, hasLane_laneBit]
      simp [lane, clear, of_decide_eq_true early]
    · rename_i apart
      constructor
      · exact .inl
      · rintro (before | ⟨-, lane, clear, _, same, early⟩)
        · exact before
        · cases same
          exact absurd ⟨lane, clear, decide_eq_true early⟩ apart

theorem joinLanes_iff (s : State) (n : Count) (j : Fin 4) : ∀ (l : List (Fin 4)) (w : Lanes),
    hasLane (l.foldl (s.joinLane n) w) j = true ↔ hasLane w j = true ∨ (j ∈ l ∧ s.joins n j)
  | [], w => by simp
  | k :: l, w => by
    rw [List.foldl_cons, joinLanes_iff s n j l, joinLane_iff, List.mem_cons, or_assoc]
    by_cases same : j = k
    · subst same
      simp only [true_and, true_or]
      exact or_congr_right ⟨fun h => h.elim id And.right, .inl⟩
    · simp [same]

/-- The lanes whose pending edges join a stray (R65). -/
theorem joining_iff (s : State) (n : Count) (j : Fin 4) : hasLane (s.joining n) j = true ↔ s.joins n j := by
  have mem : ∀ j : Fin 4, j ∈ four := by decide
  rw [joining_eq, joinLanes_iff, hasLane_zero]
  simp [mem j]

/-! ## The stray at the outfeed director (R136, R138) -/

/-- A stray at an OUTFEED station without an own bid is judged against the object ahead, diverted and entered under the eye. -/
theorem createStray_diverts {s : State} {n : Count} {lanes : Lanes} {r : Record} (room : s.track.records.length < 64)
    (idle : s.bid.own = none) (role : s.role = .outfeed) (here : r = s.strayAt n lanes)
    (closures : ∀ i c, (s.outfeed.streams.get i).closure = some c → c.1 ≠ s.nextTag) :
    (createStray n lanes s).outfeed.divert = some (s.now + 100000)
      ∧ (createStray n lanes s).outfeed.underEye = s.outfeed.underEye ++
          [{ tag := s.nextTag, stream := s.outfeed.streamOf r.desc.lanes
             serial := ((s.outfeed.streamOf r.desc.lanes).map (fun i => (s.outfeed.streams.get i).serial)).getD 0
             counted := false }]
      ∧ (createStray n lanes s).fifo = s.withEvents
          (((s.outfeed.streamOf r.desc.lanes).elim [] (fun i => s.shortGap i r.desc n))
            ++ [{ kind := .diverted, tag := some s.nextTag, code := some 4 }]) := by
  let t := takeTag s
  let v := openSighting s.nextTag true n lanes (insertNew r t)
  have fixed : t.ownFixed := ownFixed_none idle
  have tag : r.desc.tag = s.nextTag := by
    rw [here]
    rfl
  have fresh : t.record r.desc.tag = none := by
    rw [tag]
    exact record_nextTag (le_of_lt room)
  have frame : SameBut [.track, .eye, .bid, .outfeed] s v :=
    (((takeTag_frame s).widen (by decide)).trans ((insertNew_left fixed r).frame.widen (by decide))).trans
      ((setSightings_frame _ _).widen (by decide))
  have still : OutfeedStill s v := by
    obtain ⟨due, outfeed⟩ := noteChange_outfeed r.desc.lanes (t.setRecords (insertRecord r t.track.records))
    refine .of_planned (due := due) ?_
    show (insertNew r t).outfeed = _
    rw [insertNew_fixed fixed, outfeed]
    rfl
  have gap : ∀ i, v.shortGap i r.desc n = s.shortGap i r.desc n := fun i => by
    obtain ⟨spacer, stream⟩ := still.streams i
    refine shortGap_congr (frame .run (by decide)) (by rw [stream]) (fun u last closed => ?_) _ _
    have other : r.desc.tag ≠ u := tag ▸ (closures i _ closed).symm
    have same : (insertNew r t).record u = s.record u := by
      rw [insertNew_fixed fixed, record_congr (congrArg TrackList.records (noteChange_frame _ _ .track (by decide))),
        inserted_record fresh, if_neg other]
      rfl
    exact congrArg (Option.map Record.desc) same
  have role' : ¬ v.role ≠ .outfeed :=
    not_not_intro ((congrArg (fun f => f.station.role) (frame .run (by decide))).trans role)
  obtain ⟨a, director, stillA, now, store, told⟩ : ∃ a, outfeedStray r.desc n v =
      enterUnderEye r.desc.tag (s.outfeed.streamOf r.desc.lanes) false
        (raise { kind := .diverted, tag := some r.desc.tag, code := some 4 } (divertPulse a))
      ∧ OutfeedStill s a ∧ a.now = s.now ∧ a.store = s.store
      ∧ a.fifo = s.withEvents ((s.outfeed.streamOf r.desc.lanes).elim [] (fun i => s.shortGap i r.desc n)) := by
    unfold outfeedStray
    rw [if_neg role', still.streamOf]
    cases s.outfeed.streamOf r.desc.lanes with
    | none => exact ⟨v, rfl, still, frame .now (by decide), frame .store (by decide), frame .fifo (by decide)⟩
    | some i =>
      have judged : SameBut [.fifo] v (judgeGap i r.desc n v) := judgeGap_frame i r.desc n v
      refine ⟨planAgain i (judgeGap i r.desc n v), rfl,
        (still.trans (.of_same (judged .outfeed (by decide)))).trans (planAgain_still i _),
        (judged .now (by decide)).trans (frame .now (by decide)),
        (judged .store (by decide)).trans (frame .store (by decide)), ?_⟩
      show (judgeGap i r.desc n v).fifo = s.withEvents (s.shortGap i r.desc n)
      rw [judgeGap_fifo, gap]
      unfold State.withEvents
      rw [frame .store (by decide), frame .fifo (by decide)]
  have serial : (s.outfeed.streamOf r.desc.lanes).map (fun i => (a.outfeed.streams.get i).serial)
      = (s.outfeed.streamOf r.desc.lanes).map (fun i => (s.outfeed.streams.get i).serial) :=
    Option.map_congr (fun i _ => by
      obtain ⟨spacer, stream⟩ := stillA.streams i
      rw [stream])
  have result : createStray n lanes s = outfeedStray r.desc n v := by
    rw [createStray_room room, ← here]
  rw [result, director, ← tag]
  refine ⟨?_, ?_, raise_withEvents told store _⟩
  · show some (a.now + 100000) = _
    rw [now]
  · rw [← serial, ← stillA.underEye]
    cases s.outfeed.streamOf r.desc.lanes <;> rfl

/-- A stray elsewhere than at an OUTFEED station stays with the list and the sightings. -/
theorem createStray_undirected {s : State} (room : s.track.records.length < 64) (role : s.role ≠ .outfeed) (n : Count)
    (lanes : Lanes) : createStray n lanes s =
      openSighting s.nextTag true n lanes (insertNew (s.strayAt n lanes) (takeTag s)) := by
  rw [createStray_room room]
  refine if_pos ?_
  have run : (insertNew (s.strayAt n lanes) (takeTag s)).run = s.run :=
    (insertNew_frame _ _ .run (by decide)).trans (takeTag_frame s .run (by decide))
  show (insertNew (s.strayAt n lanes) (takeTag s)).role ≠ .outfeed
  unfold State.role
  rwa [run]

/-! ## The outcomes of unmatched edges -/

/-- One stray of one unmatched edge (R27, R46, R65, R136, R138). -/
theorem edge_creates_stray :
    ∀ (s : State) (k : Fin 4) (n : Count), s.acting = true → s.leadingDue = [(k, n)] → s.absorber k n = none →
    s.bestCandidate k n = none → s.track.records.length < 64 → s.ownElsewhere s.nextTag →
    ∃ t r, exec .leadingEdge s = .next t
      ∧ s.record s.nextTag = none
      ∧ t.record s.nextTag = some r
      ∧ r.desc.kind = .stray ∧ r.desc.article = 0 ∧ r.desc.lot = 0 ∧ r.desc.length = 1 ∧ r.desc.reject = .stray
      ∧ r.desc.rank = .normal ∧ r.desc.lead = s.run.strayGap ∧ r.desc.trail = s.run.strayGap
      ∧ hasLane r.desc.lanes k = true
      ∧ r.tl = plus n s.run.eye ∧ r.state = .stray ∧ r.own = true ∧ r.passed = true ∧ r.missed = false
      ∧ r.reporter = s.number ∧ r.measured = none ∧ r.openFrom = some n
      ∧ (∃ g ∈ t.eye.sightings, g.tag = s.nextTag ∧ g.stray = true ∧ g.first = n ∧ g.bound = laneBit k)
      ∧ (s.bid.own = none → s.role ≠ .outfeed → t.fifo = s.fifo)
      ∧ (s.bid.own = none → s.role = .outfeed →
          (∀ i c, (s.outfeed.streams.get i).closure = some c → c.1 ≠ s.nextTag) →
          t.outfeed.divert = some (s.now + 100000)
            ∧ t.outfeed.underEye = s.outfeed.underEye ++
                [{ tag := s.nextTag, stream := s.outfeed.streamOf r.desc.lanes
                   serial := ((s.outfeed.streamOf r.desc.lanes).map
                     (fun i => (s.outfeed.streams.get i).serial)).getD 0
                   counted := false }]
            ∧ t.fifo = s.withEvents (((s.outfeed.streamOf r.desc.lanes).elim [] (fun i => s.shortGap i r.desc n))
                ++ [{ kind := .diverted, tag := some s.nextTag, code := some 4 }]))
      ∧ SameBut [.track, .eye, .bid, .feed, .width, .throat, .outfeed, .link, .fifo] s t := by
  intro s k n acting due free unmatched room _
  let u := takeLeading k n s
  let r := u.strayAt n (laneBit k)
  have taken : SameBut [.eye, .throat] s u := takeLeading_frame k n s
  have run : u.run = s.run := taken .run (by decide)
  have tag := taken_tag taken
  have room' : u.track.records.length < 64 := by
    rw [taken .track (by decide)]
    exact room
  obtain ⟨-, record, opened, -⟩ := createStray_list room' n (laneBit k)
  have edges := leadingEdges_one_stray due free unmatched
  refine ⟨finish (leadingEdges s), r, leading_row acting, record_nextTag (le_of_lt room), ?_, rfl, rfl, rfl, rfl, rfl, rfl,
    congrArg Figures.strayGap run, congrArg Figures.strayGap run, ?_, congrArg (fun f : Figures => plus n f.eye) run, rfl, rfl, rfl, rfl,
    congrArg (fun f => f.station.number) run, rfl, rfl, ⟨_, by rw [finish_eye, edges]; exact opened, tag, rfl, rfl, rfl⟩,
    fun idle role => ?_, fun idle role closures => ?_, leading_frame s⟩
  · rw [finish_record, edges, ← tag]
    exact record
  · show hasLane (laneBit k ||| u.joining n) k = true
    rw [hasLane_or, hasLane_laneBit]
    simp
  · have idle' : (takeTag u).bid.own = none := (congrArg BidEngine.own (taken .bid (by decide))).trans idle
    have inserted := insertNew_left (ownFixed_none idle') r
    rw [finish_fifo, edges, createStray_undirected room' (by rw [taken_role taken]; exact role)]
    exact (inserted.frame .fifo (by decide)).trans (taken .fifo (by decide))
  · have outfeed : u.outfeed = s.outfeed := taken .outfeed (by decide)
    have gap : ∀ i, u.shortGap i r.desc n = s.shortGap i r.desc n := fun i =>
      shortGap_congr run (by rw [outfeed])
        (fun x _ _ => by rw [record_congr (congrArg TrackList.records (taken .track (by decide)))]) _ _
    have told := createStray_diverts (r := r) room' ((congrArg BidEngine.own (taken .bid (by decide))).trans idle)
      ((taken_role taken).trans role) rfl (by rw [outfeed, tag]; exact closures)
    simp only [gap, outfeed, tag] at told
    unfold State.withEvents at told ⊢
    rw [taken .now (by decide), taken .store (by decide), taken .fifo (by decide)] at told
    rw [edges, finish_outfeed_divert, finish_outfeed_underEye, finish_fifo]
    exact told

/-- The stray dropped at the full list (R51, R65). -/
theorem edge_drops_stray :
    ∀ (s : State) (k : Fin 4) (n : Count), s.acting = true → s.leadingDue = [(k, n)] → s.absorber k n = none →
    s.bestCandidate k n = none → 64 ≤ s.track.records.length → s.bid.own = none →
    ∃ t, exec .leadingEdge s = .next t
      ∧ t.track = { s.track with counter := s.nextTag.seq + 1 }
      ∧ t.eye.eyes = s.eye.eyes.set k { state := .blocked, edge := none } ∧ t.eye.sightings = s.eye.sightings
      ∧ t.bid.own = none ∧ t.bid.hold = { s.bid.hold with trackFull := true }
      ∧ t.fifo = (if s.bid.hold.trackFull = true then s.fifo else
          s.withEvent { kind := .trackFull, tag := some s.nextTag, article := some 0, lot := some 0
                        a := some 64, code := some 4 })
      ∧ SameBut [.track, .eye, .bid, .throat, .outfeed, .fifo] s t := by
  intro s k n acting due free unmatched full idle
  let u := takeLeading k n s
  let w := overflow (u.strayAt n (laneBit k)).desc 4 (takeTag u)
  have taken : SameBut [.eye, .throat] s u := takeLeading_frame k n s
  have tag := taken_tag taken
  have edges : leadingEdges s = w := by
    rw [leadingEdges_one_stray due free unmatched, createStray_full]
    rw [taken .track (by decide)]
    exact full
  have idle' : (takeTag u).bid.own = none := (congrArg BidEngine.own (taken .bid (by decide))).trans idle
  obtain ⟨bid, told, frame⟩ := overflow_told idle' (u.strayAt n (laneBit k)).desc 4
  have bid' : w.bid = { s.bid with hold := { s.bid.hold with trackFull := true } } := by
    rw [← taken .bid (by decide)]
    exact bid
  have held : w.bid.hold.any = true := by
    rw [bid']
    simp [HoldSet.any]
  obtain ⟨own, kept⟩ := finish_held held
  have eye : w.eye = { s.eye with eyes := s.eye.eyes.set k { state := .blocked, edge := none } } :=
    (frame .eye (by decide)).trans (takeLeading_eye k n s)
  have before : SameBut [.track, .eye, .bid, .throat, .fifo] s w :=
    ((taken.widen (by decide)).trans ((takeTag_frame u).widen (by decide))).trans (frame.widen (by decide))
  rw [leading_row acting, edges]
  refine ⟨finish w, rfl, ?_, by rw [finish_eye, eye], by rw [finish_eye, eye], by rw [own, bid']; exact idle,
    by rw [finish_bid_hold, bid'], ?_, (before.widen (by decide)).trans (kept.widen (by decide))⟩
  · rw [kept .track (by decide), frame .track (by decide)]
    show { u.track with counter := u.nextTag.seq + 1 } = _
    rw [tag, taken .track (by decide)]
  · rw [finish_fifo]
    refine told.trans ?_
    show (if u.bid.hold.trackFull = true then u.fifo else u.withEvent (trackFullEvent _ 4)) = _
    unfold State.withEvent trackFullEvent
    rw [taken .bid (by decide), taken .store (by decide), taken .fifo (by decide), ← tag]
    rfl

/-- Several unmatched edges of one count make one stray (R65). -/
theorem edges_create_one_stray :
    ∀ (s : State) (n : Count), s.acting = true → s.leadingDue ≠ [] →
    (∀ p ∈ s.leadingDue, p.2 = n ∧ s.absorber p.1 n = none ∧ s.bestCandidate p.1 n = none) →
    s.track.records.length < 64 → s.ownElsewhere s.nextTag →
    ∃ t r g, exec .leadingEdge s = .next t
      ∧ t.record s.nextTag = some r ∧ r.tl = plus n s.run.eye
      ∧ (∀ x ∈ t.track.records, x = r ∨ x ∈ s.track.records)
      ∧ (∀ j, hasLane r.desc.lanes j = true ↔ (j, n) ∈ s.leadingDue ∨
          (hasLane s.run.lanes j = true ∧ (s.eye.eyes.get j).state = .clear
            ∧ ∃ c, (s.eye.eyes.get j).edge = some c ∧ 0 ≤ signedDiff (plus n s.run.tolerance) c))
      ∧ g ∈ t.eye.sightings ∧ g.tag = s.nextTag ∧ g.stray = true ∧ g.first = n
      ∧ (∀ j, hasLane g.bound j = true ↔ (j, n) ∈ s.leadingDue)
      ∧ (∀ x ∈ t.eye.sightings, x = g ∨ x ∈ s.eye.sightings) := by
  intro s n acting edged free room _
  let u := takeAll s.leadingDue s
  let w := lanesLeft s.leadingDue 0
  have taken : SameBut [.eye, .throat] s u := takeAll_frame s.leadingDue s
  have run : u.run = s.run := taken .run (by decide)
  have sightings : u.eye.sightings = s.eye.sightings := takeAll_sightings s.leadingDue s
  have tag := taken_tag taken
  have room' : u.track.records.length < 64 := by
    rw [taken .track (by decide)]
    exact room
  obtain ⟨-, record, opened, only⟩ := createStray_list room' n w
  obtain ⟨-, sub, -⟩ := createStray_eyes n w u
  have edges := leadingEdges_unmatched edged free
  have lanes : ∀ j, hasLane w j = true ↔ (j, n) ∈ s.leadingDue := fun j => by
    rw [lanesLeft_iff, hasLane_zero, List.mem_map]
    constructor
    · rintro (no | ⟨⟨k, m⟩, mem, rfl⟩)
      · cases no
      · obtain ⟨rfl, -⟩ := free (k, m) mem
        exact mem
    · exact fun mem => .inr ⟨_, mem, rfl⟩
  have joins : ∀ j, (j, n) ∉ s.leadingDue → (u.joins n j ↔ s.joins n j) := fun j other => by
    have apart : j ∉ s.leadingDue.map Prod.fst := fun mem => by
      obtain ⟨⟨k, m⟩, due, rfl⟩ := List.mem_map.mp mem
      obtain ⟨rfl, -⟩ := free (k, m) due
      exact other due
    unfold State.joins
    rw [run, (takeAll_other j s.leadingDue s apart).1]
  refine ⟨finish (leadingEdges s), u.strayAt n w, u.opened u.nextTag true n w, leading_row acting, ?_,
    congrArg (fun f : Figures => plus n f.eye) run, ?_, fun j => ?_, by rw [finish_eye, edges]; exact opened, tag, rfl, rfl, lanes, ?_⟩
  · rw [finish_record, edges, ← tag]
    exact record
  · rw [finish_track_records, edges, ← taken .track (by decide)]
    exact only
  · show hasLane (w ||| u.joining n) j = true ↔ _ ∨ s.joins n j
    rw [hasLane_or, Bool.or_eq_true, lanes, joining_iff]
    by_cases mem : (j, n) ∈ s.leadingDue
    · simp [mem]
    · rw [joins j mem]
  · rw [finish_eye, edges]
    intro x mem
    rcases List.mem_append.mp (sub.subset mem) with old | new
    · exact .inr (sightings ▸ old)
    · exact .inl (List.mem_singleton.mp new)

/-- A SETTLING or GRANTED own bid is judged by the new stray (R94). -/
theorem edge_judges_own_stray :
    ∀ (s : State) (k : Fin 4) (n : Count) (o : OwnBid), s.acting = true → s.leadingDue = [(k, n)] →
    s.absorber k n = none → s.bestCandidate k n = none → s.track.records.length < 64 → s.ownElsewhere s.nextTag →
    s.role ≠ .outfeed → s.bid.own = some o → o.state = .settling ∨ o.state = .granted →
    ∃ t r, exec .leadingEdge s = .next t ∧ t.record s.nextTag = some r ∧ s.judgesBump t r o := by
  intro s k n o acting due free unmatched room elsewhere role own landing
  let u := takeLeading k n s
  let r := u.strayAt n (laneBit k)
  have taken : SameBut [.eye, .throat] s u := takeLeading_frame k n s
  have tag := taken_tag taken
  have room' : u.track.records.length < 64 := by
    rw [taken .track (by decide)]
    exact room
  obtain ⟨fresh, record, -, -⟩ := createStray_list room' n (laneBit k)
  have edges : leadingEdges s = openSighting u.nextTag true n (laneBit k) (insertNew r (takeTag u)) := by
    rw [leadingEdges_one_stray due free unmatched]
    exact createStray_undirected room' (by rw [taken_role taken]; exact role) n (laneBit k)
  have other : r.desc.tag ≠ o.desc.tag := fun same => elsewhere o own (same.symm.trans tag)
  have check : CheckSame o s (takeTag u) := (taken_check o taken).trans
    { record := rfl, passedOver := rfl, link := rfl, fifo := rfl, store := rfl, positions := rfl, own := rfl, run := rfl
      line := rfl }
  have fresh' : s.record r.desc.tag = none := by
    rw [← record_congr (congrArg TrackList.records (taken .track (by decide)))]
    exact fresh
  have judged : Judged s (insertNew r (takeTag u)) o r := insertNew_judged own landing other check fresh' fresh
  have final := (judged.of_frame (x := openSighting u.nextTag true n (laneBit k) (insertNew r (takeTag u)))
    ((setSightings_frame _ _).widen (by decide))).finish landing
  refine ⟨finish (leadingEdges s), r, leading_row acting, ?_, ?_⟩
  · rw [finish_record, leadingEdges_one_stray due free unmatched, ← tag]
    exact record
  · rw [edges]
    exact final

/-- Settles O9: each outcome of unmatched edges. -/
theorem leadingEdgeCreatesStray : Obligations.LeadingEdgeCreatesStray :=
  ⟨edge_creates_stray, edge_drops_stray, edges_create_one_stray, edge_judges_own_stray⟩

end Sys2Proof.Machine
end
